-- ==== Sys2Proof/Word.lean ====
section
/-!
DEFINITION. The word types of the Kamlan (R3, R7) and their plainest arithmetic.
-/
namespace Sys2Proof

/-- A 64-bit register or cell. -/
abbrev Word := BitVec 64
/-- A byte of memory. -/
abbrev Byte := BitVec 8
/-- A 32-bit instruction word (R29). -/
abbrev IWord := BitVec 32
/-- A 512-bit vector register (R139). -/
abbrev VWord := BitVec 512
/-- A 5-bit register field (R31). -/
abbrev Reg := BitVec 5
/-- A 3-bit field naming a mask, message register, type or swizzle (R31). -/
abbrev Fld3 := BitVec 3

/-- A sparse table: pairs of a key and a value, keys rising. -/
abbrev Tab (α : Type) := List (Nat × α)

end Sys2Proof
end

