-- ==== Sys2Proof/Machine/Flags.lean ====
section
/-!
DEFINITION. Floating values read exactly, rounding and the flags it raises (R113 to R119), and the exact operations of
R156 and R157. A finite value is (-1)^neg x man x 2^exp.
-/
namespace Sys2Proof.Machine

/-- NX (R118). -/
def fNX : BitVec 5 := 1
/-- UF (R118). -/
def fUF : BitVec 5 := 2
/-- OF (R118). -/
def fOF : BitVec 5 := 4
/-- DZ (R118). -/
def fDZ : BitVec 5 := 8
/-- NV (R118). -/
def fNV : BitVec 5 := 16
/-- A flag under a condition. -/
def flagIf (b : Bool) (f : BitVec 5) : BitVec 5 := if b then f else 0

/-- A value read from a format or computed exactly (R113, R115). -/
inductive FVal where
  | nan (signalling : Bool)
  | inf (neg : Bool)
  | fin (neg : Bool) (man : Nat) (exp : Int)
  deriving DecidableEq, Repr

/-- A floating format: bits of its exponent and of its fraction (R113). -/
structure FFmt where
  ebits : Nat
  fbits : Nat
  deriving DecidableEq, Repr

/-- FP32, FP16, BF16 and AF19 by type code (R57, R113). -/
def fmtOf (t : Nat) : FFmt :=
  if t = 0 then ⟨8, 23⟩ else if t = 1 then ⟨5, 10⟩ else if t = 2 then ⟨8, 7⟩ else ⟨8, 10⟩
/-- The exponent bias (R113). -/
def FFmt.bias (f : FFmt) : Nat := 2 ^ (f.ebits - 1) - 1
/-- Bits of a value (R113). -/
def FFmt.width (f : FFmt) : Nat := 1 + f.ebits + f.fbits
/-- The exponent of the smallest normal (R113). -/
def FFmt.emin (f : FFmt) : Int := 1 - (f.bias : Int)
/-- The pattern of an infinity (R113). -/
def FFmt.infBits (f : FFmt) (neg : Bool) : Nat := (2 ^ f.ebits - 1) * 2 ^ f.fbits + if neg then 2 ^ (f.ebits + f.fbits) else 0
/-- The pattern of the largest finite value (R113). -/
def FFmt.maxBits (f : FFmt) (neg : Bool) : Nat := f.infBits neg - 1
/-- The canonical NaN (R113). -/
def FFmt.nanBits (f : FFmt) : Nat := (2 ^ f.ebits - 1) * 2 ^ f.fbits + 2 ^ (f.fbits - 1)

/-- A pattern read (R113); bits above the width are ignored (R114, R142). -/
def unpack (f : FFmt) (x : Nat) : FVal :=
  let neg := x.testBit (f.ebits + f.fbits)
  let e := x / 2 ^ f.fbits % 2 ^ f.ebits
  let fr := x % 2 ^ f.fbits
  if e = 2 ^ f.ebits - 1 then (if fr = 0 then .inf neg else .nan (!fr.testBit (f.fbits - 1)))
  else if e = 0 then .fin neg fr (f.emin - f.fbits)
  else .fin neg (2 ^ f.fbits + fr) ((e : Int) - f.bias - f.fbits)

/-- The pattern is subnormal: exponent field zero, fraction not (R113). -/
def isSubnormal (f : FFmt) (x : Nat) : Bool :=
  decide (x / 2 ^ f.fbits % 2 ^ f.ebits = 0) && decide (x % 2 ^ f.fbits ≠ 0)

/-- The exponent of the leading one of a value that is not zero. -/
def topExp (man : Nat) (exp : Int) : Int := exp + (Nat.log2 man : Int)

/-- man x 2^exp as a whole number of units 2^q, under a mode (R116, R119; 4 takes the draw r), and whether it is inexact. -/
def roundUnits (mode r : Nat) (neg : Bool) (man : Nat) (exp q : Int) : Nat × Bool :=
  if q ≤ exp then (man * 2 ^ (exp - q).toNat, false)
  else
    let d := 2 ^ (q - exp).toNat
    let n := man / d
    let rem := man % d
    let up :=
      if mode = 0 then decide (d < 2 * rem) || (decide (2 * rem = d) && decide (n % 2 = 1))
      else if mode = 2 then neg && decide (rem ≠ 0)
      else if mode = 3 then !neg && decide (rem ≠ 0)
      else if mode = 4 then decide (rem ≠ 0) && decide (2 ^ 32 * d ≤ rem * 2 ^ 32 + r * d)
      else false
    (if up then n + 1 else n, decide (rem ≠ 0))

/-- Whether overflow goes to an infinity (R116). -/
def overflowsToInf (mode : Nat) (neg : Bool) : Bool :=
  decide (mode = 0) || (decide (mode = 2) && neg) || (decide (mode = 3) && !neg)

/-- A value rounded to a format: its pattern and flags (R115 to R117, R119). -/
def roundTo (f : FFmt) (mode r : Nat) : FVal → Nat × BitVec 5
  | .nan s => (f.nanBits, flagIf s fNV)
  | .inf neg => (f.infBits neg, 0)
  | .fin neg man exp =>
    let sign := if neg then 2 ^ (f.ebits + f.fbits) else 0
    if man = 0 then (sign, 0)
    else
      let top := topExp man exp
      let q := max top f.emin - f.fbits
      let (n, inexact) := roundUnits mode r neg man exp q
      let top1 : Int := f.bias - f.fbits
      if top1 < q ∨ (q = top1 ∧ 2 ^ (f.fbits + 1) ≤ n) then
        (if overflowsToInf mode neg then f.infBits neg else f.maxBits neg, fOF ||| fNX)
      else
        -- the biased exponent field of a unit 2^q is q + bias + fbits - 1, carried by the leading one of n
        let base := (q + f.bias + f.fbits - 1).toNat * 2 ^ f.fbits
        (sign + base + n, flagIf inexact fNX ||| flagIf (inexact && decide (top < f.emin)) fUF)

/-- One step of the generator of R119: the state after it and the draw. -/
def sr (s : Word) : Word × Nat :=
  let a := s ^^^ (s <<< 13)
  let b := a ^^^ (a >>> 7)
  let c := b ^^^ (b <<< 17)
  (c, (c >>> 32).toNat)

/-- A rounding with its own draw: the generator steps exactly under SR (R119). -/
def drawRound (f : FFmt) (mode : Nat) (seed : Word) (x : FVal) : Nat × BitVec 5 × Word :=
  if mode = 4 then
    let (s, r) := sr seed
    let (v, fl) := roundTo f 4 r x
    (v, fl, s)
  else
    let (v, fl) := roundTo f mode 0 x
    (v, fl, seed)

/-- A NaN that signals (R113). -/
def FVal.isSnan : FVal → Bool
  | .nan s => s
  | _ => false
/-- A NaN. -/
def FVal.isNan : FVal → Bool
  | .nan _ => true
  | _ => false
/-- An infinity. -/
def FVal.isInf : FVal → Bool
  | .inf _ => true
  | _ => false
/-- A zero of either sign. -/
def FVal.isZero : FVal → Bool
  | .fin _ man _ => man == 0
  | _ => false
/-- The sign bit of a value that is not a NaN. -/
def FVal.neg : FVal → Bool
  | .nan _ => false
  | .inf n => n
  | .fin n _ _ => n
/-- The value with the opposite sign. -/
def FVal.flip : FVal → FVal
  | .nan s => .nan s
  | .inf n => .inf (!n)
  | .fin n m e => .fin (!n) m e
/-- The magnitude. -/
def FVal.abs : FVal → FVal
  | .nan s => .nan s
  | .inf _ => .inf false
  | .fin _ m e => .fin false m e
/-- The value times 2^k. -/
def FVal.scale (x : FVal) (k : Int) : FVal :=
  match x with
  | .fin n m e => .fin n m (e + k)
  | y => y
/-- A whole number. -/
def FVal.ofInt (i : Int) : FVal := .fin (decide (i < 0)) i.natAbs 0
/-- The signed number of units 2^q in a finite value whose exponent is at least q. -/
def FVal.units (x : FVal) (q : Int) : Int :=
  match x with
  | .fin n m e => let u := (m * 2 ^ (e - q).toNat : Nat); if n then -(u : Int) else (u : Int)
  | _ => 0
/-- The exponent of a finite value's unit. -/
def FVal.unit : FVal → Int
  | .fin _ _ e => e
  | _ => 0

/-- The exact sum of a list of addends: ∞ - ∞ is invalid, an exact zero has the sign of R156, and a NaN makes a quiet
NaN, with NV when one signals (R115, R117, R167). -/
def sumExact (mode : Nat) (xs : List FVal) : FVal × BitVec 5 :=
  if xs.any FVal.isNan then (.nan false, flagIf (xs.any FVal.isSnan) fNV)
  else if xs.any FVal.isInf then
    let p := xs.any (fun x => x.isInf && !x.neg)
    let n := xs.any (fun x => x.isInf && x.neg)
    if p && n then (.nan false, fNV) else (.inf n, 0)
  else
    let q := xs.foldl (fun a x => min a x.unit) (xs.headD (.fin false 0 0)).unit
    let t : Int := xs.foldl (fun a x => a + x.units q) 0
    if t = 0 then
      let allZero := xs.all FVal.isZero
      let neg := if allZero && xs.all FVal.neg then true
        else if allZero && xs.all (fun x => !x.neg) then false else decide (mode = 2)
      (.fin neg 0 q, 0)
    else (.fin (decide (t < 0)) t.natAbs q, 0)

/-- The exact product; 0 x ∞ is invalid (R117). -/
def mulExact (x y : FVal) : FVal × BitVec 5 :=
  match x, y with
  | .fin a m e, .fin b n f => (.fin (a != b) (m * n) (e + f), 0)
  | _, _ =>
    if x.isNan || y.isNan then (.nan false, flagIf (x.isSnan || y.isSnan) fNV)
    else if x.isZero || y.isZero then (.nan false, fNV)
    else (.inf (x.neg != y.neg), 0)

/-- The quotient, exact but for a last bit that stands for the rest of it (R117, R156). Operands are of at most 64 bits. -/
def divExact (x y : FVal) : FVal × BitVec 5 :=
  match x, y with
  | .fin a m e, .fin b n f =>
    if n = 0 then (if m = 0 then (.nan false, fNV) else (.inf (a != b), fDZ))
    else
      let num := m * 2 ^ 160
      let qt := num / n
      (.fin (a != b) (2 * qt + (if num % n = 0 then 0 else 1)) (e - f - 161), 0)
  | _, _ =>
    if x.isNan || y.isNan then (.nan false, flagIf (x.isSnan || y.isSnan) fNV)
    else if x.isInf then (if y.isInf then (.nan false, fNV) else (.inf (x.neg != y.neg), 0))
    else (.fin (x.neg != y.neg) 0 0, 0)

/-- The largest r with r^2 at most n, given r correct above bit k. -/
def isqrtFrom (n : Nat) : Nat → Nat → Nat
  | 0, r => r
  | k + 1, r => isqrtFrom n k (if (r + 2 ^ k) * (r + 2 ^ k) ≤ n then r + 2 ^ k else r)

/-- The square root, exact but for a last bit that stands for the rest of it; of a negative value invalid, of -0 itself
(R117, R156). -/
def sqrtExact (x : FVal) : FVal × BitVec 5 :=
  match x with
  | .nan s => (.nan false, flagIf s fNV)
  | .inf n => if n then (.nan false, fNV) else (.inf false, 0)
  | .fin n m e =>
    if m = 0 then (.fin n 0 e, 0)
    else if n then (.nan false, fNV)
    else
      let odd := e % 2 = 1
      let big := if odd then m * 2 ^ 161 else m * 2 ^ 160
      let half := if odd then (e - 161) / 2 else (e - 160) / 2
      let r := isqrtFrom big 128 0
      (.fin false (2 * r + (if r * r = big then 0 else 1)) (half - 1), 0)

/-- x x y + z exactly (R156, R161): 0 x ∞ is invalid even with a quiet NaN for z. -/
def fmaExact (mode : Nat) (x y z : FVal) : FVal × BitVec 5 :=
  let (p, f1) := mulExact x y
  let (s, f2) := sumExact mode [p, z]
  (s, f1 ||| f2)

/-- The order of two values that are not NaNs: less, equal; -0 equals +0 (R157). -/
def valLt (x y : FVal) : Bool :=
  match x, y with
  | .nan _, _ => false
  | _, .nan _ => false
  | .inf n, .inf m => n && !m
  | .inf n, .fin _ _ _ => n
  | .fin _ _ _, .inf m => !m
  | .fin _ _ _, .fin _ _ _ => let q := min x.unit y.unit; decide (x.units q < y.units q)
/-- Equal in value (R157). -/
def valEq (x y : FVal) : Bool :=
  match x, y with
  | .nan _, _ => false
  | _, .nan _ => false
  | .inf n, .inf m => n == m
  | .inf _, .fin _ _ _ => false
  | .fin _ _ _, .inf _ => false
  | .fin _ _ _, .fin _ _ _ => let q := min x.unit y.unit; decide (x.units q = y.units q)

/-- FCEQ (R157). -/
def cmpEq (x y : FVal) : Bool × BitVec 5 := (valEq x y, flagIf (x.isSnan || y.isSnan) fNV)
/-- FCLT (R157). -/
def cmpLt (x y : FVal) : Bool × BitVec 5 := (valLt x y, flagIf (x.isNan || y.isNan) fNV)
/-- FCLE (R157). -/
def cmpLe (x y : FVal) : Bool × BitVec 5 := (valLt x y || valEq x y, flagIf (x.isNan || y.isNan) fNV)
/-- VCUN (R162). -/
def cmpUn (x y : FVal) : Bool × BitVec 5 := (x.isNan || y.isNan, flagIf (x.isSnan || y.isSnan) fNV)

/-- FMIN and FMAX on patterns of a format (R157): the operand itself, or the canonical NaN. -/
def minMax (f : FFmt) (wantMax : Bool) (a b : Nat) : Nat × BitVec 5 :=
  let x := unpack f a
  let y := unpack f b
  let fl := flagIf (x.isSnan || y.isSnan) fNV
  let a' := a % 2 ^ f.width
  let b' := b % 2 ^ f.width
  if x.isNan then (if y.isNan then f.nanBits else b', fl)
  else if y.isNan then (a', fl)
  else
    let aLess := valLt x y || (valEq x y && x.neg && !y.neg)
    ((if aLess == wantMax then b' else a'), fl)

/-- FABS on a pattern (R157). -/
def absBits (f : FFmt) (a : Nat) : Nat × BitVec 5 :=
  match unpack f a with
  | .nan s => (f.nanBits, flagIf s fNV)
  | _ => (a % 2 ^ (f.width - 1), 0)
/-- FNEG on a pattern (R157). -/
def negBits (f : FFmt) (a : Nat) : Nat × BitVec 5 :=
  match unpack f a with
  | .nan s => (f.nanBits, flagIf s fNV)
  | _ => ((a % 2 ^ f.width) ^^^ 2 ^ (f.width - 1), 0)
/-- FCLASS (R157): the place of the one. -/
def classBit (f : FFmt) (a : Nat) : Nat :=
  match unpack f a with
  | .nan s => if s then 8 else 9
  | .inf n => if n then 0 else 7
  | .fin n m _ =>
    if m = 0 then (if n then 3 else 4)
    else if isSubnormal f a then (if n then 2 else 5)
    else (if n then 1 else 6)

/-- A value rounded to a whole number of units 1 (R158, R119 with u = 1), without range. -/
def toInt (mode r : Nat) : FVal → Int × Bool
  | .fin n m e => let (u, x) := roundUnits mode r n m e 0; (if n then -(u : Int) else (u : Int), x)
  | _ => (0, false)

/-- A value converted to an integer of a range (R123, R158): saturated with NV, NaN to 0 with NV. -/
def intConv (lo hi : Int) (mode r : Nat) (x : FVal) : Int × BitVec 5 :=
  match x with
  | .nan _ => (0, fNV)
  | .inf n => (if n then lo else hi, fNV)
  | .fin _ _ _ =>
    let (i, inexact) := toInt mode r x
    if i < lo then (lo, fNV) else if hi < i then (hi, fNV) else (i, flagIf inexact fNX)

/-- The integer conversion with its own draw under SR (R119). -/
def drawInt (lo hi : Int) (mode : Nat) (seed : Word) (x : FVal) : Int × BitVec 5 × Word :=
  if mode = 4 then
    let (s, r) := sr seed
    let (v, fl) := intConv lo hi 4 r x
    (v, fl, s)
  else
    let (v, fl) := intConv lo hi mode 0 x
    (v, fl, seed)

end Sys2Proof.Machine
end

