-- ==== Sys2Proof/Packet.lean ====
section
/-!
DEFINITION. What comes to this package from another over the fabric (R330, R331): the inputs of the events
PACKET_ARRIVAL and PACKET_ACK.
-/
namespace Sys2Proof

/-- A packet that arrives from another package (R330). -/
inductive FabIn where
  /-- A START of SPAWN, a NOTIFY, a DEATH or a FABCTL: its eight words, its ASID, its sender's job-relative index. -/
  | msg (words : Vector Word 8) (asid : BitVec 16) (pkg : BitVec 12)
  /-- One 64-byte beat of a CPY.R (R261): the ASID, the destination address, the data. -/
  | beat (asid : BitVec 16) (dst : BitVec 52) (data : VWord)
  /-- Bytes, and perhaps an error, for a barrier of this package (R251, R261). -/
  | barrier (asid : BitVec 16) (name : Word) (bytes : Nat) (err : Bool)
  /-- A remote atomic (R227): the physical address, operation, size code, operand and comparand. -/
  | atomic (pa : BitVec 52) (op size : Nat) (x c : Word)
  /-- The drain marker of a FAMWR (R339). -/
  | marker
  /-- A line of another package's checkpoint (R392), for a local address of this package. -/
  | line (pa : BitVec 52) (data : VWord)
  /-- A coherence transaction (R206): the line's address, the member, the data, and 0 GETS, 1 GETX, 2 PUTE, 3 PUTM, 4 PUTO, 5 to 7 the
  probes of COH_PROBE. -/
  | coh (pa : BitVec 52) (member : Nat) (kind : Nat) (data : VWord)
  deriving DecidableEq, Repr

/-- Ordered packets (R330); the others are bulk. -/
def FabIn.ordered : FabIn → Bool
  | .beat _ _ _ | .barrier _ _ _ _ | .line _ _ => false
  | _ => true

/-- The answer that an acknowledgement carries (R331). -/
inductive FabAns where
  /-- The packet took effect. -/
  | ok
  /-- A remote atomic's old value and flags (R229). -/
  | old (v : Word) (flags : BitVec 5)
  /-- The destination refused it with a cause of R342. -/
  | fault (cause : BitVec 8)
  /-- Discarded there by a dead tag: the acknowledgement performs nothing (R353). -/
  | nothing
  deriving DecidableEq, Repr

/-- What a package says of one of its cores in a collective group (R315 to R318, R324): a join, a leave or a binding that its
software asked for, the first arrival of a phase at the bound barrier, a data collective that is QUEUED there (its sub-op of
R322 and its record), the end of the collective of a number by cancellation or a fault, and a withdrawal. -/
inductive FarWord where
  | join (tree : Bool)
  | leave
  | bind (on : Bool)
  | arrival
  | issue (sub : Nat) (record : BitVec 512)
  | cancel (no : Nat)
  | withdraw
  deriving DecidableEq, Repr

end Sys2Proof
end

