-- ==== Sys2Proof/Syntax.lean ====
section
/-!
DEFINITION. The instruction set (spec/opcode_table.json): one constructor per row. The first 253 are the words of
R47 to R70, their fields as the table cuts them; the rest are the steps that the hardware takes on its own or that the
host, another package or the environment causes (95_what_each_step_holds.md): they have no encoding, and their
arguments say which core, context, slot, packet or register the step is about and what comes in from outside.
`key` is core x 8 + context.
-/
namespace Sys2Proof

/-- One row of the opcode table. -/
inductive Instr where
  /-- ADD (R147) -/
  | add (d : BitVec 5) (a : BitVec 5) (b : BitVec 5)
  /-- SUB (R147) -/
  | sub (d : BitVec 5) (a : BitVec 5) (b : BitVec 5)
  /-- AND (R147) -/
  | and (d : BitVec 5) (a : BitVec 5) (b : BitVec 5)
  /-- OR (R147) -/
  | or (d : BitVec 5) (a : BitVec 5) (b : BitVec 5)
  /-- XOR (R147) -/
  | xor (d : BitVec 5) (a : BitVec 5) (b : BitVec 5)
  /-- ANDN (R147) -/
  | andn (d : BitVec 5) (a : BitVec 5) (b : BitVec 5)
  /-- NOR (R147) -/
  | nor (d : BitVec 5) (a : BitVec 5) (b : BitVec 5)
  /-- XNOR (R147) -/
  | xnor (d : BitVec 5) (a : BitVec 5) (b : BitVec 5)
  /-- SLT (R147) -/
  | slt (d : BitVec 5) (a : BitVec 5) (b : BitVec 5)
  /-- SLTN (R147) -/
  | sltn (d : BitVec 5) (a : BitVec 5) (b : BitVec 5)
  /-- MIN (R147) -/
  | min (d : BitVec 5) (a : BitVec 5) (b : BitVec 5)
  /-- MAX (R147) -/
  | max (d : BitVec 5) (a : BitVec 5) (b : BitVec 5)
  /-- MINN (R147) -/
  | minn (d : BitVec 5) (a : BitVec 5) (b : BitVec 5)
  /-- MAXN (R147) -/
  | maxn (d : BitVec 5) (a : BitVec 5) (b : BitVec 5)
  /-- SLL (R147) -/
  | sll (d : BitVec 5) (a : BitVec 5) (b : BitVec 5)
  /-- SRL (R147) -/
  | srl (d : BitVec 5) (a : BitVec 5) (b : BitVec 5)
  /-- SRA (R147) -/
  | sra (d : BitVec 5) (a : BitVec 5) (b : BitVec 5)
  /-- ROR (R147) -/
  | ror (d : BitVec 5) (a : BitVec 5) (b : BitVec 5)
  /-- MUL (R147) -/
  | mul (d : BitVec 5) (a : BitVec 5) (b : BitVec 5)
  /-- MULH (R147) -/
  | mulh (d : BitVec 5) (a : BitVec 5) (b : BitVec 5)
  /-- MULHN (R147) -/
  | mulhn (d : BitVec 5) (a : BitVec 5) (b : BitVec 5)
  /-- DIV (R148) -/
  | div (d : BitVec 5) (a : BitVec 5) (b : BitVec 5)
  /-- DIVN (R148) -/
  | divn (d : BitVec 5) (a : BitVec 5) (b : BitVec 5)
  /-- REM (R148) -/
  | rem (d : BitVec 5) (a : BitVec 5) (b : BitVec 5)
  /-- REMN (R148) -/
  | remn (d : BitVec 5) (a : BitVec 5) (b : BitVec 5)
  /-- CLZ (R147) -/
  | clz (d : BitVec 5) (a : BitVec 5)
  /-- CTZ (R147) -/
  | ctz (d : BitVec 5) (a : BitVec 5)
  /-- POPC (R147) -/
  | popc (d : BitVec 5) (a : BitVec 5)
  /-- SXB (R147) -/
  | sxb (d : BitVec 5) (a : BitVec 5)
  /-- SXH (R147) -/
  | sxh (d : BitVec 5) (a : BitVec 5)
  /-- SXW (R147) -/
  | sxw (d : BitVec 5) (a : BitVec 5)
  /-- QRD (R149) -/
  | qrd (d : BitVec 5) (a : BitVec 3)
  /-- WWR (R149) -/
  | wwr (d : BitVec 3) (b : BitVec 5)
  /-- WCLR (R149) -/
  | wclr
  /-- ADDI (R150) -/
  | addi (d : BitVec 5) (a : BitVec 5) (i : BitVec 16)
  /-- ANDI (R150) -/
  | andi (d : BitVec 5) (a : BitVec 5) (i : BitVec 16)
  /-- ORI (R150) -/
  | ori (d : BitVec 5) (a : BitVec 5) (i : BitVec 16)
  /-- XORI (R150) -/
  | xori (d : BitVec 5) (a : BitVec 5) (i : BitVec 16)
  /-- SLTI (R150) -/
  | slti (d : BitVec 5) (a : BitVec 5) (i : BitVec 16)
  /-- SLTNI (R150) -/
  | sltni (d : BitVec 5) (a : BitVec 5) (i : BitVec 16)
  /-- MULI (R150) -/
  | muli (d : BitVec 5) (a : BitVec 5) (i : BitVec 16)
  /-- MOVI (R150) -/
  | movi (d : BitVec 5) (i : BitVec 16)
  /-- MOVH (R150) -/
  | movh (d : BitVec 5) (a : BitVec 5) (i : BitVec 16)
  /-- ADDPI (R150) -/
  | addpi (d : BitVec 5) (a : BitVec 5) (i : BitVec 16)
  /-- SLLI (R151) -/
  | slli (d : BitVec 5) (a : BitVec 5) (s : BitVec 6)
  /-- SRLI (R151) -/
  | srli (d : BitVec 5) (a : BitVec 5) (s : BitVec 6)
  /-- SRAI (R151) -/
  | srai (d : BitVec 5) (a : BitVec 5) (s : BitVec 6)
  /-- RORI (R151) -/
  | rori (d : BitVec 5) (a : BitVec 5) (s : BitVec 6)
  /-- ADDP (R50) -/
  | addp (d : BitVec 5) (a : BitVec 5) (b : BitVec 5)
  /-- SUBP (R50) -/
  | subp (d : BitVec 5) (a : BitVec 5) (b : BitVec 5)
  /-- TAGGET (R50) -/
  | tagget (d : BitVec 5) (a : BitVec 5)
  /-- TAGSET (R50) -/
  | tagset (d : BitVec 5) (a : BitVec 5) (b : BitVec 5)
  /-- PCLR (R50) -/
  | pclr (d : BitVec 5) (a : BitVec 5)
  /-- LD.B (R186) -/
  | ldB (t : BitVec 5) (b : BitVec 5) (s : BitVec 3) (o : BitVec 13)
  /-- LD.BN (R186) -/
  | ldBn (t : BitVec 5) (b : BitVec 5) (s : BitVec 3) (o : BitVec 13)
  /-- LD.H (R186) -/
  | ldH (t : BitVec 5) (b : BitVec 5) (s : BitVec 3) (o : BitVec 13)
  /-- LD.HN (R186) -/
  | ldHn (t : BitVec 5) (b : BitVec 5) (s : BitVec 3) (o : BitVec 13)
  /-- LD.W (R186) -/
  | ldW (t : BitVec 5) (b : BitVec 5) (s : BitVec 3) (o : BitVec 13)
  /-- LD.WN (R186) -/
  | ldWn (t : BitVec 5) (b : BitVec 5) (s : BitVec 3) (o : BitVec 13)
  /-- LD.D (R186) -/
  | ldD (t : BitVec 5) (b : BitVec 5) (s : BitVec 3) (o : BitVec 13)
  /-- ST.B (R186) -/
  | stB (t : BitVec 5) (b : BitVec 5) (s : BitVec 3) (o : BitVec 13)
  /-- ST.H (R186) -/
  | stH (t : BitVec 5) (b : BitVec 5) (s : BitVec 3) (o : BitVec 13)
  /-- ST.W (R186) -/
  | stW (t : BitVec 5) (b : BitVec 5) (s : BitVec 3) (o : BitVec 13)
  /-- ST.D (R186) -/
  | stD (t : BitVec 5) (b : BitVec 5) (s : BitVec 3) (o : BitVec 13)
  /-- VLD (R186) -/
  | vld (t : BitVec 5) (b : BitVec 5) (s : BitVec 3) (o : BitVec 13)
  /-- VST (R186) -/
  | vst (t : BitVec 5) (b : BitVec 5) (s : BitVec 3) (o : BitVec 13)
  /-- LD.ACQ (R226) -/
  | ldAcq (d : BitVec 5) (a : BitVec 5) (s : BitVec 2) (n : BitVec 1) (z : BitVec 2)
  /-- ST.REL (R226) -/
  | stRel (a : BitVec 5) (b : BitVec 5) (s : BitVec 2) (z : BitVec 2)
  /-- VLDF (R189) -/
  | vldf (v : BitVec 5) (a : BitVec 5) (m : BitVec 3)
  /-- VSTF (R189) -/
  | vstf (v : BitVec 5) (a : BitVec 5) (m : BitVec 3)
  /-- PREF (R190) -/
  | pref (a : BitVec 5) (l : BitVec 2)
  /-- PREF.RES.PIN (R190) -/
  | prefResPin (a : BitVec 5) (b : BitVec 5) (l : BitVec 2)
  /-- PREF.RES.UNPIN (R190) -/
  | prefResUnpin (a : BitVec 5) (b : BitVec 5) (l : BitVec 2)
  /-- FENCE (R226) -/
  | fence (s : BitVec 2) (k : BitVec 4)
  /-- L1INV (R192) -/
  | l1inv (a : BitVec 5) (b : BitVec 5)
  /-- L1WB (R192) -/
  | l1wb (a : BitVec 5) (b : BitVec 5)
  /-- ATOM.ADD (R229) -/
  | atomAdd (d : BitVec 5) (a : BitVec 5) (b : BitVec 5) (z : BitVec 2) (r : BitVec 1)
  /-- ATOM.AND (R229) -/
  | atomAnd (d : BitVec 5) (a : BitVec 5) (b : BitVec 5) (z : BitVec 2) (r : BitVec 1)
  /-- ATOM.OR (R229) -/
  | atomOr (d : BitVec 5) (a : BitVec 5) (b : BitVec 5) (z : BitVec 2) (r : BitVec 1)
  /-- ATOM.XOR (R229) -/
  | atomXor (d : BitVec 5) (a : BitVec 5) (b : BitVec 5) (z : BitVec 2) (r : BitVec 1)
  /-- ATOM.SWAP (R229) -/
  | atomSwap (d : BitVec 5) (a : BitVec 5) (b : BitVec 5) (z : BitVec 2) (r : BitVec 1)
  /-- ATOM.CAS (R229) -/
  | atomCas (d : BitVec 5) (a : BitVec 5) (b : BitVec 5) (z : BitVec 2)
  /-- ATOM.MIN (R229) -/
  | atomMin (d : BitVec 5) (a : BitVec 5) (b : BitVec 5) (z : BitVec 2) (r : BitVec 1)
  /-- ATOM.MAX (R229) -/
  | atomMax (d : BitVec 5) (a : BitVec 5) (b : BitVec 5) (z : BitVec 2) (r : BitVec 1)
  /-- ATOM.MINN (R229) -/
  | atomMinn (d : BitVec 5) (a : BitVec 5) (b : BitVec 5) (z : BitVec 2) (r : BitVec 1)
  /-- ATOM.MAXN (R229) -/
  | atomMaxn (d : BitVec 5) (a : BitVec 5) (b : BitVec 5) (z : BitVec 2) (r : BitVec 1)
  /-- ATOM.FADD (R230) -/
  | atomFadd (d : BitVec 5) (a : BitVec 5) (b : BitVec 5) (z : BitVec 2) (r : BitVec 1)
  /-- BR.EQ (R154) -/
  | brEq (a : BitVec 5) (b : BitVec 5) (d : BitVec 13)
  /-- BR.NE (R154) -/
  | brNe (a : BitVec 5) (b : BitVec 5) (d : BitVec 13)
  /-- BR.LT (R154) -/
  | brLt (a : BitVec 5) (b : BitVec 5) (d : BitVec 13)
  /-- BR.GE (R154) -/
  | brGe (a : BitVec 5) (b : BitVec 5) (d : BitVec 13)
  /-- BR.LTN (R154) -/
  | brLtn (a : BitVec 5) (b : BitVec 5) (d : BitVec 13)
  /-- BR.GEN (R154) -/
  | brGen (a : BitVec 5) (b : BitVec 5) (d : BitVec 13)
  /-- J (R154) -/
  | j (d : BitVec 26)
  /-- JL (R154) -/
  | jl (d : BitVec 26)
  /-- JR (R154) -/
  | jr (a : BitVec 5)
  /-- JLR (R154) -/
  | jlr (d : BitVec 5) (a : BitVec 5)
  /-- RPT (R41) -/
  | rpt (n : BitVec 4) (c : BitVec 8) (d : BitVec 3) (a : BitVec 3) (b : BitVec 3)
  /-- WAITC (R193) -/
  | waitc (l : BitVec 6) (s : BitVec 6) (c : BitVec 6) (t : BitVec 6)
  /-- SEND (R101) -/
  | send
  /-- SEND.C (R101) -/
  | sendC
  /-- START (R102) -/
  | start (a : BitVec 5) (b : BitVec 5)
  /-- SPAWN (R103) -/
  | spawn (a : BitVec 5) (b : BitVec 5)
  /-- END (R104) -/
  | endAct
  /-- YIELD (R104) -/
  | yield
  /-- MIGR (R105) -/
  | migr (a : BitVec 5)
  /-- ALIGN (R107) -/
  | align
  /-- CHEN (R108) -/
  | chen (a : BitVec 5)
  /-- CHDIS (R108) -/
  | chdis (a : BitVec 5)
  /-- CHPRI (R108) -/
  | chpri (a : BitVec 5) (b : BitVec 5)
  /-- RALLOC (R109) -/
  | ralloc (d : BitVec 5) (a : BitVec 5) (b : BitVec 5)
  /-- RFREE (R110) -/
  | rfree (a : BitVec 5)
  /-- TKILL (R352) -/
  | tkill (a : BitVec 5)
  /-- SYSRD (R144) -/
  | sysrd (d : BitVec 5) (s : BitVec 12)
  /-- SYSWR (R144) -/
  | syswr (a : BitVec 5) (s : BitVec 12)
  /-- TRAP (R350) -/
  | trap (c : BitVec 12)
  /-- IRQ (R390) -/
  | irq (a : BitVec 5)
  /-- VADD (R160) -/
  | vadd (d : BitVec 5) (a : BitVec 5) (b : BitVec 5) (m : BitVec 3) (t : BitVec 3)
  /-- VSUB (R160) -/
  | vsub (d : BitVec 5) (a : BitVec 5) (b : BitVec 5) (m : BitVec 3) (t : BitVec 3)
  /-- VMUL (R160) -/
  | vmul (d : BitVec 5) (a : BitVec 5) (b : BitVec 5) (m : BitVec 3) (t : BitVec 3)
  /-- VMIN (R160) -/
  | vmin (d : BitVec 5) (a : BitVec 5) (b : BitVec 5) (m : BitVec 3) (t : BitVec 3)
  /-- VMAX (R160) -/
  | vmax (d : BitVec 5) (a : BitVec 5) (b : BitVec 5) (m : BitVec 3) (t : BitVec 3)
  /-- VABS (R160) -/
  | vabs (d : BitVec 5) (a : BitVec 5) (m : BitVec 3) (t : BitVec 3)
  /-- VNEG (R160) -/
  | vneg (d : BitVec 5) (a : BitVec 5) (m : BitVec 3) (t : BitVec 3)
  /-- VDIV (R160) -/
  | vdiv (d : BitVec 5) (a : BitVec 5) (b : BitVec 5) (m : BitVec 3) (t : BitVec 3)
  /-- VSQRT (R160) -/
  | vsqrt (d : BitVec 5) (a : BitVec 5) (m : BitVec 3) (t : BitVec 3)
  /-- VMINN (R160) -/
  | vminn (d : BitVec 5) (a : BitVec 5) (b : BitVec 5) (m : BitVec 3) (t : BitVec 3)
  /-- VMAXN (R160) -/
  | vmaxn (d : BitVec 5) (a : BitVec 5) (b : BitVec 5) (m : BitVec 3) (t : BitVec 3)
  /-- VADDS (R160) -/
  | vadds (d : BitVec 5) (a : BitVec 5) (b : BitVec 5) (m : BitVec 3) (t : BitVec 3)
  /-- VSUBS (R160) -/
  | vsubs (d : BitVec 5) (a : BitVec 5) (b : BitVec 5) (m : BitVec 3) (t : BitVec 3)
  /-- VADDSN (R160) -/
  | vaddsn (d : BitVec 5) (a : BitVec 5) (b : BitVec 5) (m : BitVec 3) (t : BitVec 3)
  /-- VSUBSN (R160) -/
  | vsubsn (d : BitVec 5) (a : BitVec 5) (b : BitVec 5) (m : BitVec 3) (t : BitVec 3)
  /-- VAND (R160) -/
  | vand (d : BitVec 5) (a : BitVec 5) (b : BitVec 5) (m : BitVec 3) (t : BitVec 3)
  /-- VOR (R160) -/
  | vor (d : BitVec 5) (a : BitVec 5) (b : BitVec 5) (m : BitVec 3) (t : BitVec 3)
  /-- VXOR (R160) -/
  | vxor (d : BitVec 5) (a : BitVec 5) (b : BitVec 5) (m : BitVec 3) (t : BitVec 3)
  /-- VSLL (R160) -/
  | vsll (d : BitVec 5) (a : BitVec 5) (b : BitVec 5) (m : BitVec 3) (t : BitVec 3)
  /-- VSRL (R160) -/
  | vsrl (d : BitVec 5) (a : BitVec 5) (b : BitVec 5) (m : BitVec 3) (t : BitVec 3)
  /-- VSRA (R160) -/
  | vsra (d : BitVec 5) (a : BitVec 5) (b : BitVec 5) (m : BitVec 3) (t : BitVec 3)
  /-- VMOV (R160) -/
  | vmov (d : BitVec 5) (a : BitVec 5) (m : BitVec 3) (t : BitVec 3)
  /-- VSPLAT (R160) -/
  | vsplat (d : BitVec 5) (a : BitVec 5) (m : BitVec 3) (t : BitVec 3)
  /-- VFMA (R161) -/
  | vfma (d : BitVec 5) (a : BitVec 5) (b : BitVec 5) (m : BitVec 3) (t : BitVec 3)
  /-- VFMS (R161) -/
  | vfms (d : BitVec 5) (a : BitVec 5) (b : BitVec 5) (m : BitVec 3) (t : BitVec 3)
  /-- VFNMA (R161) -/
  | vfnma (d : BitVec 5) (a : BitVec 5) (b : BitVec 5) (m : BitVec 3) (t : BitVec 3)
  /-- VFNMS (R161) -/
  | vfnms (d : BitVec 5) (a : BitVec 5) (b : BitVec 5) (m : BitVec 3) (t : BitVec 3)
  /-- VMAC (R161) -/
  | vmac (d : BitVec 5) (a : BitVec 5) (b : BitVec 5) (m : BitVec 3) (t : BitVec 3)
  /-- VCEQ (R162) -/
  | vceq (d : BitVec 3) (a : BitVec 5) (b : BitVec 5) (m : BitVec 3) (t : BitVec 3)
  /-- VCNE (R162) -/
  | vcne (d : BitVec 3) (a : BitVec 5) (b : BitVec 5) (m : BitVec 3) (t : BitVec 3)
  /-- VCLT (R162) -/
  | vclt (d : BitVec 3) (a : BitVec 5) (b : BitVec 5) (m : BitVec 3) (t : BitVec 3)
  /-- VCLE (R162) -/
  | vcle (d : BitVec 3) (a : BitVec 5) (b : BitVec 5) (m : BitVec 3) (t : BitVec 3)
  /-- VCLTN (R162) -/
  | vcltn (d : BitVec 3) (a : BitVec 5) (b : BitVec 5) (m : BitVec 3) (t : BitVec 3)
  /-- VCLEN (R162) -/
  | vclen (d : BitVec 3) (a : BitVec 5) (b : BitVec 5) (m : BitVec 3) (t : BitVec 3)
  /-- VCUN (R162) -/
  | vcun (d : BitVec 3) (a : BitVec 5) (b : BitVec 5) (m : BitVec 3) (t : BitVec 3)
  /-- VSEL (R162) -/
  | vsel (d : BitVec 5) (a : BitVec 5) (b : BitVec 5) (m : BitVec 3) (t : BitVec 3)
  /-- MAND (R162) -/
  | mand (d : BitVec 3) (a : BitVec 3) (b : BitVec 3)
  /-- MOR (R162) -/
  | mor (d : BitVec 3) (a : BitVec 3) (b : BitVec 3)
  /-- MXOR (R162) -/
  | mxor (d : BitVec 3) (a : BitVec 3) (b : BitVec 3)
  /-- MANDN (R162) -/
  | mandn (d : BitVec 3) (a : BitVec 3) (b : BitVec 3)
  /-- MNOT (R162) -/
  | mnot (d : BitVec 3) (a : BitVec 3)
  /-- MSET (R162) -/
  | mset (d : BitVec 3) (a : BitVec 5)
  /-- MGET (R162) -/
  | mget (d : BitVec 5) (a : BitVec 3)
  /-- MPOPC (R162) -/
  | mpopc (d : BitVec 5) (a : BitVec 3)
  /-- VPERM (R163) -/
  | vperm (d : BitVec 5) (a : BitVec 5) (b : BitVec 5) (m : BitVec 3) (t : BitVec 3)
  /-- VZIP (R163) -/
  | vzip (d : BitVec 5) (a : BitVec 5) (b : BitVec 5) (m : BitVec 3) (t : BitVec 3)
  /-- VUNZIP (R163) -/
  | vunzip (d : BitVec 5) (a : BitVec 5) (b : BitVec 5) (m : BitVec 3) (t : BitVec 3)
  /-- VROTL (R163) -/
  | vrotl (d : BitVec 5) (a : BitVec 5) (b : BitVec 5) (m : BitVec 3) (t : BitVec 3)
  /-- VEXT (R163) -/
  | vext (d : BitVec 5) (a : BitVec 5) (b : BitVec 5) (t : BitVec 3)
  /-- VINS (R163) -/
  | vins (d : BitVec 5) (a : BitVec 5) (b : BitVec 5) (t : BitVec 3)
  /-- VRSUM (R164) -/
  | vrsum (d : BitVec 5) (a : BitVec 5) (m : BitVec 3) (t : BitVec 3)
  /-- VRMIN (R164) -/
  | vrmin (d : BitVec 5) (a : BitVec 5) (m : BitVec 3) (t : BitVec 3)
  /-- VRMAX (R164) -/
  | vrmax (d : BitVec 5) (a : BitVec 5) (m : BitVec 3) (t : BitVec 3)
  /-- VRAND (R164) -/
  | vrand (d : BitVec 5) (a : BitVec 5) (m : BitVec 3) (t : BitVec 3)
  /-- VROR (R164) -/
  | vror (d : BitVec 5) (a : BitVec 5) (m : BitVec 3) (t : BitVec 3)
  /-- VRXOR (R164) -/
  | vrxor (d : BitVec 5) (a : BitVec 5) (m : BitVec 3) (t : BitVec 3)
  /-- VCVT (R165) -/
  | vcvt (d : BitVec 5) (a : BitVec 5) (s : BitVec 3) (m : BitVec 3) (t : BitVec 3) (r : BitVec 3)
  /-- VCVTS (R165) -/
  | vcvts (d : BitVec 5) (a : BitVec 5) (s : BitVec 3) (m : BitVec 3) (t : BitVec 3) (r : BitVec 3)
  /-- VQNT (R166) -/
  | vqnt (d : BitVec 5) (a : BitVec 5) (x : BitVec 4) (m : BitVec 3) (t : BitVec 3) (r : BitVec 3)
  /-- VDQNT (R166) -/
  | vdqnt (d : BitVec 5) (a : BitVec 5) (x : BitVec 4) (m : BitVec 3) (t : BitVec 3) (r : BitVec 3)
  /-- VDOT (R167) -/
  | vdot (d : BitVec 5) (a : BitVec 5) (b : BitVec 5) (m : BitVec 3) (t : BitVec 3)
  /-- VDOT.SP (R168) -/
  | vdotSp (d : BitVec 5) (a : BitVec 5) (b : BitVec 5) (m : BitVec 3) (t : BitVec 3)
  /-- FADD (R156) -/
  | fadd (d : BitVec 5) (a : BitVec 5) (b : BitVec 5) (t : BitVec 3) (r : BitVec 3)
  /-- FSUB (R156) -/
  | fsub (d : BitVec 5) (a : BitVec 5) (b : BitVec 5) (t : BitVec 3) (r : BitVec 3)
  /-- FMUL (R156) -/
  | fmul (d : BitVec 5) (a : BitVec 5) (b : BitVec 5) (t : BitVec 3) (r : BitVec 3)
  /-- FDIV (R156) -/
  | fdiv (d : BitVec 5) (a : BitVec 5) (b : BitVec 5) (t : BitVec 3) (r : BitVec 3)
  /-- FSQRT (R156) -/
  | fsqrt (d : BitVec 5) (a : BitVec 5) (t : BitVec 3) (r : BitVec 3)
  /-- FMA (R156) -/
  | fma (d : BitVec 5) (a : BitVec 5) (b : BitVec 5) (t : BitVec 3) (r : BitVec 3)
  /-- FMIN (R157) -/
  | fmin (d : BitVec 5) (a : BitVec 5) (b : BitVec 5) (t : BitVec 3)
  /-- FMAX (R157) -/
  | fmax (d : BitVec 5) (a : BitVec 5) (b : BitVec 5) (t : BitVec 3)
  /-- FCEQ (R157) -/
  | fceq (d : BitVec 5) (a : BitVec 5) (b : BitVec 5) (t : BitVec 3)
  /-- FCLT (R157) -/
  | fclt (d : BitVec 5) (a : BitVec 5) (b : BitVec 5) (t : BitVec 3)
  /-- FCLE (R157) -/
  | fcle (d : BitVec 5) (a : BitVec 5) (b : BitVec 5) (t : BitVec 3)
  /-- FABS (R157) -/
  | fabs (d : BitVec 5) (a : BitVec 5) (t : BitVec 3)
  /-- FNEG (R157) -/
  | fneg (d : BitVec 5) (a : BitVec 5) (t : BitVec 3)
  /-- FCLASS (R157) -/
  | fclass (d : BitVec 5) (a : BitVec 5) (t : BitVec 3)
  /-- FTOI (R158) -/
  | ftoi (d : BitVec 5) (a : BitVec 5) (t : BitVec 3) (r : BitVec 3)
  /-- FTON (R158) -/
  | fton (d : BitVec 5) (a : BitVec 5) (t : BitVec 3) (r : BitVec 3)
  /-- ITOF (R158) -/
  | itof (d : BitVec 5) (a : BitVec 5) (t : BitVec 3) (r : BitVec 3)
  /-- NTOF (R158) -/
  | ntof (d : BitVec 5) (a : BitVec 5) (t : BitVec 3) (r : BitVec 3)
  /-- FCVT (R158) -/
  | fcvt (d : BitVec 5) (a : BitVec 5) (s : BitVec 3) (t : BitVec 3) (r : BitVec 3)
  /-- DTWR (R137) -/
  | dtwr (a : BitVec 5) (b : BitVec 5)
  /-- DTRD (R137) -/
  | dtrd (d : BitVec 5) (a : BitVec 5)
  /-- FTWR (R138) -/
  | ftwr (a : BitVec 5) (b : BitVec 5)
  /-- FTRD (R138) -/
  | ftrd (a : BitVec 5) (b : BitVec 5)
  /-- DTMODE (R137) -/
  | dtmode (a : BitVec 5)
  /-- TWAIT (R253) -/
  | twait (d : BitVec 5) (a : BitVec 5)
  /-- TSTAT (R253) -/
  | tstat (d : BitVec 5) (a : BitVec 5)
  /-- TSTAT.R (R253) -/
  | tstatR (d : BitVec 5) (a : BitVec 5)
  /-- TCANCEL (R254) -/
  | tcancel (a : BitVec 5)
  /-- TFENCE (R255) -/
  | tfence (c : BitVec 4)
  /-- TRESUME (R254) -/
  | tresume (a : BitVec 5)
  /-- TREC (R254) -/
  | trec (a : BitVec 5) (b : BitVec 5)
  /-- TDET (R254) -/
  | tdet (a : BitVec 5)
  /-- CPY (R257) -/
  | cpy (d : BitVec 5) (a : BitVec 5) (b : BitVec 5) (x : BitVec 1) (p : BitVec 2) (n : BitVec 1) (k : BitVec 1)
  /-- CPY.X (R259) -/
  | cpyX (d : BitVec 5) (a : BitVec 5) (b : BitVec 5) (x : BitVec 1) (p : BitVec 2) (n : BitVec 1) (k : BitVec 1)
  /-- CPY.SP (R260) -/
  | cpySp (d : BitVec 5) (a : BitVec 5) (b : BitVec 5) (x : BitVec 1) (p : BitVec 2) (n : BitVec 1) (k : BitVec 1)
  /-- CPY.R (R261) -/
  | cpyR (d : BitVec 5) (a : BitVec 5) (b : BitVec 5) (x : BitVec 1) (p : BitVec 2) (n : BitVec 1) (k : BitVec 1)
  /-- CPY.F (R258) -/
  | cpyF (d : BitVec 5) (a : BitVec 5) (b : BitVec 5) (x : BitVec 1) (p : BitVec 2) (n : BitVec 1) (k : BitVec 1)
  /-- MMX (R300) -/
  | mmx (d : BitVec 5) (a : BitVec 5) (b : BitVec 5) (x : BitVec 1) (p : BitVec 2) (n : BitVec 1) (k : BitVec 1)
  /-- MMX.A (R300) -/
  | mmxA (d : BitVec 5) (a : BitVec 5) (b : BitVec 5) (x : BitVec 1) (p : BitVec 2) (n : BitVec 1) (k : BitVec 1)
  /-- PHLD (R292) -/
  | phld (d : BitVec 5) (a : BitVec 5) (b : BitVec 5) (x : BitVec 1) (p : BitVec 2) (n : BitVec 1) (k : BitVec 1)
  /-- PHDEC (R293) -/
  | phdec (d : BitVec 5) (a : BitVec 5) (b : BitVec 5) (x : BitVec 1) (p : BitVec 2) (n : BitVec 1) (k : BitVec 1)
  /-- PHSWP (R295) -/
  | phswp (d : BitVec 5) (a : BitVec 5) (b : BitVec 5) (x : BitVec 1) (p : BitVec 2) (n : BitVec 1) (k : BitVec 1)
  /-- PHRES (R294) -/
  | phres (d : BitVec 5) (a : BitVec 5) (b : BitVec 5) (x : BitVec 1) (p : BitVec 2) (n : BitVec 1) (k : BitVec 1)
  /-- PHDROP (R296) -/
  | phdrop (d : BitVec 5) (a : BitVec 5) (b : BitVec 5) (x : BitVec 1) (p : BitVec 2) (n : BitVec 1) (k : BitVec 1)
  /-- TCOPY (R287) -/
  | tcopy (d : BitVec 5) (a : BitVec 5) (b : BitVec 5) (x : BitVec 1) (p : BitVec 2) (n : BitVec 1) (k : BitVec 1)
  /-- TCOPY.BP (R289) -/
  | tcopyBp (d : BitVec 5) (a : BitVec 5) (b : BitVec 5) (x : BitVec 1) (p : BitVec 2) (n : BitVec 1) (k : BitVec 1)
  /-- TCOPY.ACC (R290) -/
  | tcopyAcc (d : BitVec 5) (a : BitVec 5) (b : BitVec 5) (x : BitVec 1) (p : BitVec 2) (n : BitVec 1) (k : BitVec 1)
  /-- BINIT (R321) -/
  | binit (a : BitVec 5) (b : BitVec 5)
  /-- BARR (R321) -/
  | barr (a : BitVec 5) (b : BitVec 5)
  /-- BWAIT (R321) -/
  | bwait (d : BitVec 5) (a : BitVec 5)
  /-- BNOTE (R321) -/
  | bnote (a : BitVec 5) (b : BitVec 5)
  /-- BWDRAW (R321) -/
  | bwdraw (a : BitVec 5)
  /-- BSTAT (R312) -/
  | bstat (d : BitVec 5) (a : BitVec 5)
  /-- BBYTES (R321) -/
  | bbytes (a : BitVec 5) (b : BitVec 5)
  /-- BLINK (R321) -/
  | blink (a : BitVec 5) (b : BitVec 5)
  /-- BBIND (R321) -/
  | bbind (a : BitVec 5) (b : BitVec 5)
  /-- GJOIN (R325) -/
  | gjoin (d : BitVec 5) (a : BitVec 5) (b : BitVec 5) (x : BitVec 1) (p : BitVec 2) (n : BitVec 1) (k : BitVec 1)
  /-- GLEAVE (R325) -/
  | gleave (d : BitVec 5) (a : BitVec 5) (b : BitVec 5) (x : BitVec 1) (p : BitVec 2) (n : BitVec 1) (k : BitVec 1)
  /-- CRED (R324) -/
  | cred (d : BitVec 5) (a : BitVec 5) (b : BitVec 5) (x : BitVec 1) (p : BitVec 2) (n : BitVec 1) (k : BitVec 1)
  /-- CBCAST (R324) -/
  | cbcast (d : BitVec 5) (a : BitVec 5) (b : BitVec 5) (x : BitVec 1) (p : BitVec 2) (n : BitVec 1) (k : BitVec 1)
  /-- CGATH (R324) -/
  | cgath (d : BitVec 5) (a : BitVec 5) (b : BitVec 5) (x : BitVec 1) (p : BitVec 2) (n : BitVec 1) (k : BitVec 1)
  /-- CRSCAT (R324) -/
  | crscat (d : BitVec 5) (a : BitVec 5) (b : BitVec 5) (x : BitVec 1) (p : BitVec 2) (n : BitVec 1) (k : BitVec 1)
  /-- CA2A (R324) -/
  | ca2a (d : BitVec 5) (a : BitVec 5) (b : BitVec 5) (x : BitVec 1) (p : BitVec 2) (n : BitVec 1) (k : BitVec 1)
  /-- SEMADD (R386) -/
  | semadd (a : BitVec 5) (b : BitVec 5)
  /-- SEMSET (R386) -/
  | semset (a : BitVec 5) (b : BitVec 5)
  /-- SEMRD (R386) -/
  | semrd (d : BitVec 5) (a : BitVec 5)
  /-- SEMWAIT (R386) -/
  | semwait (a : BitVec 5) (b : BitVec 5)
  /-- SEMWAIT.N (R387) -/
  | semwaitN (a : BitVec 5) (b : BitVec 5) (c : BitVec 6)
  /-- CIRC (R338) -/
  | circ (d : BitVec 5) (a : BitVec 5) (b : BitVec 5) (x : BitVec 1) (p : BitVec 2) (n : BitVec 1) (k : BitVec 1)
  /-- CIRC.T (R338) -/
  | circT (d : BitVec 5) (a : BitVec 5) (b : BitVec 5) (x : BitVec 1) (p : BitVec 2) (n : BitVec 1) (k : BitVec 1)
  /-- FAMWR (R339) -/
  | famwr (d : BitVec 5) (a : BitVec 5) (b : BitVec 5) (x : BitVec 1) (p : BitVec 2) (n : BitVec 1) (k : BitVec 1)
  /-- PGATE (R340) -/
  | pgate (d : BitVec 5) (a : BitVec 5) (b : BitVec 5) (x : BitVec 1) (p : BitVec 2) (n : BitVec 1) (k : BitVec 1)
  /-- PWAKE (R340) -/
  | pwake (d : BitVec 5) (a : BitVec 5) (b : BitVec 5) (x : BitVec 1) (p : BitVec 2) (n : BitVec 1) (k : BitVec 1)
  /-- EXT (R34) -/
  | ext (i : BitVec 26)
  /-- LATE_STORE_FAULT (R347): A store fault arriving during a trap drain produces a further LATE record and NOTIFY. -/
  | lateStoreFault (key id : Nat)
  /-- DEFERRED_FAULT (R187): A fault report found after issue reaches the context, which traps at the next boundary. -/
  | deferredFault (key : Nat)
  /-- BUDGET_EXPIRY (R98): BUDGETLEFT reaches zero and the activation traps BUDGET, clearing its channel's ENABLE. -/
  | budgetExpiry (key : Nat)
  /-- WAITTIME_EXPIRY (R356): A blocking wait exceeds WAITLIMIT and traps WAITTIME. -/
  | waittimeExpiry (key : Nat)
  /-- MESSAGE_ARRIVAL (R93): An arriving slot-taking message is filed in its channel queue, taking an inbox slot. -/
  | messageArrival (id : Nat)
  /-- CHANNEL_SELECTION (R96): The core selects a runnable channel and loads its oldest message into a free general context. -/
  | channelSelection (core : Nat)
  /-- SPILL_ACTIVATION (R97): Context 7 runs the Collie entry for the earliest queued message of a spilled channel. -/
  | spillActivation (core : Nat)
  /-- REPLAY_ACTIVATION (R97): With occupancy at 192 or fewer and a SPILL set, context 7 runs a replay activation. -/
  | replayActivation (core : Nat)
  /-- ATOMIC_HANDLER_ACTIVATION (R232): Context 6 runs a job handler for an ATOMIC message on a channel with ATOMH 1. -/
  | atomicHandlerActivation (core : Nat)
  /-- LOAD_REPLY (R180): A load's data arrives, writes its destination register and lowers LD. -/
  | loadReply (key id : Nat)
  /-- STORE_ACK (R177): A store or counted operation is performed or acknowledged and ST is lowered. -/
  | storeAck (key id : Nat)
  /-- FORWARDING_ENTRY_EXPIRY (R106): A forwarding entry expires 4,096 cycles after claim, sending a note of replies still owed. -/
  | forwardingEntryExpiry (core n : Nat)
  /-- ALIGN_RELEASE (R107): An ALIGN wait ends when no lagging context remains or 256 cycles pass. -/
  | alignRelease (key : Nat)
  /-- CHANNEL_CONTROL_PACKET (R108): A CHEN, CHDIS or CHPRI control packet takes effect at the named core. -/
  | channelControlPacket (id : Nat)
  /-- REMOTE_LOAD (R186): An RLOAD packet reads the owner's scratchpad after region checks and replies. -/
  | remoteLoad (id : Nat)
  /-- REMOTE_STORE (R186): An RSTORE packet writes the owner's scratchpad after region checks and acknowledges. -/
  | remoteStore (id : Nat)
  /-- STORE_BUFFER_DRAIN (R184): A store-buffer entry is sent to L2 no later than 4,096 cycles after its first store. -/
  | storeBufferDrain (core n : Nat)
  /-- L2_STORE_ACCEPT (R203): An L2 slice accepts a store into a line the package may write. -/
  | l2StoreAccept (id : Nat)
  /-- TRANSLATION_WALK (R198): A translation-cache miss walks the three-level tables, ending in a leaf or a fault. -/
  | translationWalk (cluster : Nat) (asid : BitVec 16) (va : BitVec 52)
  /-- REGION_RECLAIM (R174): A reclaimed region is zeroed bank by bank after scoreboard overlaps clear and returned to the pool. -/
  | regionReclaim (core n : Nat)
  /-- BUILTIN_ATOMIC (R229): An atomic is performed indivisibly at its owner or home slice. -/
  | builtinAtomic (id : Nat)
  /-- ATOMIC_REPLY (R229): An atomic's reply or acknowledgement lowers LD or ST and carries flags. -/
  | atomicReply (key id : Nat)
  /-- COH_LOCAL_READ (R206): The home serves a local read of a line, probing remote holders as its state requires. -/
  | cohLocalRead (pa : Nat)
  /-- COH_LOCAL_WRITE (R206): The home serves a local write, invalidating remote copies. -/
  | cohLocalWrite (pa : Nat)
  /-- COH_GETS (R206): The home handles a GETS from a member. -/
  | cohGets (pa member : Nat)
  /-- COH_GETX (R206): The home handles a GETX from a member. -/
  | cohGetx (pa member : Nat)
  /-- COH_EVICTION (R206): The home handles PUTE, PUTM or PUTO from a remote copy. -/
  | cohEviction (pa member kind : Nat) (data : VWord)
  /-- COH_PROBE (R205): A member answers a probe or invalidation multicast to its group. -/
  | cohProbe (pa kind : Nat)
  /-- COH_TRANSACTION_COMPLETE (R206): With data and every answer in, a coherence transaction completes and the access is performed. -/
  | cohTransactionComplete (pa : Nat) (written : Bool) (data : VWord)
  /-- PROBE_TIMEOUT (R207): A probe unanswered for 100 µs ends the transaction with the line poisoned. -/
  | probeTimeout (pa member : Nat)
  /-- XINV (R202): A write of XINV starts invalidation of translation caches and L1 lines. -/
  | xinv (lo hi : Word)
  /-- XINV_COMPLETE (R202): BUSY clears once accesses using removed entries are performed or faulted. -/
  | xinvComplete
  /-- PAGE_MOVE (R214): A write of MOVEPTR starts a page move or refuses it. -/
  | pageMove (pa : Nat)
  /-- PAGE_MOVE_CHECK (R214): After a copy attempt the dirty filter is checked and the mapping switched or another attempt made. -/
  | pageMoveCheck
  /-- TRANSIENT_DEADLINE (R210): At DEADLINE a transient window expires and its lines are discarded from L2 and cache layer. -/
  | transientDeadline (k : Nat)
  /-- TRANSIENT_REARM (R210): Writing 1 to EXPIRED poisons every line of the window and re-arms it. -/
  | transientRearm (k : Nat)
  /-- DEADLINE_WRITE (R209): A DEADLINE write takes effect at once, clamped to 256 ms ahead. -/
  | deadlineWrite (k : Nat) (v : Word)
  /-- REMAP_ERROR (R211): An uncorrectable remap-table error switches copies or fences the rows. -/
  | remapError (tower : Nat) (both : Bool) (base extent : Nat)
  /-- REFRESH_PREEMPTION (R212): At the postponement limit the controller ends a burst, refreshes and resumes. -/
  | refreshPreemption (tower : Nat)
  /-- MEMORY_ECC_ERROR (R365): An ECC event in DRAM, SRAM or tile store is corrected or the line poisoned. -/
  | memoryEccError (source unit addr : Nat)
  /-- RAS_FOLD_EXPIRY (R366): At the end of the folding millisecond the folded corrected-event record is written. -/
  | rasFoldExpiry (source unit : Nat)
  /-- COPY_SCHEDULE (R248): A copy engine gives a free running place to the best QUEUED operation. -/
  | copySchedule (cluster : Nat)
  /-- COPY_CHUNK (R249): A chunk is translated ahead and carried out up to any fault, suspending or faulting there. -/
  | copyChunk (core slot : Nat)
  /-- COPY_BEAT (R251): A 64-byte destination beat is performed and counted against its barrier. -/
  | copyBeat (core slot n : Nat)
  /-- CANCEL_AT_ENGINE (R250): Cancellation reaches a running copy; no further beat issues. -/
  | cancelAtEngine (core slot : Nat)
  /-- OP_TERMINAL (R243): An operation becomes terminal: record written, barrier event, resources freed, NOTIFY sent. -/
  | opTerminal (core slot : Nat)
  /-- ENGINE_INBOX_ENTRY (R271): A QUEUED matrix operation enters its engine inbox when there is room. -/
  | engineInboxEntry (core slot : Nat)
  /-- LANE_DISPATCH (R271): A free engine lane takes its highest-priority earliest command. -/
  | laneDispatch (engine lane : Nat)
  /-- MIGRATION (R277): A waiting matrix command moves to the first qualifying neighbour engine. -/
  | migration (engine core slot : Nat)
  /-- MMX_COMPLETION (R300): A running MMX or MMX.A finishes its vectors and extra passes and ends DONE. -/
  | mmxCompletion (engine : Nat)
  /-- PHLD_EXECUTION (R292): PHLD reads its image and writes a resident entry. -/
  | phldExecution (engine : Nat)
  /-- PHDEC_EXECUTION (R293): PHDEC reads weights, folds divisors, decomposes each slice and writes an entry. -/
  | phdecExecution (engine : Nat)
  /-- BACK_BANK_LOAD (R268): A waiting PHLD, PHDEC or PHRES writes the back bank once BNEW clears. -/
  | backBankLoad (engine : Nat)
  /-- PHRES_EXECUTION (R294): PHRES finds the tagged entry or faults ENGBAD. -/
  | phresExecution (engine : Nat)
  /-- PHSWP_EXECUTION (R295): PHSWP exchanges front and back banks on all four decks at once. -/
  | phswpExecution (engine : Nat)
  /-- PHDROP_EXECUTION (R296): PHDROP invalidates matching entries other than the front and back. -/
  | phdropExecution (engine : Nat)
  /-- TCOPY_BP_EXECUTION (R289): TCOPY.BP quantises each vector and writes its plane lines and scale byte. -/
  | tcopyBpExecution (engine : Nat)
  /-- TCOPY_ACC_EXECUTION (R290): TCOPY.ACC converts accumulator rows into the destination. -/
  | tcopyAccExecution (engine : Nat)
  /-- TRIM_APPLY (R270): A held trim write takes effect at the engine's next command boundary. -/
  | trimApply (engine : Nat)
  /-- DECK_STATE_APPLY (R273): A firmware-set deck state takes effect at the next command boundary. -/
  | deckStateApply (engine deck : Nat)
  /-- PROBE_CALIBRATION (R403): On an idle active deck probes run through the front image and update CALMEAS. -/
  | probeCalibration (engine deck : Nat) (mebc : BitVec 4) (nprobe : BitVec 16)
  /-- MAT_SWITCH_TIMEOUT (R247): A PH or MMX still running 50 µs after a switch request is stopped FAULTED WAITTIME. -/
  | matSwitchTimeout (engine lane : Nat)
  /-- BARRIER_EVENT (R309): The owner applies an arrival, withdrawal, byte count or error event to a barrier. -/
  | barrierEvent (id : Nat)
  /-- PARENT_FLIP (R314): A HELD child barrier receives its parent's flip and flips with its values. -/
  | parentFlip (id : Nat)
  /-- GROUP_EXCHANGE_ROUND (R317): A Slalom unit receives a member's state in a dissemination round or tree step. -/
  | groupExchangeRound (group rank : Nat) (pay : Word) (err : Bool) (wdn : Nat) (far : Option (Nat × Nat × FarWord))
  /-- GROUP_WITHDRAWAL (R318): A member is removed at once and the phase is completed on the tree without it. -/
  | groupWithdrawal (group core : Nat)
  /-- COLLECTIVE_START (R324): A collective starts once every member has issued it and is QUEUED. -/
  | collectiveStart (group : Nat)
  /-- COLLECTIVE_COMPLETE (R324): A collective's destinations are written and every member ends DONE at a boundary. -/
  | collectiveComplete (group : Nat) (far : List (Nat × Nat × List Byte))
  /-- COLLECTIVE_DRAIN_TIMEOUT (R319): A collective unfinished 200 µs after a switch request withdraws its member. -/
  | collectiveDrainTimeout (group core : Nat)
  /-- PACKET_ARRIVAL (R331): A fabric packet arrives, duplicates discarded by sequence number. -/
  | packetArrival (src seq : Nat) (body : FabIn)
  /-- PACKET_ACK (R331): An acknowledgement frees a packet from its source's retry buffer. -/
  | packetAck (id : Nat) (answer : FabAns)
  /-- PACKET_RETRY (R331): A packet unacknowledged for 20 µs is sent again. -/
  | packetRetry (id : Nat)
  /-- PACKET_LIFETIME_EXPIRY (R331): A packet unacknowledged after FABLIFE ends its sender with WAITTIME and a STALL event. -/
  | packetLifetimeExpiry (id : Nat)
  /-- DEAD_TAG_EXPIRY (R353): A dead-tag entry expires FABLIFE after installation. -/
  | deadTagExpiry (n : Nat)
  /-- CIRC_EXECUTION (R338): The fabric controller starts set-up of a circuit on a port. -/
  | circExecution (core slot : Nat)
  /-- SETUP_REQUEST (R332): A far package answers a SETUP with ACK or NACK. -/
  | setupRequest (port phys farPort : Nat) (asid : BitVec 16)
  /-- SETUP_ANSWER (R332): An ACK leads to settling; a NACK to teardown and random back-off or failure. -/
  | setupAnswer (port : Nat) (ack : Bool) (far : Bool)
  /-- SETUP_BACKOFF_EXPIRY (R332): The back-off wait ends and the next set-up attempt starts. -/
  | setupBackoffExpiry (port : Nat)
  /-- CIRCUIT_TRAINED (R332): After settling and training the port goes UP or HELD by measured skew. -/
  | circuitTrained (port skew : Nat)
  /-- TEARDOWN_RECEIVED (R338): A teardown takes a circuit down at the far end with LINKDOWN. -/
  | teardownReceived (port : Nat)
  /-- CIRC_T_EXECUTION (R338): The controller tears down an UP or HELD circuit. -/
  | circTExecution (core slot : Nat)
  /-- FAMWR_EXECUTION (R339): The controller installs a map entry at once or sends a drain marker and holds injections. -/
  | famwrExecution (core slot : Nat)
  /-- DRAIN_MARKER_ACK (R339): The drain marker's acknowledgement installs the new binding and releases held packets. -/
  | drainMarkerAck (core slot : Nat)
  /-- PGATE_EXECUTION (R340): Idle ports in PMASK move to GATED. -/
  | pgateExecution (core slot : Nat)
  /-- PWAKE_EXECUTION (R340): Dark or gated ports in PMASK move to IDLE. -/
  | pwakeExecution (core slot : Nat)
  /-- LASER_LOSS (R335): A laser module becomes absent: its ports go SRCLOST and its decks OFF at once. -/
  | laserLoss (m : Nat)
  /-- LASER_RELIGHT (R404): A RELIGHT write moves a present, lit module's SRCLOST ports to GATED. -/
  | laserRelight (m : Nat)
  /-- TKILL_PURGE (R352): Each core ends the task's activations, discards its messages and cancels or fosters its operations. -/
  | tkillPurge (n core : Nat)
  /-- TKILL_COMPLETE (R352): Once every core acknowledges, DEATH notices are sent and TKILL completes. -/
  | tkillComplete (n : Nat)
  /-- JOB_SWITCH (R360): A write of SWASID starts a job switch or refuses it with a reason. -/
  | jobSwitch (v : Word)
  /-- JOB_SWITCH_COMPLETE (R358): After activations end and state is saved and restored, selection resumes and BUSY clears. -/
  | jobSwitchComplete
  /-- LAUNCH (R376): A write of LAUNCH makes firmware check, allot and start a job or refuse it. -/
  | launch (v : Word)
  /-- JOBEND (R369): A JOBEND write ends a job, cancelling its slots and reclaiming its resources. -/
  | jobend (v : Word)
  /-- ACTIVE_MESSAGE_BLOCK (R373): Each 64-byte block written to the active-message window becomes a message or is refused. -/
  | activeMessageBlock (page : Nat) (whole ep : Bool) (blocks : List (Vector Word 8))
  /-- MEMORY_WINDOW_WRITE (R371): A host posted write is performed at the home slice or dropped. -/
  | memoryWindowWrite (off : Nat) (ep : Bool) (bytes : List Byte)
  /-- MEMORY_WINDOW_READ (R371): A host read returns data, poison with EP, or Unsupported Request. -/
  | memoryWindowRead (off len : Nat)
  /-- SEM_UNIT_OP (R386): The semaphore unit applies an add, set, read or wait in arrival order. -/
  | semUnitOp (id : Nat)
  /-- SEMVAL_WRITE (R389): A host write of SEMVAL acts as SEMSET. -/
  | semvalWrite (n : Nat) (v : Word)
  /-- SEMINC_WRITE (R389): A host write of SEMINC acts as a signed SEMADD. -/
  | semincWrite (n : Nat) (v : Word)
  /-- MSIX_UNMASK (R390): Unmasking a vector with its pending bit set sends its MSI-X write. -/
  | msixUnmask (vec : Nat)
  /-- CHECKPOINT (R391): A write of CKPTPTR starts a whole-memory checkpoint or refuses it. -/
  | checkpoint (v : Word)
  /-- CHECKPOINT_COMPLETE (R392): The checkpoint ends DONE or FAULTED and writes its descriptor status. -/
  | checkpointComplete (ok : Bool)
  /-- PACKAGE_RESET (R8): Package reset sets every field to its Reset value and enters the boot ROM. -/
  | packageReset
  /-- PCIE_LINK_TRAINING (R367): The host link trains to a negotiated rate and width. -/
  | pcieLinkTraining (rate width : Nat)
  /-- MONITOR_SAMPLE (R400): Each microsecond ring MPD, ERR and deck TEMP are sampled, setting or clearing SAT. -/
  | monitorSample (deck : Nat) (temp : BitVec 16) (samples : List (Nat × BitVec 12 × List Int))
  /-- TEMP_RECORD_TIMER (R404): Every THPERIOD µs a TEMP record of each deck is written. -/
  | tempRecordTimer (deck : Nat)
  /-- RING_WRITE (R398): A RING write stores HEATER, step-limited on working rings, and TUNE. -/
  | ringWrite (deck bank ring : Nat) (v : Word)
  /-- RINGMOVE_WRITE (R399): A RINGMOVE write clears BAD and sets PENDING or BAD. -/
  | ringmoveWrite (deck bank : Nat) (v : Word)
  /-- RING_MOVE_APPLY (R399): A pending move transfers the wavelength at the next boundary and writes a MOVE record. -/
  | ringMoveApply (deck bank : Nat)
  /-- WEAR_MOVE (R401): Wear levelling tunes a spare and moves the hottest ring's wavelength to it. -/
  | wearMove (deck bank spare : Nat) (heater : BitVec 12)
  /-- DECKCTL_WRITE (R402): A DECKCTL write sets REQ, WLEN and TRIPT and clears PBERR or TRIPPED. -/
  | deckctlWrite (deck : Nat) (v : Word)
  /-- POWER_ALERT (R404): PWRNOW rising above PWRALERT writes a POWER record and NOTIFY. -/
  | powerAlert (watts : BitVec 32)
  /-- THRING_WRITE (R404): Writing THRING resets THWR and THRD to zero. -/
  | thringWrite (v : Word)
  /-- SCRUB (R407): Background scrubbing reads DRAM, SRAM and phase banks, correcting single-bit errors. -/
  | scrub (deck code : Nat) (bad : Bool)
  /-- BOOTGO (R410): A BOOTGO write makes the boot ROM verify the staged image. -/
  | bootgo (v : Word)
  /-- FIRMWARE_READY (R411): Firmware finishes initialisation and sets READY, mapping DRAM into the window. -/
  | firmwareReady
  /-- SVNBURN (R408): A write raises SVNMIN permanently when greater. -/
  | svnburn (v : Word)
  /-- ATTESTATION_GO (R412): A GO write captures nonce and ASID and starts a report, or sets ERR if busy. -/
  | attestationGo (v : Word)
  /-- ATTESTATION_DONE (R413): The signed report is placed in ATTREP and BUSY clears. -/
  | attestationDone
  /-- READ_CLEAR (R8): A read of an RC register returns its value and then clears it. -/
  | readClear (off : Nat)
  /-- REGISTER_WRITE (R8): A write to a register without a row of its own under its access code. -/
  | registerWrite (off : Nat) (ep : Bool) (v : Word)
  /-- ILLEGAL_INSTRUCTION (R72): A fetched word that the opcode tables do not assign, or that has a must-be-zero field set, traps ILLEGAL when it comes to issue. -/
  | illegalInstruction (key : Nat)
  /-- INSTRUCTION_FETCH_FAULT (R73): The fetch of the word at the PC faults XLATE, PROT or POISON, and the activation traps with WORD 0 at that address. -/
  | instructionFetchFault (key : Nat)
  /-- LASER_MODULE_RELIT (R404): An absent laser module becomes present and lit again, and its stratum's decks return to the state that REQ decides. -/
  | laserModuleRelit (m : Nat)
  deriving DecidableEq, Repr

end Sys2Proof
end

