-- ==== Sys2Proof/WellFormed.lean ====
section
/-!
DEFINITION. Which decoded words the tables of R47 to R70 assign: types, rounding, sizes, levels, scopes, masks and
system-register numbers. A word that decodes to a row but breaks its limits traps ILLEGAL (R72).
-/
namespace Sys2Proof

/-- Types 0 to 3, the floating lane types (R57, R64). -/
def tyF (t : Fld3) : Bool := t.toNat < 4
/-- Types 4 to 6, the integer lane types (R57). -/
def tyI (t : Fld3) : Bool := decide (4 ≤ t.toNat) && decide (t.toNat < 7)
/-- Types 0 to 6 (R57). -/
def tyAny (t : Fld3) : Bool := t.toNat < 7
/-- Rounding codes 0 to 5 (R62, R64). -/
def rndOk (r : Fld3) : Bool := r.toNat < 6

/-- The system-register numbers that R143 and R395 assign. -/
def sysAssigned (n : Nat) : Bool :=
  n ≤ 0x003 || (0x008 ≤ n && n ≤ 0x00B) || (0x010 ≤ n && n ≤ 0x012) || (0x018 ≤ n && n ≤ 0x01B) ||
  (0x020 ≤ n && n ≤ 0x023) || n == 0x028 || n == 0x030 || (0x400 ≤ n && n ≤ 0x47F) || (0x800 ≤ n && n ≤ 0x802) ||
  (0xC00 ≤ n && n ≤ 0xC04) || (0xC10 ≤ n && n ≤ 0xC21)

/-- The row is an instruction word; the other rows are steps without an encoding. -/
def Instr.isWord : Instr → Bool
  | .add _ _ _ => true
  | .sub _ _ _ => true
  | .and _ _ _ => true
  | .or _ _ _ => true
  | .xor _ _ _ => true
  | .andn _ _ _ => true
  | .nor _ _ _ => true
  | .xnor _ _ _ => true
  | .slt _ _ _ => true
  | .sltn _ _ _ => true
  | .min _ _ _ => true
  | .max _ _ _ => true
  | .minn _ _ _ => true
  | .maxn _ _ _ => true
  | .sll _ _ _ => true
  | .srl _ _ _ => true
  | .sra _ _ _ => true
  | .ror _ _ _ => true
  | .mul _ _ _ => true
  | .mulh _ _ _ => true
  | .mulhn _ _ _ => true
  | .div _ _ _ => true
  | .divn _ _ _ => true
  | .rem _ _ _ => true
  | .remn _ _ _ => true
  | .clz _ _ => true
  | .ctz _ _ => true
  | .popc _ _ => true
  | .sxb _ _ => true
  | .sxh _ _ => true
  | .sxw _ _ => true
  | .qrd _ _ => true
  | .wwr _ _ => true
  | .wclr => true
  | .addi _ _ _ => true
  | .andi _ _ _ => true
  | .ori _ _ _ => true
  | .xori _ _ _ => true
  | .slti _ _ _ => true
  | .sltni _ _ _ => true
  | .muli _ _ _ => true
  | .movi _ _ => true
  | .movh _ _ _ => true
  | .addpi _ _ _ => true
  | .slli _ _ _ => true
  | .srli _ _ _ => true
  | .srai _ _ _ => true
  | .rori _ _ _ => true
  | .addp _ _ _ => true
  | .subp _ _ _ => true
  | .tagget _ _ => true
  | .tagset _ _ _ => true
  | .pclr _ _ => true
  | .ldB _ _ _ _ => true
  | .ldBn _ _ _ _ => true
  | .ldH _ _ _ _ => true
  | .ldHn _ _ _ _ => true
  | .ldW _ _ _ _ => true
  | .ldWn _ _ _ _ => true
  | .ldD _ _ _ _ => true
  | .stB _ _ _ _ => true
  | .stH _ _ _ _ => true
  | .stW _ _ _ _ => true
  | .stD _ _ _ _ => true
  | .vld _ _ _ _ => true
  | .vst _ _ _ _ => true
  | .ldAcq _ _ _ _ _ => true
  | .stRel _ _ _ _ => true
  | .vldf _ _ _ => true
  | .vstf _ _ _ => true
  | .pref _ _ => true
  | .prefResPin _ _ _ => true
  | .prefResUnpin _ _ _ => true
  | .fence _ _ => true
  | .l1inv _ _ => true
  | .l1wb _ _ => true
  | .atomAdd _ _ _ _ _ => true
  | .atomAnd _ _ _ _ _ => true
  | .atomOr _ _ _ _ _ => true
  | .atomXor _ _ _ _ _ => true
  | .atomSwap _ _ _ _ _ => true
  | .atomCas _ _ _ _ => true
  | .atomMin _ _ _ _ _ => true
  | .atomMax _ _ _ _ _ => true
  | .atomMinn _ _ _ _ _ => true
  | .atomMaxn _ _ _ _ _ => true
  | .atomFadd _ _ _ _ _ => true
  | .brEq _ _ _ => true
  | .brNe _ _ _ => true
  | .brLt _ _ _ => true
  | .brGe _ _ _ => true
  | .brLtn _ _ _ => true
  | .brGen _ _ _ => true
  | .j _ => true
  | .jl _ => true
  | .jr _ => true
  | .jlr _ _ => true
  | .rpt _ _ _ _ _ => true
  | .waitc _ _ _ _ => true
  | .send => true
  | .sendC => true
  | .start _ _ => true
  | .spawn _ _ => true
  | .endAct => true
  | .yield => true
  | .migr _ => true
  | .align => true
  | .chen _ => true
  | .chdis _ => true
  | .chpri _ _ => true
  | .ralloc _ _ _ => true
  | .rfree _ => true
  | .tkill _ => true
  | .sysrd _ _ => true
  | .syswr _ _ => true
  | .trap _ => true
  | .irq _ => true
  | .vadd _ _ _ _ _ => true
  | .vsub _ _ _ _ _ => true
  | .vmul _ _ _ _ _ => true
  | .vmin _ _ _ _ _ => true
  | .vmax _ _ _ _ _ => true
  | .vabs _ _ _ _ => true
  | .vneg _ _ _ _ => true
  | .vdiv _ _ _ _ _ => true
  | .vsqrt _ _ _ _ => true
  | .vminn _ _ _ _ _ => true
  | .vmaxn _ _ _ _ _ => true
  | .vadds _ _ _ _ _ => true
  | .vsubs _ _ _ _ _ => true
  | .vaddsn _ _ _ _ _ => true
  | .vsubsn _ _ _ _ _ => true
  | .vand _ _ _ _ _ => true
  | .vor _ _ _ _ _ => true
  | .vxor _ _ _ _ _ => true
  | .vsll _ _ _ _ _ => true
  | .vsrl _ _ _ _ _ => true
  | .vsra _ _ _ _ _ => true
  | .vmov _ _ _ _ => true
  | .vsplat _ _ _ _ => true
  | .vfma _ _ _ _ _ => true
  | .vfms _ _ _ _ _ => true
  | .vfnma _ _ _ _ _ => true
  | .vfnms _ _ _ _ _ => true
  | .vmac _ _ _ _ _ => true
  | .vceq _ _ _ _ _ => true
  | .vcne _ _ _ _ _ => true
  | .vclt _ _ _ _ _ => true
  | .vcle _ _ _ _ _ => true
  | .vcltn _ _ _ _ _ => true
  | .vclen _ _ _ _ _ => true
  | .vcun _ _ _ _ _ => true
  | .vsel _ _ _ _ _ => true
  | .mand _ _ _ => true
  | .mor _ _ _ => true
  | .mxor _ _ _ => true
  | .mandn _ _ _ => true
  | .mnot _ _ => true
  | .mset _ _ => true
  | .mget _ _ => true
  | .mpopc _ _ => true
  | .vperm _ _ _ _ _ => true
  | .vzip _ _ _ _ _ => true
  | .vunzip _ _ _ _ _ => true
  | .vrotl _ _ _ _ _ => true
  | .vext _ _ _ _ => true
  | .vins _ _ _ _ => true
  | .vrsum _ _ _ _ => true
  | .vrmin _ _ _ _ => true
  | .vrmax _ _ _ _ => true
  | .vrand _ _ _ _ => true
  | .vror _ _ _ _ => true
  | .vrxor _ _ _ _ => true
  | .vcvt _ _ _ _ _ _ => true
  | .vcvts _ _ _ _ _ _ => true
  | .vqnt _ _ _ _ _ _ => true
  | .vdqnt _ _ _ _ _ _ => true
  | .vdot _ _ _ _ _ => true
  | .vdotSp _ _ _ _ _ => true
  | .fadd _ _ _ _ _ => true
  | .fsub _ _ _ _ _ => true
  | .fmul _ _ _ _ _ => true
  | .fdiv _ _ _ _ _ => true
  | .fsqrt _ _ _ _ => true
  | .fma _ _ _ _ _ => true
  | .fmin _ _ _ _ => true
  | .fmax _ _ _ _ => true
  | .fceq _ _ _ _ => true
  | .fclt _ _ _ _ => true
  | .fcle _ _ _ _ => true
  | .fabs _ _ _ => true
  | .fneg _ _ _ => true
  | .fclass _ _ _ => true
  | .ftoi _ _ _ _ => true
  | .fton _ _ _ _ => true
  | .itof _ _ _ _ => true
  | .ntof _ _ _ _ => true
  | .fcvt _ _ _ _ _ => true
  | .dtwr _ _ => true
  | .dtrd _ _ => true
  | .ftwr _ _ => true
  | .ftrd _ _ => true
  | .dtmode _ => true
  | .twait _ _ => true
  | .tstat _ _ => true
  | .tstatR _ _ => true
  | .tcancel _ => true
  | .tfence _ => true
  | .tresume _ => true
  | .trec _ _ => true
  | .tdet _ => true
  | .cpy _ _ _ _ _ _ _ => true
  | .cpyX _ _ _ _ _ _ _ => true
  | .cpySp _ _ _ _ _ _ _ => true
  | .cpyR _ _ _ _ _ _ _ => true
  | .cpyF _ _ _ _ _ _ _ => true
  | .mmx _ _ _ _ _ _ _ => true
  | .mmxA _ _ _ _ _ _ _ => true
  | .phld _ _ _ _ _ _ _ => true
  | .phdec _ _ _ _ _ _ _ => true
  | .phswp _ _ _ _ _ _ _ => true
  | .phres _ _ _ _ _ _ _ => true
  | .phdrop _ _ _ _ _ _ _ => true
  | .tcopy _ _ _ _ _ _ _ => true
  | .tcopyBp _ _ _ _ _ _ _ => true
  | .tcopyAcc _ _ _ _ _ _ _ => true
  | .binit _ _ => true
  | .barr _ _ => true
  | .bwait _ _ => true
  | .bnote _ _ => true
  | .bwdraw _ => true
  | .bstat _ _ => true
  | .bbytes _ _ => true
  | .blink _ _ => true
  | .bbind _ _ => true
  | .gjoin _ _ _ _ _ _ _ => true
  | .gleave _ _ _ _ _ _ _ => true
  | .cred _ _ _ _ _ _ _ => true
  | .cbcast _ _ _ _ _ _ _ => true
  | .cgath _ _ _ _ _ _ _ => true
  | .crscat _ _ _ _ _ _ _ => true
  | .ca2a _ _ _ _ _ _ _ => true
  | .semadd _ _ => true
  | .semset _ _ => true
  | .semrd _ _ => true
  | .semwait _ _ => true
  | .semwaitN _ _ _ => true
  | .circ _ _ _ _ _ _ _ => true
  | .circT _ _ _ _ _ _ _ => true
  | .famwr _ _ _ _ _ _ _ => true
  | .pgate _ _ _ _ _ _ _ => true
  | .pwake _ _ _ _ _ _ _ => true
  | .ext _ => true
  | .lateStoreFault _ _ => false
  | .deferredFault _ => false
  | .budgetExpiry _ => false
  | .waittimeExpiry _ => false
  | .messageArrival _ => false
  | .channelSelection _ => false
  | .spillActivation _ => false
  | .replayActivation _ => false
  | .atomicHandlerActivation _ => false
  | .loadReply _ _ => false
  | .storeAck _ _ => false
  | .forwardingEntryExpiry _ _ => false
  | .alignRelease _ => false
  | .channelControlPacket _ => false
  | .remoteLoad _ => false
  | .remoteStore _ => false
  | .storeBufferDrain _ _ => false
  | .l2StoreAccept _ => false
  | .translationWalk _ _ _ => false
  | .regionReclaim _ _ => false
  | .builtinAtomic _ => false
  | .atomicReply _ _ => false
  | .cohLocalRead _ => false
  | .cohLocalWrite _ => false
  | .cohGets _ _ => false
  | .cohGetx _ _ => false
  | .cohEviction _ _ _ _ => false
  | .cohProbe _ _ => false
  | .cohTransactionComplete _ _ _ => false
  | .probeTimeout _ _ => false
  | .xinv _ _ => false
  | .xinvComplete => false
  | .pageMove _ => false
  | .pageMoveCheck => false
  | .transientDeadline _ => false
  | .transientRearm _ => false
  | .deadlineWrite _ _ => false
  | .remapError _ _ _ _ => false
  | .refreshPreemption _ => false
  | .memoryEccError _ _ _ => false
  | .rasFoldExpiry _ _ => false
  | .copySchedule _ => false
  | .copyChunk _ _ => false
  | .copyBeat _ _ _ => false
  | .cancelAtEngine _ _ => false
  | .opTerminal _ _ => false
  | .engineInboxEntry _ _ => false
  | .laneDispatch _ _ => false
  | .migration _ _ _ => false
  | .mmxCompletion _ => false
  | .phldExecution _ => false
  | .phdecExecution _ => false
  | .backBankLoad _ => false
  | .phresExecution _ => false
  | .phswpExecution _ => false
  | .phdropExecution _ => false
  | .tcopyBpExecution _ => false
  | .tcopyAccExecution _ => false
  | .trimApply _ => false
  | .deckStateApply _ _ => false
  | .probeCalibration _ _ _ _ => false
  | .matSwitchTimeout _ _ => false
  | .barrierEvent _ => false
  | .parentFlip _ => false
  | .groupExchangeRound _ _ _ _ _ _ => false
  | .groupWithdrawal _ _ => false
  | .collectiveStart _ => false
  | .collectiveComplete _ _ => false
  | .collectiveDrainTimeout _ _ => false
  | .packetArrival _ _ _ => false
  | .packetAck _ _ => false
  | .packetRetry _ => false
  | .packetLifetimeExpiry _ => false
  | .deadTagExpiry _ => false
  | .circExecution _ _ => false
  | .setupRequest _ _ _ _ => false
  | .setupAnswer _ _ _ => false
  | .setupBackoffExpiry _ => false
  | .circuitTrained _ _ => false
  | .teardownReceived _ => false
  | .circTExecution _ _ => false
  | .famwrExecution _ _ => false
  | .drainMarkerAck _ _ => false
  | .pgateExecution _ _ => false
  | .pwakeExecution _ _ => false
  | .laserLoss _ => false
  | .laserRelight _ => false
  | .tkillPurge _ _ => false
  | .tkillComplete _ => false
  | .jobSwitch _ => false
  | .jobSwitchComplete => false
  | .launch _ => false
  | .jobend _ => false
  | .activeMessageBlock _ _ _ _ => false
  | .memoryWindowWrite _ _ _ => false
  | .memoryWindowRead _ _ => false
  | .semUnitOp _ => false
  | .semvalWrite _ _ => false
  | .semincWrite _ _ => false
  | .msixUnmask _ => false
  | .checkpoint _ => false
  | .checkpointComplete _ => false
  | .packageReset => false
  | .pcieLinkTraining _ _ => false
  | .monitorSample _ _ _ => false
  | .tempRecordTimer _ => false
  | .ringWrite _ _ _ _ => false
  | .ringmoveWrite _ _ _ => false
  | .ringMoveApply _ _ => false
  | .wearMove _ _ _ _ => false
  | .deckctlWrite _ _ => false
  | .powerAlert _ => false
  | .thringWrite _ => false
  | .scrub _ _ _ => false
  | .bootgo _ => false
  | .firmwareReady => false
  | .svnburn _ => false
  | .attestationGo _ => false
  | .attestationDone => false
  | .readClear _ => false
  | .registerWrite _ _ _ => false
  | .illegalInstruction _ => false
  | .instructionFetchFault _ => false
  | .laserModuleRelit _ => false

/-- The limits that R48 to R70 put on a word's fields. Rows without an encoding have none. -/
def Instr.wellFormed : Instr → Bool
  | .add _ _ _ => true
  | .sub _ _ _ => true
  | .and _ _ _ => true
  | .or _ _ _ => true
  | .xor _ _ _ => true
  | .andn _ _ _ => true
  | .nor _ _ _ => true
  | .xnor _ _ _ => true
  | .slt _ _ _ => true
  | .sltn _ _ _ => true
  | .min _ _ _ => true
  | .max _ _ _ => true
  | .minn _ _ _ => true
  | .maxn _ _ _ => true
  | .sll _ _ _ => true
  | .srl _ _ _ => true
  | .sra _ _ _ => true
  | .ror _ _ _ => true
  | .mul _ _ _ => true
  | .mulh _ _ _ => true
  | .mulhn _ _ _ => true
  | .div _ _ _ => true
  | .divn _ _ _ => true
  | .rem _ _ _ => true
  | .remn _ _ _ => true
  | .clz _ _ => true
  | .ctz _ _ => true
  | .popc _ _ => true
  | .sxb _ _ => true
  | .sxh _ _ => true
  | .sxw _ _ => true
  | .qrd _ _ => true
  | .wwr _ _ => true
  | .wclr => true
  | .addi _ _ _ => true
  | .andi _ _ _ => true
  | .ori _ _ _ => true
  | .xori _ _ _ => true
  | .slti _ _ _ => true
  | .sltni _ _ _ => true
  | .muli _ _ _ => true
  | .movi _ _ => true
  | .movh _ _ _ => true
  | .addpi _ _ _ => true
  | .slli _ _ _ => true
  | .srli _ _ _ => true
  | .srai _ _ _ => true
  | .rori _ _ _ => true
  | .addp _ _ _ => true
  | .subp _ _ _ => true
  | .tagget _ _ => true
  | .tagset _ _ _ => true
  | .pclr _ _ => true
  | .ldB _ _ _ _ => true
  | .ldBn _ _ _ _ => true
  | .ldH _ _ _ _ => true
  | .ldHn _ _ _ _ => true
  | .ldW _ _ _ _ => true
  | .ldWn _ _ _ _ => true
  | .ldD _ _ _ _ => true
  | .stB _ _ _ _ => true
  | .stH _ _ _ _ => true
  | .stW _ _ _ _ => true
  | .stD _ _ _ _ => true
  | .vld _ _ _ _ => true
  | .vst _ _ _ _ => true
  | .ldAcq _ _ _ n z => !(n == 1 && z == 3)
  | .stRel _ _ _ _ => true
  | .vldf _ _ _ => true
  | .vstf _ _ _ => true
  | .pref _ l => l != 3
  | .prefResPin _ _ l => l != 3
  | .prefResUnpin _ _ l => l != 3
  | .fence _ k => k != 0
  | .l1inv _ _ => true
  | .l1wb _ _ => true
  | .atomAdd d _ _ z r => (z == 0 || z == 1) && (r == 1 || d == 0)
  | .atomAnd d _ _ z r => (z == 0 || z == 1) && (r == 1 || d == 0)
  | .atomOr d _ _ z r => (z == 0 || z == 1) && (r == 1 || d == 0)
  | .atomXor d _ _ z r => (z == 0 || z == 1) && (r == 1 || d == 0)
  | .atomSwap d _ _ z r => (z == 0 || z == 1) && (r == 1 || d == 0)
  | .atomCas _ _ _ z => z == 0 || z == 1
  | .atomMin d _ _ z r => (z == 0 || z == 1) && (r == 1 || d == 0)
  | .atomMax d _ _ z r => (z == 0 || z == 1) && (r == 1 || d == 0)
  | .atomMinn d _ _ z r => (z == 0 || z == 1) && (r == 1 || d == 0)
  | .atomMaxn d _ _ z r => (z == 0 || z == 1) && (r == 1 || d == 0)
  | .atomFadd d _ _ z r => (z == 0 || z == 2) && (r == 1 || d == 0)
  | .brEq _ _ _ => true
  | .brNe _ _ _ => true
  | .brLt _ _ _ => true
  | .brGe _ _ _ => true
  | .brLtn _ _ _ => true
  | .brGen _ _ _ => true
  | .j _ => true
  | .jl _ => true
  | .jr _ => true
  | .jlr _ _ => true
  | .rpt _ _ _ _ _ => true
  | .waitc _ _ _ _ => true
  | .send => true
  | .sendC => true
  | .start _ _ => true
  | .spawn _ _ => true
  | .endAct => true
  | .yield => true
  | .migr _ => true
  | .align => true
  | .chen _ => true
  | .chdis _ => true
  | .chpri _ _ => true
  | .ralloc _ _ _ => true
  | .rfree _ => true
  | .tkill _ => true
  | .sysrd _ s => sysAssigned s.toNat
  | .syswr _ s => sysAssigned s.toNat
  | .trap _ => true
  | .irq _ => true
  | .vadd _ _ _ _ t => tyAny t
  | .vsub _ _ _ _ t => tyAny t
  | .vmul _ _ _ _ t => tyAny t
  | .vmin _ _ _ _ t => tyAny t
  | .vmax _ _ _ _ t => tyAny t
  | .vabs _ _ _ t => tyAny t
  | .vneg _ _ _ t => tyAny t
  | .vdiv _ _ _ _ t => tyF t
  | .vsqrt _ _ _ t => tyF t
  | .vminn _ _ _ _ t => tyI t
  | .vmaxn _ _ _ _ t => tyI t
  | .vadds _ _ _ _ t => tyI t
  | .vsubs _ _ _ _ t => tyI t
  | .vaddsn _ _ _ _ t => tyI t
  | .vsubsn _ _ _ _ t => tyI t
  | .vand _ _ _ _ t => tyI t
  | .vor _ _ _ _ t => tyI t
  | .vxor _ _ _ _ t => tyI t
  | .vsll _ _ _ _ t => tyI t
  | .vsrl _ _ _ _ t => tyI t
  | .vsra _ _ _ _ t => tyI t
  | .vmov _ _ _ t => tyAny t
  | .vsplat _ _ _ t => tyAny t
  | .vfma _ _ _ _ t => tyF t
  | .vfms _ _ _ _ t => tyF t
  | .vfnma _ _ _ _ t => tyF t
  | .vfnms _ _ _ _ t => tyF t
  | .vmac _ _ _ _ t => tyI t
  | .vceq _ _ _ _ t => tyAny t
  | .vcne _ _ _ _ t => tyAny t
  | .vclt _ _ _ _ t => tyAny t
  | .vcle _ _ _ _ t => tyAny t
  | .vcltn _ _ _ _ t => tyI t
  | .vclen _ _ _ _ t => tyI t
  | .vcun _ _ _ _ t => tyF t
  | .vsel _ _ _ _ t => tyAny t
  | .mand _ _ _ => true
  | .mor _ _ _ => true
  | .mxor _ _ _ => true
  | .mandn _ _ _ => true
  | .mnot _ _ => true
  | .mset _ _ => true
  | .mget _ _ => true
  | .mpopc _ _ => true
  | .vperm _ _ _ _ t => tyAny t
  | .vzip _ _ _ _ t => tyAny t
  | .vunzip _ _ _ _ t => tyAny t
  | .vrotl _ _ _ _ t => tyAny t
  | .vext _ _ _ t => tyAny t
  | .vins _ _ _ t => tyAny t
  | .vrsum _ _ _ t => tyAny t
  | .vrmin _ _ _ t => tyAny t
  | .vrmax _ _ _ t => tyAny t
  | .vrand _ _ _ t => tyI t
  | .vror _ _ _ t => tyI t
  | .vrxor _ _ _ t => tyI t
  | .vcvt _ _ s _ t r => rndOk r && s != t && (!(tyI s && tyI t) || r == 0)
  | .vcvts _ _ s _ t r => tyI t && rndOk r && s != t && (!tyI s || r == 0)
  | .vqnt _ _ x _ t r => t.toNat ≤ 2 && rndOk r && x != 0
  | .vdqnt _ _ x _ t r => tyF t && rndOk r && x != 0
  | .vdot _ _ _ _ t => t == 1 || t == 2 || t == 5 || t == 6 || t == 7
  | .vdotSp _ _ _ _ t => t == 1 || t == 2 || t == 6 || t == 7
  | .fadd _ _ _ t r => tyF t && rndOk r
  | .fsub _ _ _ t r => tyF t && rndOk r
  | .fmul _ _ _ t r => tyF t && rndOk r
  | .fdiv _ _ _ t r => tyF t && rndOk r
  | .fsqrt _ _ t r => tyF t && rndOk r
  | .fma _ _ _ t r => tyF t && rndOk r
  | .fmin _ _ _ t => tyF t
  | .fmax _ _ _ t => tyF t
  | .fceq _ _ _ t => tyF t
  | .fclt _ _ _ t => tyF t
  | .fcle _ _ _ t => tyF t
  | .fabs _ _ t => tyF t
  | .fneg _ _ t => tyF t
  | .fclass _ _ t => tyF t
  | .ftoi _ _ t r => tyF t && rndOk r
  | .fton _ _ t r => tyF t && rndOk r
  | .itof _ _ t r => tyF t && rndOk r
  | .ntof _ _ t r => tyF t && rndOk r
  | .fcvt _ _ s t r => tyF t && rndOk r && tyF s && s != t
  | .dtwr _ _ => true
  | .dtrd _ _ => true
  | .ftwr _ _ => true
  | .ftrd _ _ => true
  | .dtmode _ => true
  | .twait _ _ => true
  | .tstat _ _ => true
  | .tstatR _ _ => true
  | .tcancel _ => true
  | .tfence c => c != 0
  | .tresume _ => true
  | .trec _ _ => true
  | .tdet _ => true
  | .cpy _ _ _ _ _ _ _ => true
  | .cpyX _ _ _ _ _ _ _ => true
  | .cpySp _ _ _ _ _ _ _ => true
  | .cpyR _ _ _ _ _ _ _ => true
  | .cpyF _ _ _ _ _ _ _ => true
  | .mmx _ _ _ _ _ _ _ => true
  | .mmxA _ _ _ _ _ _ _ => true
  | .phld _ _ _ _ _ _ _ => true
  | .phdec _ _ _ _ _ _ _ => true
  | .phswp _ _ _ _ _ _ _ => true
  | .phres _ _ _ _ _ _ _ => true
  | .phdrop _ _ _ _ _ _ _ => true
  | .tcopy _ _ _ _ _ _ _ => true
  | .tcopyBp _ _ _ _ _ _ _ => true
  | .tcopyAcc _ _ _ _ _ _ _ => true
  | .binit _ _ => true
  | .barr _ _ => true
  | .bwait _ _ => true
  | .bnote _ _ => true
  | .bwdraw _ => true
  | .bstat _ _ => true
  | .bbytes _ _ => true
  | .blink _ _ => true
  | .bbind _ _ => true
  | .gjoin _ _ _ _ _ _ _ => true
  | .gleave _ _ _ _ _ _ _ => true
  | .cred _ _ _ _ _ _ _ => true
  | .cbcast _ _ _ _ _ _ _ => true
  | .cgath _ _ _ _ _ _ _ => true
  | .crscat _ _ _ _ _ _ _ => true
  | .ca2a _ _ _ _ _ _ _ => true
  | .semadd _ _ => true
  | .semset _ _ => true
  | .semrd _ _ => true
  | .semwait _ _ => true
  | .semwaitN _ _ _ => true
  | .circ _ _ _ _ _ _ _ => true
  | .circT _ _ _ _ _ _ _ => true
  | .famwr _ _ _ _ _ _ _ => true
  | .pgate _ _ _ _ _ _ _ => true
  | .pwake _ _ _ _ _ _ _ => true
  | .ext _ => true
  | .lateStoreFault _ _ => true
  | .deferredFault _ => true
  | .budgetExpiry _ => true
  | .waittimeExpiry _ => true
  | .messageArrival _ => true
  | .channelSelection _ => true
  | .spillActivation _ => true
  | .replayActivation _ => true
  | .atomicHandlerActivation _ => true
  | .loadReply _ _ => true
  | .storeAck _ _ => true
  | .forwardingEntryExpiry _ _ => true
  | .alignRelease _ => true
  | .channelControlPacket _ => true
  | .remoteLoad _ => true
  | .remoteStore _ => true
  | .storeBufferDrain _ _ => true
  | .l2StoreAccept _ => true
  | .translationWalk _ _ _ => true
  | .regionReclaim _ _ => true
  | .builtinAtomic _ => true
  | .atomicReply _ _ => true
  | .cohLocalRead _ => true
  | .cohLocalWrite _ => true
  | .cohGets _ _ => true
  | .cohGetx _ _ => true
  | .cohEviction _ _ _ _ => true
  | .cohProbe _ _ => true
  | .cohTransactionComplete _ _ _ => true
  | .probeTimeout _ _ => true
  | .xinv _ _ => true
  | .xinvComplete => true
  | .pageMove _ => true
  | .pageMoveCheck => true
  | .transientDeadline _ => true
  | .transientRearm _ => true
  | .deadlineWrite _ _ => true
  | .remapError _ _ _ _ => true
  | .refreshPreemption _ => true
  | .memoryEccError _ _ _ => true
  | .rasFoldExpiry _ _ => true
  | .copySchedule _ => true
  | .copyChunk _ _ => true
  | .copyBeat _ _ _ => true
  | .cancelAtEngine _ _ => true
  | .opTerminal _ _ => true
  | .engineInboxEntry _ _ => true
  | .laneDispatch _ _ => true
  | .migration _ _ _ => true
  | .mmxCompletion _ => true
  | .phldExecution _ => true
  | .phdecExecution _ => true
  | .backBankLoad _ => true
  | .phresExecution _ => true
  | .phswpExecution _ => true
  | .phdropExecution _ => true
  | .tcopyBpExecution _ => true
  | .tcopyAccExecution _ => true
  | .trimApply _ => true
  | .deckStateApply _ _ => true
  | .probeCalibration _ _ _ _ => true
  | .matSwitchTimeout _ _ => true
  | .barrierEvent _ => true
  | .parentFlip _ => true
  | .groupExchangeRound _ _ _ _ _ _ => true
  | .groupWithdrawal _ _ => true
  | .collectiveStart _ => true
  | .collectiveComplete _ _ => true
  | .collectiveDrainTimeout _ _ => true
  | .packetArrival _ _ _ => true
  | .packetAck _ _ => true
  | .packetRetry _ => true
  | .packetLifetimeExpiry _ => true
  | .deadTagExpiry _ => true
  | .circExecution _ _ => true
  | .setupRequest _ _ _ _ => true
  | .setupAnswer _ _ _ => true
  | .setupBackoffExpiry _ => true
  | .circuitTrained _ _ => true
  | .teardownReceived _ => true
  | .circTExecution _ _ => true
  | .famwrExecution _ _ => true
  | .drainMarkerAck _ _ => true
  | .pgateExecution _ _ => true
  | .pwakeExecution _ _ => true
  | .laserLoss _ => true
  | .laserRelight _ => true
  | .tkillPurge _ _ => true
  | .tkillComplete _ => true
  | .jobSwitch _ => true
  | .jobSwitchComplete => true
  | .launch _ => true
  | .jobend _ => true
  | .activeMessageBlock _ _ _ _ => true
  | .memoryWindowWrite _ _ _ => true
  | .memoryWindowRead _ _ => true
  | .semUnitOp _ => true
  | .semvalWrite _ _ => true
  | .semincWrite _ _ => true
  | .msixUnmask _ => true
  | .checkpoint _ => true
  | .checkpointComplete _ => true
  | .packageReset => true
  | .pcieLinkTraining _ _ => true
  | .monitorSample _ _ _ => true
  | .tempRecordTimer _ => true
  | .ringWrite _ _ _ _ => true
  | .ringmoveWrite _ _ _ => true
  | .ringMoveApply _ _ => true
  | .wearMove _ _ _ _ => true
  | .deckctlWrite _ _ => true
  | .powerAlert _ => true
  | .thringWrite _ => true
  | .scrub _ _ _ => true
  | .bootgo _ => true
  | .firmwareReady => true
  | .svnburn _ => true
  | .attestationGo _ => true
  | .attestationDone => true
  | .readClear _ => true
  | .registerWrite _ _ _ => true
  | .illegalInstruction _ => true
  | .instructionFetchFault _ => true
  | .laserModuleRelit _ => true

end Sys2Proof
end

