-- ==== Sys2Proof/Decode.lean ====
section
/-!
DEFINITION. The decoder (R30, R47 to R70), total on every 32-bit word, and the encoder written from the same forms.
-/
namespace Sys2Proof

/-- Bits [31:26], the major opcode (R30). -/
def fMajor (w : IWord) : BitVec 6 := w.extractLsb' 26 6
/-- Bits [25:21]: d, t, vd, or a of FB (R30). -/
def fD (w : IWord) : BitVec 5 := w.extractLsb' 21 5
/-- Bits [20:16]: a, base, va, or b of FB (R30). -/
def fA (w : IWord) : BitVec 5 := w.extractLsb' 16 5
/-- Bits [15:11]: b, vb (R30). -/
def fB (w : IWord) : BitVec 5 := w.extractLsb' 11 5
/-- Bits [10:0] of F3 (R30). -/
def fFn (w : IWord) : BitVec 11 := w.extractLsb' 0 11
/-- Bits [15:0] of FI (R30). -/
def fImm (w : IWord) : BitVec 16 := w.extractLsb' 0 16
/-- Bits [15:13]: swz of FM, cond of FB (R30). -/
def fSwz (w : IWord) : BitVec 3 := w.extractLsb' 13 3
/-- Bits [12:0] of FM and FB (R30). -/
def fOff (w : IWord) : BitVec 13 := w.extractLsb' 0 13
/-- Bits [25:0] of FJ and FP (R30). -/
def fDisp (w : IWord) : BitVec 26 := w.extractLsb' 0 26
/-- Bits [10:8]: m of FV, type of SFP (R30, R64). -/
def fM (w : IWord) : BitVec 3 := w.extractLsb' 8 3
/-- Bits [7:5]: type of FV, rounding of SFP (R30, R64). -/
def fT (w : IWord) : BitVec 3 := w.extractLsb' 5 3
/-- Bits [4:0]: fn5 of FV, operation of SFP (R30, R64). -/
def fFn5 (w : IWord) : BitVec 5 := w.extractLsb' 0 5
/-- Bits [10:6]: the sub-op of MEMX, ATOM, MSG, TOK, BAR, SEM (R52). -/
def fSub (w : IWord) : BitVec 5 := w.extractLsb' 6 5
/-- Bits [5:4]: scope, level or size (R52, R53). -/
def fS (w : IWord) : BitVec 2 := w.extractLsb' 4 2
/-- Bits [3:0]: qualifier (R52). -/
def fQ (w : IWord) : BitVec 4 := w.extractLsb' 0 4
/-- Bits [10:7]: the sub-op of FE (R30). -/
def fSubE (w : IWord) : BitVec 4 := w.extractLsb' 7 4
/-- Bit [6] of FE, DET (R30). -/
def fDet (w : IWord) : BitVec 1 := w.extractLsb' 6 1
/-- Bits [5:4] of FE, PRI (R30). -/
def fPri (w : IWord) : BitVec 2 := w.extractLsb' 4 2
/-- Bit [3] of FE, NTF (R30). -/
def fNtf (w : IWord) : BitVec 1 := w.extractLsb' 3 1
/-- Bit [2] of FE, BAR (R30). -/
def fBar (w : IWord) : BitVec 1 := w.extractLsb' 2 1
/-- Bits [1:0] of FE, RES (R30). -/
def fRes2 (w : IWord) : BitVec 2 := w.extractLsb' 0 2
/-- Bits [15:4] of FS, sys12 (R30). -/
def fSys (w : IWord) : BitVec 12 := w.extractLsb' 4 12

/-- The form F3 (R30). -/
def mkF3 (op : BitVec 6) (d a b : BitVec 5) (fn : BitVec 11) : IWord := op ++ d ++ a ++ b ++ fn
/-- The form FI (R30). -/
def mkFI (op : BitVec 6) (d a : BitVec 5) (imm : BitVec 16) : IWord := op ++ d ++ a ++ imm
/-- The forms FM and FB (R30). -/
def mkFM (op : BitVec 6) (t base : BitVec 5) (swz : BitVec 3) (off : BitVec 13) : IWord := op ++ t ++ base ++ swz ++ off
/-- The forms FJ and FP (R30). -/
def mkFJ (op : BitVec 6) (disp : BitVec 26) : IWord := op ++ disp
/-- The form FV, and F3 as SFP cuts it (R30, R64). -/
def mkFV (op : BitVec 6) (d a b : BitVec 5) (m t : BitVec 3) (fn : BitVec 5) : IWord := op ++ d ++ a ++ b ++ m ++ t ++ fn
/-- F3 as MEMX, ATOM, MSG, TOK, BAR and SEM cut it (R52). -/
def mkFQ (op : BitVec 6) (d a b sub : BitVec 5) (s : BitVec 2) (q : BitVec 4) : IWord := op ++ d ++ a ++ b ++ sub ++ s ++ q
/-- The form FE (R30). -/
def mkFE (op : BitVec 6) (d a b : BitVec 5) (sub : BitVec 4) (x : BitVec 1) (p : BitVec 2) (n k : BitVec 1) (res : BitVec 2) :
    IWord := op ++ d ++ a ++ b ++ sub ++ x ++ p ++ n ++ k ++ res
/-- The form FS (R30). -/
def mkFS (op : BitVec 6) (d a : BitVec 5) (sys : BitVec 12) (fn : BitVec 4) : IWord := op ++ d ++ a ++ sys ++ fn
/-- The form FR (R30). -/
def mkFR (op : BitVec 6) (n : BitVec 4) (c : BitVec 8) (d a b : BitVec 3) (res : BitVec 5) : IWord :=
  op ++ n ++ c ++ d ++ a ++ b ++ res
/-- The form FW (R30). -/
def mkFW (op : BitVec 6) (l s c t : BitVec 6) (res : BitVec 2) : IWord := op ++ l ++ s ++ c ++ t ++ res

/-- Major 0x01 (R47) -/
def decIalu (w : IWord) : Option Instr :=
  match fFn w with
  | 0x0#11 => some (.add (fD w) (fA w) (fB w))
  | 0x1#11 => some (.sub (fD w) (fA w) (fB w))
  | 0x2#11 => some (.and (fD w) (fA w) (fB w))
  | 0x3#11 => some (.or (fD w) (fA w) (fB w))
  | 0x4#11 => some (.xor (fD w) (fA w) (fB w))
  | 0x5#11 => some (.andn (fD w) (fA w) (fB w))
  | 0x6#11 => some (.nor (fD w) (fA w) (fB w))
  | 0x7#11 => some (.xnor (fD w) (fA w) (fB w))
  | 0x8#11 => some (.slt (fD w) (fA w) (fB w))
  | 0x9#11 => some (.sltn (fD w) (fA w) (fB w))
  | 0xA#11 => some (.min (fD w) (fA w) (fB w))
  | 0xB#11 => some (.max (fD w) (fA w) (fB w))
  | 0xC#11 => some (.minn (fD w) (fA w) (fB w))
  | 0xD#11 => some (.maxn (fD w) (fA w) (fB w))
  | 0x10#11 => some (.sll (fD w) (fA w) (fB w))
  | 0x11#11 => some (.srl (fD w) (fA w) (fB w))
  | 0x12#11 => some (.sra (fD w) (fA w) (fB w))
  | 0x13#11 => some (.ror (fD w) (fA w) (fB w))
  | 0x18#11 => some (.mul (fD w) (fA w) (fB w))
  | 0x19#11 => some (.mulh (fD w) (fA w) (fB w))
  | 0x1A#11 => some (.mulhn (fD w) (fA w) (fB w))
  | 0x1C#11 => some (.div (fD w) (fA w) (fB w))
  | 0x1D#11 => some (.divn (fD w) (fA w) (fB w))
  | 0x1E#11 => some (.rem (fD w) (fA w) (fB w))
  | 0x1F#11 => some (.remn (fD w) (fA w) (fB w))
  | 0x20#11 => if (fB w) = 0x0#5 then some (.clz (fD w) (fA w)) else none
  | 0x21#11 => if (fB w) = 0x0#5 then some (.ctz (fD w) (fA w)) else none
  | 0x22#11 => if (fB w) = 0x0#5 then some (.popc (fD w) (fA w)) else none
  | 0x24#11 => if (fB w) = 0x0#5 then some (.sxb (fD w) (fA w)) else none
  | 0x25#11 => if (fB w) = 0x0#5 then some (.sxh (fD w) (fA w)) else none
  | 0x26#11 => if (fB w) = 0x0#5 then some (.sxw (fD w) (fA w)) else none
  | 0x28#11 => if (fA w).extractLsb' 3 2 = 0 ∧ (fB w) = 0x0#5 then some (.qrd (fD w) ((fA w).extractLsb' 0 3)) else none
  | 0x29#11 => if (fD w).extractLsb' 3 2 = 0 ∧ (fA w) = 0x0#5 then some (.wwr ((fD w).extractLsb' 0 3) (fB w)) else none
  | 0x2A#11 => if (fD w) = 0x0#5 ∧ (fA w) = 0x0#5 ∧ (fB w) = 0x0#5 then some (.wclr) else none
  | _ => none

/-- Major 0x0C (R47) -/
def decPtr (w : IWord) : Option Instr :=
  match fFn w with
  | 0x0#11 => some (.addp (fD w) (fA w) (fB w))
  | 0x1#11 => some (.subp (fD w) (fA w) (fB w))
  | 0x2#11 => if (fB w) = 0x0#5 then some (.tagget (fD w) (fA w)) else none
  | 0x3#11 => some (.tagset (fD w) (fA w) (fB w))
  | 0x4#11 => if (fB w) = 0x0#5 then some (.pclr (fD w) (fA w)) else none
  | _ => none

/-- Major 0x23 (R47) -/
def decJreg (w : IWord) : Option Instr :=
  match fFn w with
  | 0x0#11 => if (fD w) = 0x0#5 ∧ (fB w) = 0x0#5 then some (.jr (fA w)) else none
  | 0x1#11 => if (fB w) = 0x0#5 then some (.jlr (fD w) (fA w)) else none
  | _ => none

/-- Major 0x2F (R47) -/
def decDtab (w : IWord) : Option Instr :=
  match fFn w with
  | 0x0#11 => if (fD w) = 0x0#5 then some (.dtwr (fA w) (fB w)) else none
  | 0x1#11 => if (fB w) = 0x0#5 then some (.dtrd (fD w) (fA w)) else none
  | 0x2#11 => if (fD w) = 0x0#5 then some (.ftwr (fA w) (fB w)) else none
  | 0x3#11 => if (fD w) = 0x0#5 then some (.ftrd (fA w) (fB w)) else none
  | 0x4#11 => if (fD w) = 0x0#5 ∧ (fB w) = 0x0#5 then some (.dtmode (fA w)) else none
  | _ => none

/-- Major 0x08, the shift-immediate group (R49) -/
def decShift (w : IWord) : Option Instr :=
  match (fImm w).extractLsb' 6 10 with
  | 0x0#10 => some (.slli (fD w) (fA w) ((fImm w).extractLsb' 0 6))
  | 0x4#10 => some (.srli (fD w) (fA w) ((fImm w).extractLsb' 0 6))
  | 0x8#10 => some (.srai (fD w) (fA w) ((fImm w).extractLsb' 0 6))
  | 0xC#10 => some (.rori (fD w) (fA w) ((fImm w).extractLsb' 0 6))
  | _ => none

/-- Major 0x1D (R47, R52) -/
def decMemx (w : IWord) : Option Instr :=
  match fSub w with
  | 0x0#5 => if (fB w) = 0x0#5 ∧ (fQ w).extractLsb' 3 1 = 0x0#1 then some (.ldAcq (fD w) (fA w) (fS w) ((fQ w).extractLsb' 2 1) ((fQ w).extractLsb' 0 2)) else none
  | 0x1#5 => if (fD w) = 0x0#5 ∧ (fQ w).extractLsb' 2 2 = 0x0#2 then some (.stRel (fA w) (fB w) (fS w) ((fQ w).extractLsb' 0 2)) else none
  | 0x2#5 => if (fB w) = 0x0#5 ∧ fS w = 0x0#2 ∧ (fQ w).extractLsb' 3 1 = 0x0#1 then some (.vldf (fD w) (fA w) ((fQ w).extractLsb' 0 3)) else none
  | 0x3#5 => if (fB w) = 0x0#5 ∧ fS w = 0x0#2 ∧ (fQ w).extractLsb' 3 1 = 0x0#1 then some (.vstf (fD w) (fA w) ((fQ w).extractLsb' 0 3)) else none
  | 0x4#5 => if (fD w) = 0x0#5 ∧ (fB w) = 0x0#5 ∧ fQ w = 0x0#4 then some (.pref (fA w) (fS w)) else none
  | 0x5#5 => if (fD w) = 0x0#5 ∧ fQ w = 0x1#4 then some (.prefResPin (fA w) (fB w) (fS w)) else if (fD w) = 0x0#5 ∧ fQ w = 0x0#4 then some (.prefResUnpin (fA w) (fB w) (fS w)) else none
  | 0x6#5 => if (fD w) = 0x0#5 ∧ (fA w) = 0x0#5 ∧ (fB w) = 0x0#5 then some (.fence (fS w) (fQ w)) else none
  | 0x7#5 => if (fD w) = 0x0#5 ∧ fS w = 0x0#2 ∧ fQ w = 0x0#4 then some (.l1inv (fA w) (fB w)) else none
  | 0x8#5 => if (fD w) = 0x0#5 ∧ fS w = 0x0#2 ∧ fQ w = 0x0#4 then some (.l1wb (fA w) (fB w)) else none
  | _ => none

/-- Major 0x1E (R47, R52) -/
def decAtom (w : IWord) : Option Instr :=
  match fSub w with
  | 0x0#5 => if (fQ w).extractLsb' 0 3 = 0x0#3 then some (.atomAdd (fD w) (fA w) (fB w) (fS w) ((fQ w).extractLsb' 3 1)) else none
  | 0x1#5 => if (fQ w).extractLsb' 0 3 = 0x0#3 then some (.atomAnd (fD w) (fA w) (fB w) (fS w) ((fQ w).extractLsb' 3 1)) else none
  | 0x2#5 => if (fQ w).extractLsb' 0 3 = 0x0#3 then some (.atomOr (fD w) (fA w) (fB w) (fS w) ((fQ w).extractLsb' 3 1)) else none
  | 0x3#5 => if (fQ w).extractLsb' 0 3 = 0x0#3 then some (.atomXor (fD w) (fA w) (fB w) (fS w) ((fQ w).extractLsb' 3 1)) else none
  | 0x4#5 => if (fQ w).extractLsb' 0 3 = 0x0#3 then some (.atomSwap (fD w) (fA w) (fB w) (fS w) ((fQ w).extractLsb' 3 1)) else none
  | 0x5#5 => if fQ w = 0x8#4 then some (.atomCas (fD w) (fA w) (fB w) (fS w)) else none
  | 0x6#5 => if (fQ w).extractLsb' 0 3 = 0x0#3 then some (.atomMin (fD w) (fA w) (fB w) (fS w) ((fQ w).extractLsb' 3 1)) else none
  | 0x7#5 => if (fQ w).extractLsb' 0 3 = 0x0#3 then some (.atomMax (fD w) (fA w) (fB w) (fS w) ((fQ w).extractLsb' 3 1)) else none
  | 0x8#5 => if (fQ w).extractLsb' 0 3 = 0x0#3 then some (.atomMinn (fD w) (fA w) (fB w) (fS w) ((fQ w).extractLsb' 3 1)) else none
  | 0x9#5 => if (fQ w).extractLsb' 0 3 = 0x0#3 then some (.atomMaxn (fD w) (fA w) (fB w) (fS w) ((fQ w).extractLsb' 3 1)) else none
  | 0xA#5 => if (fQ w).extractLsb' 0 3 = 0x0#3 then some (.atomFadd (fD w) (fA w) (fB w) (fS w) ((fQ w).extractLsb' 3 1)) else none
  | _ => none

/-- Major 0x26 (R47, R52) -/
def decMsg (w : IWord) : Option Instr :=
  match fSub w with
  | 0x0#5 => if (fD w) = 0x0#5 ∧ (fA w) = 0x0#5 ∧ (fB w) = 0x0#5 ∧ fS w = 0x0#2 ∧ fQ w = 0x0#4 then some (.send) else none
  | 0x1#5 => if (fD w) = 0x0#5 ∧ (fA w) = 0x0#5 ∧ (fB w) = 0x0#5 ∧ fS w = 0x0#2 ∧ fQ w = 0x0#4 then some (.sendC) else none
  | 0x2#5 => if (fD w) = 0x0#5 ∧ fS w = 0x0#2 ∧ fQ w = 0x0#4 then some (.start (fA w) (fB w)) else none
  | 0x3#5 => if (fD w) = 0x0#5 ∧ fS w = 0x0#2 ∧ fQ w = 0x0#4 then some (.spawn (fA w) (fB w)) else none
  | 0x4#5 => if (fD w) = 0x0#5 ∧ (fA w) = 0x0#5 ∧ (fB w) = 0x0#5 ∧ fS w = 0x0#2 ∧ fQ w = 0x0#4 then some (.endAct) else none
  | 0x5#5 => if (fD w) = 0x0#5 ∧ (fA w) = 0x0#5 ∧ (fB w) = 0x0#5 ∧ fS w = 0x0#2 ∧ fQ w = 0x0#4 then some (.yield) else none
  | 0x6#5 => if (fD w) = 0x0#5 ∧ (fB w) = 0x0#5 ∧ fS w = 0x0#2 ∧ fQ w = 0x0#4 then some (.migr (fA w)) else none
  | 0x7#5 => if (fD w) = 0x0#5 ∧ (fA w) = 0x0#5 ∧ (fB w) = 0x0#5 ∧ fS w = 0x0#2 ∧ fQ w = 0x0#4 then some (.align) else none
  | 0x8#5 => if (fD w) = 0x0#5 ∧ (fB w) = 0x0#5 ∧ fS w = 0x0#2 ∧ fQ w = 0x0#4 then some (.chen (fA w)) else none
  | 0x9#5 => if (fD w) = 0x0#5 ∧ (fB w) = 0x0#5 ∧ fS w = 0x0#2 ∧ fQ w = 0x0#4 then some (.chdis (fA w)) else none
  | 0xA#5 => if (fD w) = 0x0#5 ∧ fS w = 0x0#2 ∧ fQ w = 0x0#4 then some (.chpri (fA w) (fB w)) else none
  | 0xB#5 => if fS w = 0x0#2 ∧ fQ w = 0x0#4 then some (.ralloc (fD w) (fA w) (fB w)) else none
  | 0xC#5 => if (fD w) = 0x0#5 ∧ (fB w) = 0x0#5 ∧ fS w = 0x0#2 ∧ fQ w = 0x0#4 then some (.rfree (fA w)) else none
  | 0xD#5 => if (fD w) = 0x0#5 ∧ (fB w) = 0x0#5 ∧ fS w = 0x0#2 ∧ fQ w = 0x0#4 then some (.tkill (fA w)) else none
  | _ => none

/-- Major 0x30 (R47, R52) -/
def decTok (w : IWord) : Option Instr :=
  match fSub w with
  | 0x0#5 => if (fB w) = 0x0#5 ∧ fS w = 0x0#2 ∧ fQ w = 0x0#4 then some (.twait (fD w) (fA w)) else none
  | 0x1#5 => if (fB w) = 0x0#5 ∧ fS w = 0x0#2 ∧ fQ w = 0x0#4 then some (.tstat (fD w) (fA w)) else if (fB w) = 0x0#5 ∧ fS w = 0x0#2 ∧ fQ w = 0x1#4 then some (.tstatR (fD w) (fA w)) else none
  | 0x2#5 => if (fD w) = 0x0#5 ∧ (fB w) = 0x0#5 ∧ fS w = 0x0#2 ∧ fQ w = 0x0#4 then some (.tcancel (fA w)) else none
  | 0x3#5 => if (fD w) = 0x0#5 ∧ (fA w) = 0x0#5 ∧ (fB w) = 0x0#5 ∧ fS w = 0x0#2 then some (.tfence (fQ w)) else none
  | 0x4#5 => if (fD w) = 0x0#5 ∧ (fB w) = 0x0#5 ∧ fS w = 0x0#2 ∧ fQ w = 0x0#4 then some (.tresume (fA w)) else none
  | 0x5#5 => if (fD w) = 0x0#5 ∧ fS w = 0x0#2 ∧ fQ w = 0x0#4 then some (.trec (fA w) (fB w)) else none
  | 0x6#5 => if (fD w) = 0x0#5 ∧ (fB w) = 0x0#5 ∧ fS w = 0x0#2 ∧ fQ w = 0x0#4 then some (.tdet (fA w)) else none
  | _ => none

/-- Major 0x35 (R47, R52) -/
def decBar (w : IWord) : Option Instr :=
  match fSub w with
  | 0x0#5 => if (fD w) = 0x0#5 ∧ fS w = 0x0#2 ∧ fQ w = 0x0#4 then some (.binit (fA w) (fB w)) else none
  | 0x1#5 => if (fD w) = 0x0#5 ∧ fS w = 0x0#2 ∧ fQ w = 0x0#4 then some (.barr (fA w) (fB w)) else none
  | 0x2#5 => if (fB w) = 0x0#5 ∧ fS w = 0x0#2 ∧ fQ w = 0x0#4 then some (.bwait (fD w) (fA w)) else none
  | 0x3#5 => if (fD w) = 0x0#5 ∧ fS w = 0x0#2 ∧ fQ w = 0x0#4 then some (.bnote (fA w) (fB w)) else none
  | 0x4#5 => if (fD w) = 0x0#5 ∧ (fB w) = 0x0#5 ∧ fS w = 0x0#2 ∧ fQ w = 0x0#4 then some (.bwdraw (fA w)) else none
  | 0x5#5 => if (fB w) = 0x0#5 ∧ fS w = 0x0#2 ∧ fQ w = 0x0#4 then some (.bstat (fD w) (fA w)) else none
  | 0x6#5 => if (fD w) = 0x0#5 ∧ fS w = 0x0#2 ∧ fQ w = 0x0#4 then some (.bbytes (fA w) (fB w)) else none
  | 0x7#5 => if (fD w) = 0x0#5 ∧ fS w = 0x0#2 ∧ fQ w = 0x0#4 then some (.blink (fA w) (fB w)) else none
  | 0x8#5 => if (fD w) = 0x0#5 ∧ fS w = 0x0#2 ∧ fQ w = 0x0#4 then some (.bbind (fA w) (fB w)) else none
  | _ => none

/-- Major 0x37 (R47, R52) -/
noncomputable def decSem (w : IWord) : Option Instr :=
  match fSub w with
  | 0x0#5 => if (fD w) = 0x0#5 ∧ fS w = 0x0#2 ∧ fQ w = 0x0#4 then some (.semadd (fA w) (fB w)) else none
  | 0x1#5 => if (fD w) = 0x0#5 ∧ fS w = 0x0#2 ∧ fQ w = 0x0#4 then some (.semset (fA w) (fB w)) else none
  | 0x2#5 => if (fB w) = 0x0#5 ∧ fS w = 0x0#2 ∧ fQ w = 0x0#4 then some (.semrd (fD w) (fA w)) else none
  | 0x3#5 => if (fD w) = 0x0#5 ∧ fS w = 0x0#2 ∧ fQ w = 0x0#4 then some (.semwait (fA w) (fB w)) else none
  | 0x4#5 => if (fD w) = 0x0#5 then some (.semwaitN (fA w) (fB w) (fS w ++ fQ w)) else none
  | _ => none

/-- Major 0x28 (R57 to R63) -/
def decVarith (w : IWord) : Option Instr :=
  match fFn5 w with
  | 0x0#5 => some (.vadd (fD w) (fA w) (fB w) (fM w) (fT w))
  | 0x1#5 => some (.vsub (fD w) (fA w) (fB w) (fM w) (fT w))
  | 0x2#5 => some (.vmul (fD w) (fA w) (fB w) (fM w) (fT w))
  | 0x3#5 => some (.vmin (fD w) (fA w) (fB w) (fM w) (fT w))
  | 0x4#5 => some (.vmax (fD w) (fA w) (fB w) (fM w) (fT w))
  | 0x5#5 => if (fB w) = 0x0#5 then some (.vabs (fD w) (fA w) (fM w) (fT w)) else none
  | 0x6#5 => if (fB w) = 0x0#5 then some (.vneg (fD w) (fA w) (fM w) (fT w)) else none
  | 0x7#5 => some (.vdiv (fD w) (fA w) (fB w) (fM w) (fT w))
  | 0x8#5 => if (fB w) = 0x0#5 then some (.vsqrt (fD w) (fA w) (fM w) (fT w)) else none
  | 0x9#5 => some (.vminn (fD w) (fA w) (fB w) (fM w) (fT w))
  | 0xA#5 => some (.vmaxn (fD w) (fA w) (fB w) (fM w) (fT w))
  | 0xB#5 => some (.vadds (fD w) (fA w) (fB w) (fM w) (fT w))
  | 0xC#5 => some (.vsubs (fD w) (fA w) (fB w) (fM w) (fT w))
  | 0xD#5 => some (.vaddsn (fD w) (fA w) (fB w) (fM w) (fT w))
  | 0xE#5 => some (.vsubsn (fD w) (fA w) (fB w) (fM w) (fT w))
  | 0x10#5 => some (.vand (fD w) (fA w) (fB w) (fM w) (fT w))
  | 0x11#5 => some (.vor (fD w) (fA w) (fB w) (fM w) (fT w))
  | 0x12#5 => some (.vxor (fD w) (fA w) (fB w) (fM w) (fT w))
  | 0x13#5 => some (.vsll (fD w) (fA w) (fB w) (fM w) (fT w))
  | 0x14#5 => some (.vsrl (fD w) (fA w) (fB w) (fM w) (fT w))
  | 0x15#5 => some (.vsra (fD w) (fA w) (fB w) (fM w) (fT w))
  | 0x18#5 => if (fB w) = 0x0#5 then some (.vmov (fD w) (fA w) (fM w) (fT w)) else none
  | 0x19#5 => if (fB w) = 0x0#5 then some (.vsplat (fD w) (fA w) (fM w) (fT w)) else none
  | _ => none

/-- Major 0x29 (R57 to R63) -/
def decVfma (w : IWord) : Option Instr :=
  match fFn5 w with
  | 0x0#5 => some (.vfma (fD w) (fA w) (fB w) (fM w) (fT w))
  | 0x1#5 => some (.vfms (fD w) (fA w) (fB w) (fM w) (fT w))
  | 0x2#5 => some (.vfnma (fD w) (fA w) (fB w) (fM w) (fT w))
  | 0x3#5 => some (.vfnms (fD w) (fA w) (fB w) (fM w) (fT w))
  | 0x4#5 => some (.vmac (fD w) (fA w) (fB w) (fM w) (fT w))
  | _ => none

/-- Major 0x2A (R57 to R63) -/
def decVcmp (w : IWord) : Option Instr :=
  match fFn5 w with
  | 0x0#5 => if (fD w).extractLsb' 3 2 = 0 then some (.vceq ((fD w).extractLsb' 0 3) (fA w) (fB w) (fM w) (fT w)) else none
  | 0x1#5 => if (fD w).extractLsb' 3 2 = 0 then some (.vcne ((fD w).extractLsb' 0 3) (fA w) (fB w) (fM w) (fT w)) else none
  | 0x2#5 => if (fD w).extractLsb' 3 2 = 0 then some (.vclt ((fD w).extractLsb' 0 3) (fA w) (fB w) (fM w) (fT w)) else none
  | 0x3#5 => if (fD w).extractLsb' 3 2 = 0 then some (.vcle ((fD w).extractLsb' 0 3) (fA w) (fB w) (fM w) (fT w)) else none
  | 0x4#5 => if (fD w).extractLsb' 3 2 = 0 then some (.vcltn ((fD w).extractLsb' 0 3) (fA w) (fB w) (fM w) (fT w)) else none
  | 0x5#5 => if (fD w).extractLsb' 3 2 = 0 then some (.vclen ((fD w).extractLsb' 0 3) (fA w) (fB w) (fM w) (fT w)) else none
  | 0x6#5 => if (fD w).extractLsb' 3 2 = 0 then some (.vcun ((fD w).extractLsb' 0 3) (fA w) (fB w) (fM w) (fT w)) else none
  | 0x8#5 => some (.vsel (fD w) (fA w) (fB w) (fM w) (fT w))
  | 0x10#5 => if (fD w).extractLsb' 3 2 = 0 ∧ (fA w).extractLsb' 3 2 = 0 ∧ (fB w).extractLsb' 3 2 = 0 ∧ (fM w) = 0x0#3 ∧ (fT w) = 0x0#3 then some (.mand ((fD w).extractLsb' 0 3) ((fA w).extractLsb' 0 3) ((fB w).extractLsb' 0 3)) else none
  | 0x11#5 => if (fD w).extractLsb' 3 2 = 0 ∧ (fA w).extractLsb' 3 2 = 0 ∧ (fB w).extractLsb' 3 2 = 0 ∧ (fM w) = 0x0#3 ∧ (fT w) = 0x0#3 then some (.mor ((fD w).extractLsb' 0 3) ((fA w).extractLsb' 0 3) ((fB w).extractLsb' 0 3)) else none
  | 0x12#5 => if (fD w).extractLsb' 3 2 = 0 ∧ (fA w).extractLsb' 3 2 = 0 ∧ (fB w).extractLsb' 3 2 = 0 ∧ (fM w) = 0x0#3 ∧ (fT w) = 0x0#3 then some (.mxor ((fD w).extractLsb' 0 3) ((fA w).extractLsb' 0 3) ((fB w).extractLsb' 0 3)) else none
  | 0x13#5 => if (fD w).extractLsb' 3 2 = 0 ∧ (fA w).extractLsb' 3 2 = 0 ∧ (fB w).extractLsb' 3 2 = 0 ∧ (fM w) = 0x0#3 ∧ (fT w) = 0x0#3 then some (.mandn ((fD w).extractLsb' 0 3) ((fA w).extractLsb' 0 3) ((fB w).extractLsb' 0 3)) else none
  | 0x14#5 => if (fD w).extractLsb' 3 2 = 0 ∧ (fA w).extractLsb' 3 2 = 0 ∧ (fB w) = 0x0#5 ∧ (fM w) = 0x0#3 ∧ (fT w) = 0x0#3 then some (.mnot ((fD w).extractLsb' 0 3) ((fA w).extractLsb' 0 3)) else none
  | 0x15#5 => if (fD w).extractLsb' 3 2 = 0 ∧ (fB w) = 0x0#5 ∧ (fM w) = 0x0#3 ∧ (fT w) = 0x0#3 then some (.mset ((fD w).extractLsb' 0 3) (fA w)) else none
  | 0x16#5 => if (fA w).extractLsb' 3 2 = 0 ∧ (fB w) = 0x0#5 ∧ (fM w) = 0x0#3 ∧ (fT w) = 0x0#3 then some (.mget (fD w) ((fA w).extractLsb' 0 3)) else none
  | 0x17#5 => if (fA w).extractLsb' 3 2 = 0 ∧ (fB w) = 0x0#5 ∧ (fM w) = 0x0#3 ∧ (fT w) = 0x0#3 then some (.mpopc (fD w) ((fA w).extractLsb' 0 3)) else none
  | _ => none

/-- Major 0x2B (R57 to R63) -/
def decVperm (w : IWord) : Option Instr :=
  match fFn5 w with
  | 0x0#5 => some (.vperm (fD w) (fA w) (fB w) (fM w) (fT w))
  | 0x1#5 => some (.vzip (fD w) (fA w) (fB w) (fM w) (fT w))
  | 0x2#5 => some (.vunzip (fD w) (fA w) (fB w) (fM w) (fT w))
  | 0x3#5 => some (.vrotl (fD w) (fA w) (fB w) (fM w) (fT w))
  | 0x4#5 => if (fM w) = 0x0#3 then some (.vext (fD w) (fA w) (fB w) (fT w)) else none
  | 0x5#5 => if (fM w) = 0x0#3 then some (.vins (fD w) (fA w) (fB w) (fT w)) else none
  | 0x10#5 => if (fB w) = 0x0#5 then some (.vrsum (fD w) (fA w) (fM w) (fT w)) else none
  | 0x11#5 => if (fB w) = 0x0#5 then some (.vrmin (fD w) (fA w) (fM w) (fT w)) else none
  | 0x12#5 => if (fB w) = 0x0#5 then some (.vrmax (fD w) (fA w) (fM w) (fT w)) else none
  | 0x13#5 => if (fB w) = 0x0#5 then some (.vrand (fD w) (fA w) (fM w) (fT w)) else none
  | 0x14#5 => if (fB w) = 0x0#5 then some (.vror (fD w) (fA w) (fM w) (fT w)) else none
  | 0x15#5 => if (fB w) = 0x0#5 then some (.vrxor (fD w) (fA w) (fM w) (fT w)) else none
  | _ => none

/-- Major 0x2C (R62) -/
def decVcvt (w : IWord) : Option Instr :=
  match (fFn5 w).extractLsb' 3 2 with
  | 0x0#2 => if (fB w).extractLsb' 3 2 = 0 then some (.vcvt (fD w) (fA w) ((fB w).extractLsb' 0 3) (fM w) (fT w) ((fFn5 w).extractLsb' 0 3)) else none
  | 0x1#2 => if (fB w).extractLsb' 3 2 = 0 then some (.vcvts (fD w) (fA w) ((fB w).extractLsb' 0 3) (fM w) (fT w) ((fFn5 w).extractLsb' 0 3)) else none
  | 0x2#2 => if (fB w).extractLsb' 4 1 = 0 then some (.vqnt (fD w) (fA w) ((fB w).extractLsb' 0 4) (fM w) (fT w) ((fFn5 w).extractLsb' 0 3)) else none
  | 0x3#2 => if (fB w).extractLsb' 4 1 = 0 then some (.vdqnt (fD w) (fA w) ((fB w).extractLsb' 0 4) (fM w) (fT w) ((fFn5 w).extractLsb' 0 3)) else none
  | _ => none

/-- Major 0x2D (R57 to R63) -/
def decVdot (w : IWord) : Option Instr :=
  match fFn5 w with
  | 0x0#5 => some (.vdot (fD w) (fA w) (fB w) (fM w) (fT w))
  | 0x1#5 => some (.vdotSp (fD w) (fA w) (fB w) (fM w) (fT w))
  | _ => none

/-- Major 0x2E (R64) -/
def decSfp (w : IWord) : Option Instr :=
  match fFn5 w with
  | 0x0#5 => some (.fadd (fD w) (fA w) (fB w) (fM w) (fT w))
  | 0x1#5 => some (.fsub (fD w) (fA w) (fB w) (fM w) (fT w))
  | 0x2#5 => some (.fmul (fD w) (fA w) (fB w) (fM w) (fT w))
  | 0x3#5 => some (.fdiv (fD w) (fA w) (fB w) (fM w) (fT w))
  | 0x4#5 => if (fB w) = 0x0#5 then some (.fsqrt (fD w) (fA w) (fM w) (fT w)) else none
  | 0x5#5 => some (.fma (fD w) (fA w) (fB w) (fM w) (fT w))
  | 0x6#5 => if (fT w) = 0x0#3 then some (.fmin (fD w) (fA w) (fB w) (fM w)) else none
  | 0x7#5 => if (fT w) = 0x0#3 then some (.fmax (fD w) (fA w) (fB w) (fM w)) else none
  | 0x8#5 => if (fT w) = 0x0#3 then some (.fceq (fD w) (fA w) (fB w) (fM w)) else none
  | 0x9#5 => if (fT w) = 0x0#3 then some (.fclt (fD w) (fA w) (fB w) (fM w)) else none
  | 0xA#5 => if (fT w) = 0x0#3 then some (.fcle (fD w) (fA w) (fB w) (fM w)) else none
  | 0xB#5 => if (fB w) = 0x0#5 ∧ (fT w) = 0x0#3 then some (.fabs (fD w) (fA w) (fM w)) else none
  | 0xC#5 => if (fB w) = 0x0#5 ∧ (fT w) = 0x0#3 then some (.fneg (fD w) (fA w) (fM w)) else none
  | 0xD#5 => if (fB w) = 0x0#5 ∧ (fT w) = 0x0#3 then some (.fclass (fD w) (fA w) (fM w)) else none
  | 0x10#5 => if (fB w) = 0x0#5 then some (.ftoi (fD w) (fA w) (fM w) (fT w)) else none
  | 0x11#5 => if (fB w) = 0x0#5 then some (.fton (fD w) (fA w) (fM w) (fT w)) else none
  | 0x12#5 => if (fB w) = 0x0#5 then some (.itof (fD w) (fA w) (fM w) (fT w)) else none
  | 0x13#5 => if (fB w) = 0x0#5 then some (.ntof (fD w) (fA w) (fM w) (fT w)) else none
  | 0x14#5 => if (fB w).extractLsb' 3 2 = 0 then some (.fcvt (fD w) (fA w) ((fB w).extractLsb' 0 3) (fM w) (fT w)) else none
  | _ => none

/-- Major 0x31 (R67, R68) -/
def decCpy (w : IWord) : Option Instr :=
  if fRes2 w = 0 then
    match fSubE w with
    | 0x0#4 => some (.cpy (fD w) (fA w) (fB w) (fDet w) (fPri w) (fNtf w) (fBar w))
    | 0x1#4 => some (.cpyX (fD w) (fA w) (fB w) (fDet w) (fPri w) (fNtf w) (fBar w))
    | 0x2#4 => some (.cpySp (fD w) (fA w) (fB w) (fDet w) (fPri w) (fNtf w) (fBar w))
    | 0x3#4 => some (.cpyR (fD w) (fA w) (fB w) (fDet w) (fPri w) (fNtf w) (fBar w))
    | 0x4#4 => some (.cpyF (fD w) (fA w) (fB w) (fDet w) (fPri w) (fNtf w) (fBar w))
    | _ => none
  else none

/-- Major 0x32 (R67, R68) -/
def decMmx (w : IWord) : Option Instr :=
  if fRes2 w = 0 then
    match fSubE w with
    | 0x0#4 => some (.mmx (fD w) (fA w) (fB w) (fDet w) (fPri w) (fNtf w) (fBar w))
    | 0x1#4 => some (.mmxA (fD w) (fA w) (fB w) (fDet w) (fPri w) (fNtf w) (fBar w))
    | _ => none
  else none

/-- Major 0x33 (R67, R68) -/
def decPh (w : IWord) : Option Instr :=
  if fRes2 w = 0 then
    match fSubE w with
    | 0x0#4 => some (.phld (fD w) (fA w) (fB w) (fDet w) (fPri w) (fNtf w) (fBar w))
    | 0x1#4 => some (.phdec (fD w) (fA w) (fB w) (fDet w) (fPri w) (fNtf w) (fBar w))
    | 0x2#4 => some (.phswp (fD w) (fA w) (fB w) (fDet w) (fPri w) (fNtf w) (fBar w))
    | 0x3#4 => some (.phres (fD w) (fA w) (fB w) (fDet w) (fPri w) (fNtf w) (fBar w))
    | 0x4#4 => some (.phdrop (fD w) (fA w) (fB w) (fDet w) (fPri w) (fNtf w) (fBar w))
    | _ => none
  else none

/-- Major 0x34 (R67, R68) -/
def decTcopy (w : IWord) : Option Instr :=
  if fRes2 w = 0 then
    match fSubE w with
    | 0x0#4 => some (.tcopy (fD w) (fA w) (fB w) (fDet w) (fPri w) (fNtf w) (fBar w))
    | 0x1#4 => some (.tcopyBp (fD w) (fA w) (fB w) (fDet w) (fPri w) (fNtf w) (fBar w))
    | 0x2#4 => some (.tcopyAcc (fD w) (fA w) (fB w) (fDet w) (fPri w) (fNtf w) (fBar w))
    | _ => none
  else none

/-- Major 0x36 (R67, R68) -/
def decColl (w : IWord) : Option Instr :=
  if fRes2 w = 0 then
    match fSubE w with
    | 0x0#4 => some (.gjoin (fD w) (fA w) (fB w) (fDet w) (fPri w) (fNtf w) (fBar w))
    | 0x1#4 => some (.gleave (fD w) (fA w) (fB w) (fDet w) (fPri w) (fNtf w) (fBar w))
    | 0x2#4 => some (.cred (fD w) (fA w) (fB w) (fDet w) (fPri w) (fNtf w) (fBar w))
    | 0x3#4 => some (.cbcast (fD w) (fA w) (fB w) (fDet w) (fPri w) (fNtf w) (fBar w))
    | 0x4#4 => some (.cgath (fD w) (fA w) (fB w) (fDet w) (fPri w) (fNtf w) (fBar w))
    | 0x5#4 => some (.crscat (fD w) (fA w) (fB w) (fDet w) (fPri w) (fNtf w) (fBar w))
    | 0x6#4 => some (.ca2a (fD w) (fA w) (fB w) (fDet w) (fPri w) (fNtf w) (fBar w))
    | _ => none
  else none

/-- Major 0x38 (R67, R68) -/
noncomputable def decFab (w : IWord) : Option Instr :=
  if fRes2 w = 0 then
    match fSubE w with
    | 0x0#4 => some (.circ (fD w) (fA w) (fB w) (fDet w) (fPri w) (fNtf w) (fBar w))
    | 0x1#4 => some (.circT (fD w) (fA w) (fB w) (fDet w) (fPri w) (fNtf w) (fBar w))
    | 0x2#4 => some (.famwr (fD w) (fA w) (fB w) (fDet w) (fPri w) (fNtf w) (fBar w))
    | 0x3#4 => some (.pgate (fD w) (fA w) (fB w) (fDet w) (fPri w) (fNtf w) (fBar w))
    | 0x4#4 => some (.pwake (fD w) (fA w) (fB w) (fDet w) (fPri w) (fNtf w) (fBar w))
    | _ => none
  else none

/-- Major 0x27 (R56) -/
def decSys (w : IWord) : Option Instr :=
  match (fQ w) with
  | 0x0#4 => if (fA w) = 0x0#5 then some (.sysrd (fD w) (fSys w)) else none
  | 0x1#4 => if (fD w) = 0x0#5 then some (.syswr (fA w) (fSys w)) else none
  | 0x2#4 => if (fD w) = 0x0#5 ∧ (fA w) = 0x0#5 then some (.trap (fSys w)) else none
  | 0x3#4 => if (fD w) = 0x0#5 ∧ (fSys w) = 0x0#12 then some (.irq (fA w)) else none
  | _ => none

/-- Major 0x20 (R38) -/
def decBr (w : IWord) : Option Instr :=
  match fSwz w with
  | 0x0#3 => some (.brEq (fD w) (fA w) (fOff w))
  | 0x1#3 => some (.brNe (fD w) (fA w) (fOff w))
  | 0x2#3 => some (.brLt (fD w) (fA w) (fOff w))
  | 0x3#3 => some (.brGe (fD w) (fA w) (fOff w))
  | 0x4#3 => some (.brLtn (fD w) (fA w) (fOff w))
  | 0x5#3 => some (.brGen (fD w) (fA w) (fOff w))
  | _ => none

/-- The instruction that a 32-bit word encodes, whatever limits its fields break; none for a word of no row
(R47, R72). -/
noncomputable def decodeWord (w : IWord) : Option Instr :=
  match fMajor w with
  | 0x1#6 => decIalu w
  | 0x2#6 => some (.addi (fD w) (fA w) (fImm w))
  | 0x3#6 => some (.andi (fD w) (fA w) (fImm w))
  | 0x4#6 => some (.ori (fD w) (fA w) (fImm w))
  | 0x5#6 => some (.xori (fD w) (fA w) (fImm w))
  | 0x6#6 => some (.slti (fD w) (fA w) (fImm w))
  | 0x7#6 => some (.sltni (fD w) (fA w) (fImm w))
  | 0x8#6 => decShift w
  | 0x9#6 => some (.muli (fD w) (fA w) (fImm w))
  | 0xA#6 => if fA w = 0 then some (.movi (fD w) (fImm w)) else none
  | 0xB#6 => some (.movh (fD w) (fA w) (fImm w))
  | 0xC#6 => decPtr w
  | 0xD#6 => some (.addpi (fD w) (fA w) (fImm w))
  | 0x10#6 => some (.ldB (fD w) (fA w) (fSwz w) (fOff w))
  | 0x11#6 => some (.ldBn (fD w) (fA w) (fSwz w) (fOff w))
  | 0x12#6 => some (.ldH (fD w) (fA w) (fSwz w) (fOff w))
  | 0x13#6 => some (.ldHn (fD w) (fA w) (fSwz w) (fOff w))
  | 0x14#6 => some (.ldW (fD w) (fA w) (fSwz w) (fOff w))
  | 0x15#6 => some (.ldWn (fD w) (fA w) (fSwz w) (fOff w))
  | 0x16#6 => some (.ldD (fD w) (fA w) (fSwz w) (fOff w))
  | 0x17#6 => some (.stB (fD w) (fA w) (fSwz w) (fOff w))
  | 0x18#6 => some (.stH (fD w) (fA w) (fSwz w) (fOff w))
  | 0x19#6 => some (.stW (fD w) (fA w) (fSwz w) (fOff w))
  | 0x1A#6 => some (.stD (fD w) (fA w) (fSwz w) (fOff w))
  | 0x1B#6 => some (.vld (fD w) (fA w) (fSwz w) (fOff w))
  | 0x1C#6 => some (.vst (fD w) (fA w) (fSwz w) (fOff w))
  | 0x1D#6 => decMemx w
  | 0x1E#6 => decAtom w
  | 0x20#6 => decBr w
  | 0x21#6 => some (.j (fDisp w))
  | 0x22#6 => some (.jl (fDisp w))
  | 0x23#6 => decJreg w
  | 0x24#6 => if w.extractLsb' 0 5 = 0 then some (.rpt (w.extractLsb' 22 4) (w.extractLsb' 14 8) (w.extractLsb' 11 3) (w.extractLsb' 8 3) (w.extractLsb' 5 3)) else none
  | 0x25#6 => if fRes2 w = 0 then some (.waitc (w.extractLsb' 20 6) (w.extractLsb' 14 6) (w.extractLsb' 8 6) (w.extractLsb' 2 6)) else none
  | 0x26#6 => decMsg w
  | 0x27#6 => decSys w
  | 0x28#6 => decVarith w
  | 0x29#6 => decVfma w
  | 0x2A#6 => decVcmp w
  | 0x2B#6 => decVperm w
  | 0x2C#6 => decVcvt w
  | 0x2D#6 => decVdot w
  | 0x2E#6 => decSfp w
  | 0x2F#6 => decDtab w
  | 0x30#6 => decTok w
  | 0x31#6 => decCpy w
  | 0x32#6 => decMmx w
  | 0x33#6 => decPh w
  | 0x34#6 => decTcopy w
  | 0x35#6 => decBar w
  | 0x36#6 => decColl w
  | 0x37#6 => decSem w
  | 0x38#6 => decFab w
  | 0x3E#6 => some (.ext (fDisp w))
  | _ => none

/-- What the decoder says of a word: its instruction, or why it is none (R72). -/
inductive Reject where
  /-- The tables of R47 to R70 assign the word to no row (R72). -/
  | unassigned
  /-- The word is of a row, and a field breaks the row's limits (R72). -/
  | malformed (i : Instr)
  deriving DecidableEq, Repr

/-- Decoding with the checks of `Instr.wellFormed` (R72). -/
noncomputable def decode (w : IWord) : Except Reject Instr :=
  match decodeWord w with
  | none => .error .unassigned
  | some i => if i.wellFormed then .ok i else .error (.malformed i)

/-- Little-endian word of four bytes (R3, R29). -/
def wordOfBytes (b0 b1 b2 b3 : Byte) : IWord := b3 ++ b2 ++ b1 ++ b0

/-- Decoding total on bytes: the instruction of the first four and the rest of the list (R29). -/
noncomputable def decodeBytes : List Byte → Option (Instr × List Byte)
  | b0 :: b1 :: b2 :: b3 :: rest => (decodeWord (wordOfBytes b0 b1 b2 b3)).map (·, rest)
  | _ => none

/-- The four bytes of a word in address order (R3). -/
def bytesOfWord (w : IWord) : List Byte :=
  [w.extractLsb' 0 8, w.extractLsb' 8 8, w.extractLsb' 16 8, w.extractLsb' 24 8]

/-- The instruction that the decoder reads from the table's numbering of a row's bits. -/
noncomputable def decodeTableWord (nbits w : Nat) : Option Instr :=
  if nbits ≤ 32 then (decodeBytes (bytesOfWord (BitVec.ofNat 32 w))).map (·.1) else none

/-- The word of an instruction (R30, R47 to R70). A row without an encoding has the all-zero word, which is ILLEGAL. -/
def encode : Instr → IWord
  | .add d a b => mkF3 0x1#6 d a b 0x0#11
  | .sub d a b => mkF3 0x1#6 d a b 0x1#11
  | .and d a b => mkF3 0x1#6 d a b 0x2#11
  | .or d a b => mkF3 0x1#6 d a b 0x3#11
  | .xor d a b => mkF3 0x1#6 d a b 0x4#11
  | .andn d a b => mkF3 0x1#6 d a b 0x5#11
  | .nor d a b => mkF3 0x1#6 d a b 0x6#11
  | .xnor d a b => mkF3 0x1#6 d a b 0x7#11
  | .slt d a b => mkF3 0x1#6 d a b 0x8#11
  | .sltn d a b => mkF3 0x1#6 d a b 0x9#11
  | .min d a b => mkF3 0x1#6 d a b 0xA#11
  | .max d a b => mkF3 0x1#6 d a b 0xB#11
  | .minn d a b => mkF3 0x1#6 d a b 0xC#11
  | .maxn d a b => mkF3 0x1#6 d a b 0xD#11
  | .sll d a b => mkF3 0x1#6 d a b 0x10#11
  | .srl d a b => mkF3 0x1#6 d a b 0x11#11
  | .sra d a b => mkF3 0x1#6 d a b 0x12#11
  | .ror d a b => mkF3 0x1#6 d a b 0x13#11
  | .mul d a b => mkF3 0x1#6 d a b 0x18#11
  | .mulh d a b => mkF3 0x1#6 d a b 0x19#11
  | .mulhn d a b => mkF3 0x1#6 d a b 0x1A#11
  | .div d a b => mkF3 0x1#6 d a b 0x1C#11
  | .divn d a b => mkF3 0x1#6 d a b 0x1D#11
  | .rem d a b => mkF3 0x1#6 d a b 0x1E#11
  | .remn d a b => mkF3 0x1#6 d a b 0x1F#11
  | .clz d a => mkF3 0x1#6 d a 0x0#5 0x20#11
  | .ctz d a => mkF3 0x1#6 d a 0x0#5 0x21#11
  | .popc d a => mkF3 0x1#6 d a 0x0#5 0x22#11
  | .sxb d a => mkF3 0x1#6 d a 0x0#5 0x24#11
  | .sxh d a => mkF3 0x1#6 d a 0x0#5 0x25#11
  | .sxw d a => mkF3 0x1#6 d a 0x0#5 0x26#11
  | .qrd d a => mkF3 0x1#6 d (a.zeroExtend 5) 0x0#5 0x28#11
  | .wwr d b => mkF3 0x1#6 (d.zeroExtend 5) 0x0#5 b 0x29#11
  | .wclr => mkF3 0x1#6 0x0#5 0x0#5 0x0#5 0x2A#11
  | .addi d a i => mkFI 0x2#6 d a i
  | .andi d a i => mkFI 0x3#6 d a i
  | .ori d a i => mkFI 0x4#6 d a i
  | .xori d a i => mkFI 0x5#6 d a i
  | .slti d a i => mkFI 0x6#6 d a i
  | .sltni d a i => mkFI 0x7#6 d a i
  | .muli d a i => mkFI 0x9#6 d a i
  | .movi d i => mkFI 0xA#6 d 0x0#5 i
  | .movh d a i => mkFI 0xB#6 d a i
  | .addpi d a i => mkFI 0xD#6 d a i
  | .slli d a s => mkFI 0x8#6 d a (0x0#10 ++ s)
  | .srli d a s => mkFI 0x8#6 d a (0x4#10 ++ s)
  | .srai d a s => mkFI 0x8#6 d a (0x8#10 ++ s)
  | .rori d a s => mkFI 0x8#6 d a (0xC#10 ++ s)
  | .addp d a b => mkF3 0xC#6 d a b 0x0#11
  | .subp d a b => mkF3 0xC#6 d a b 0x1#11
  | .tagget d a => mkF3 0xC#6 d a 0x0#5 0x2#11
  | .tagset d a b => mkF3 0xC#6 d a b 0x3#11
  | .pclr d a => mkF3 0xC#6 d a 0x0#5 0x4#11
  | .ldB t b s o => mkFM 0x10#6 t b s o
  | .ldBn t b s o => mkFM 0x11#6 t b s o
  | .ldH t b s o => mkFM 0x12#6 t b s o
  | .ldHn t b s o => mkFM 0x13#6 t b s o
  | .ldW t b s o => mkFM 0x14#6 t b s o
  | .ldWn t b s o => mkFM 0x15#6 t b s o
  | .ldD t b s o => mkFM 0x16#6 t b s o
  | .stB t b s o => mkFM 0x17#6 t b s o
  | .stH t b s o => mkFM 0x18#6 t b s o
  | .stW t b s o => mkFM 0x19#6 t b s o
  | .stD t b s o => mkFM 0x1A#6 t b s o
  | .vld t b s o => mkFM 0x1B#6 t b s o
  | .vst t b s o => mkFM 0x1C#6 t b s o
  | .ldAcq d a s n z => mkFQ 0x1D#6 d a 0x0#5 0x0#5 s (0x0#1 ++ n ++ z)
  | .stRel a b s z => mkFQ 0x1D#6 0x0#5 a b 0x1#5 s (0x0#2 ++ z)
  | .vldf v a m => mkFQ 0x1D#6 v a 0x0#5 0x2#5 0x0#2 (0x0#1 ++ m)
  | .vstf v a m => mkFQ 0x1D#6 v a 0x0#5 0x3#5 0x0#2 (0x0#1 ++ m)
  | .pref a l => mkFQ 0x1D#6 0x0#5 a 0x0#5 0x4#5 l 0x0#4
  | .prefResPin a b l => mkFQ 0x1D#6 0x0#5 a b 0x5#5 l 0x1#4
  | .prefResUnpin a b l => mkFQ 0x1D#6 0x0#5 a b 0x5#5 l 0x0#4
  | .fence s k => mkFQ 0x1D#6 0x0#5 0x0#5 0x0#5 0x6#5 s k
  | .l1inv a b => mkFQ 0x1D#6 0x0#5 a b 0x7#5 0x0#2 0x0#4
  | .l1wb a b => mkFQ 0x1D#6 0x0#5 a b 0x8#5 0x0#2 0x0#4
  | .atomAdd d a b z r => mkFQ 0x1E#6 d a b 0x0#5 z (r ++ 0x0#3)
  | .atomAnd d a b z r => mkFQ 0x1E#6 d a b 0x1#5 z (r ++ 0x0#3)
  | .atomOr d a b z r => mkFQ 0x1E#6 d a b 0x2#5 z (r ++ 0x0#3)
  | .atomXor d a b z r => mkFQ 0x1E#6 d a b 0x3#5 z (r ++ 0x0#3)
  | .atomSwap d a b z r => mkFQ 0x1E#6 d a b 0x4#5 z (r ++ 0x0#3)
  | .atomCas d a b z => mkFQ 0x1E#6 d a b 0x5#5 z 0x8#4
  | .atomMin d a b z r => mkFQ 0x1E#6 d a b 0x6#5 z (r ++ 0x0#3)
  | .atomMax d a b z r => mkFQ 0x1E#6 d a b 0x7#5 z (r ++ 0x0#3)
  | .atomMinn d a b z r => mkFQ 0x1E#6 d a b 0x8#5 z (r ++ 0x0#3)
  | .atomMaxn d a b z r => mkFQ 0x1E#6 d a b 0x9#5 z (r ++ 0x0#3)
  | .atomFadd d a b z r => mkFQ 0x1E#6 d a b 0xA#5 z (r ++ 0x0#3)
  | .brEq a b d => mkFM 0x20#6 a b 0x0#3 d
  | .brNe a b d => mkFM 0x20#6 a b 0x1#3 d
  | .brLt a b d => mkFM 0x20#6 a b 0x2#3 d
  | .brGe a b d => mkFM 0x20#6 a b 0x3#3 d
  | .brLtn a b d => mkFM 0x20#6 a b 0x4#3 d
  | .brGen a b d => mkFM 0x20#6 a b 0x5#3 d
  | .j d => mkFJ 0x21#6 d
  | .jl d => mkFJ 0x22#6 d
  | .jr a => mkF3 0x23#6 0x0#5 a 0x0#5 0x0#11
  | .jlr d a => mkF3 0x23#6 d a 0x0#5 0x1#11
  | .rpt n c d a b => mkFR 0x24#6 n c d a b 0x0#5
  | .waitc l s c t => mkFW 0x25#6 l s c t 0x0#2
  | .send => mkFQ 0x26#6 0x0#5 0x0#5 0x0#5 0x0#5 0x0#2 0x0#4
  | .sendC => mkFQ 0x26#6 0x0#5 0x0#5 0x0#5 0x1#5 0x0#2 0x0#4
  | .start a b => mkFQ 0x26#6 0x0#5 a b 0x2#5 0x0#2 0x0#4
  | .spawn a b => mkFQ 0x26#6 0x0#5 a b 0x3#5 0x0#2 0x0#4
  | .endAct => mkFQ 0x26#6 0x0#5 0x0#5 0x0#5 0x4#5 0x0#2 0x0#4
  | .yield => mkFQ 0x26#6 0x0#5 0x0#5 0x0#5 0x5#5 0x0#2 0x0#4
  | .migr a => mkFQ 0x26#6 0x0#5 a 0x0#5 0x6#5 0x0#2 0x0#4
  | .align => mkFQ 0x26#6 0x0#5 0x0#5 0x0#5 0x7#5 0x0#2 0x0#4
  | .chen a => mkFQ 0x26#6 0x0#5 a 0x0#5 0x8#5 0x0#2 0x0#4
  | .chdis a => mkFQ 0x26#6 0x0#5 a 0x0#5 0x9#5 0x0#2 0x0#4
  | .chpri a b => mkFQ 0x26#6 0x0#5 a b 0xA#5 0x0#2 0x0#4
  | .ralloc d a b => mkFQ 0x26#6 d a b 0xB#5 0x0#2 0x0#4
  | .rfree a => mkFQ 0x26#6 0x0#5 a 0x0#5 0xC#5 0x0#2 0x0#4
  | .tkill a => mkFQ 0x26#6 0x0#5 a 0x0#5 0xD#5 0x0#2 0x0#4
  | .sysrd d s => mkFS 0x27#6 d 0x0#5 s 0x0#4
  | .syswr a s => mkFS 0x27#6 0x0#5 a s 0x1#4
  | .trap c => mkFS 0x27#6 0x0#5 0x0#5 c 0x2#4
  | .irq a => mkFS 0x27#6 0x0#5 a 0x0#12 0x3#4
  | .vadd d a b m t => mkFV 0x28#6 d a b m t 0x0#5
  | .vsub d a b m t => mkFV 0x28#6 d a b m t 0x1#5
  | .vmul d a b m t => mkFV 0x28#6 d a b m t 0x2#5
  | .vmin d a b m t => mkFV 0x28#6 d a b m t 0x3#5
  | .vmax d a b m t => mkFV 0x28#6 d a b m t 0x4#5
  | .vabs d a m t => mkFV 0x28#6 d a 0x0#5 m t 0x5#5
  | .vneg d a m t => mkFV 0x28#6 d a 0x0#5 m t 0x6#5
  | .vdiv d a b m t => mkFV 0x28#6 d a b m t 0x7#5
  | .vsqrt d a m t => mkFV 0x28#6 d a 0x0#5 m t 0x8#5
  | .vminn d a b m t => mkFV 0x28#6 d a b m t 0x9#5
  | .vmaxn d a b m t => mkFV 0x28#6 d a b m t 0xA#5
  | .vadds d a b m t => mkFV 0x28#6 d a b m t 0xB#5
  | .vsubs d a b m t => mkFV 0x28#6 d a b m t 0xC#5
  | .vaddsn d a b m t => mkFV 0x28#6 d a b m t 0xD#5
  | .vsubsn d a b m t => mkFV 0x28#6 d a b m t 0xE#5
  | .vand d a b m t => mkFV 0x28#6 d a b m t 0x10#5
  | .vor d a b m t => mkFV 0x28#6 d a b m t 0x11#5
  | .vxor d a b m t => mkFV 0x28#6 d a b m t 0x12#5
  | .vsll d a b m t => mkFV 0x28#6 d a b m t 0x13#5
  | .vsrl d a b m t => mkFV 0x28#6 d a b m t 0x14#5
  | .vsra d a b m t => mkFV 0x28#6 d a b m t 0x15#5
  | .vmov d a m t => mkFV 0x28#6 d a 0x0#5 m t 0x18#5
  | .vsplat d a m t => mkFV 0x28#6 d a 0x0#5 m t 0x19#5
  | .vfma d a b m t => mkFV 0x29#6 d a b m t 0x0#5
  | .vfms d a b m t => mkFV 0x29#6 d a b m t 0x1#5
  | .vfnma d a b m t => mkFV 0x29#6 d a b m t 0x2#5
  | .vfnms d a b m t => mkFV 0x29#6 d a b m t 0x3#5
  | .vmac d a b m t => mkFV 0x29#6 d a b m t 0x4#5
  | .vceq d a b m t => mkFV 0x2A#6 (d.zeroExtend 5) a b m t 0x0#5
  | .vcne d a b m t => mkFV 0x2A#6 (d.zeroExtend 5) a b m t 0x1#5
  | .vclt d a b m t => mkFV 0x2A#6 (d.zeroExtend 5) a b m t 0x2#5
  | .vcle d a b m t => mkFV 0x2A#6 (d.zeroExtend 5) a b m t 0x3#5
  | .vcltn d a b m t => mkFV 0x2A#6 (d.zeroExtend 5) a b m t 0x4#5
  | .vclen d a b m t => mkFV 0x2A#6 (d.zeroExtend 5) a b m t 0x5#5
  | .vcun d a b m t => mkFV 0x2A#6 (d.zeroExtend 5) a b m t 0x6#5
  | .vsel d a b m t => mkFV 0x2A#6 d a b m t 0x8#5
  | .mand d a b => mkFV 0x2A#6 (d.zeroExtend 5) (a.zeroExtend 5) (b.zeroExtend 5) 0x0#3 0x0#3 0x10#5
  | .mor d a b => mkFV 0x2A#6 (d.zeroExtend 5) (a.zeroExtend 5) (b.zeroExtend 5) 0x0#3 0x0#3 0x11#5
  | .mxor d a b => mkFV 0x2A#6 (d.zeroExtend 5) (a.zeroExtend 5) (b.zeroExtend 5) 0x0#3 0x0#3 0x12#5
  | .mandn d a b => mkFV 0x2A#6 (d.zeroExtend 5) (a.zeroExtend 5) (b.zeroExtend 5) 0x0#3 0x0#3 0x13#5
  | .mnot d a => mkFV 0x2A#6 (d.zeroExtend 5) (a.zeroExtend 5) 0x0#5 0x0#3 0x0#3 0x14#5
  | .mset d a => mkFV 0x2A#6 (d.zeroExtend 5) a 0x0#5 0x0#3 0x0#3 0x15#5
  | .mget d a => mkFV 0x2A#6 d (a.zeroExtend 5) 0x0#5 0x0#3 0x0#3 0x16#5
  | .mpopc d a => mkFV 0x2A#6 d (a.zeroExtend 5) 0x0#5 0x0#3 0x0#3 0x17#5
  | .vperm d a b m t => mkFV 0x2B#6 d a b m t 0x0#5
  | .vzip d a b m t => mkFV 0x2B#6 d a b m t 0x1#5
  | .vunzip d a b m t => mkFV 0x2B#6 d a b m t 0x2#5
  | .vrotl d a b m t => mkFV 0x2B#6 d a b m t 0x3#5
  | .vext d a b t => mkFV 0x2B#6 d a b 0x0#3 t 0x4#5
  | .vins d a b t => mkFV 0x2B#6 d a b 0x0#3 t 0x5#5
  | .vrsum d a m t => mkFV 0x2B#6 d a 0x0#5 m t 0x10#5
  | .vrmin d a m t => mkFV 0x2B#6 d a 0x0#5 m t 0x11#5
  | .vrmax d a m t => mkFV 0x2B#6 d a 0x0#5 m t 0x12#5
  | .vrand d a m t => mkFV 0x2B#6 d a 0x0#5 m t 0x13#5
  | .vror d a m t => mkFV 0x2B#6 d a 0x0#5 m t 0x14#5
  | .vrxor d a m t => mkFV 0x2B#6 d a 0x0#5 m t 0x15#5
  | .vcvt d a s m t r => mkFV 0x2C#6 d a (s.zeroExtend 5) m t (0x0#2 ++ r)
  | .vcvts d a s m t r => mkFV 0x2C#6 d a (s.zeroExtend 5) m t (0x1#2 ++ r)
  | .vqnt d a x m t r => mkFV 0x2C#6 d a (x.zeroExtend 5) m t (0x2#2 ++ r)
  | .vdqnt d a x m t r => mkFV 0x2C#6 d a (x.zeroExtend 5) m t (0x3#2 ++ r)
  | .vdot d a b m t => mkFV 0x2D#6 d a b m t 0x0#5
  | .vdotSp d a b m t => mkFV 0x2D#6 d a b m t 0x1#5
  | .fadd d a b t r => mkFV 0x2E#6 d a b t r 0x0#5
  | .fsub d a b t r => mkFV 0x2E#6 d a b t r 0x1#5
  | .fmul d a b t r => mkFV 0x2E#6 d a b t r 0x2#5
  | .fdiv d a b t r => mkFV 0x2E#6 d a b t r 0x3#5
  | .fsqrt d a t r => mkFV 0x2E#6 d a 0x0#5 t r 0x4#5
  | .fma d a b t r => mkFV 0x2E#6 d a b t r 0x5#5
  | .fmin d a b t => mkFV 0x2E#6 d a b t 0x0#3 0x6#5
  | .fmax d a b t => mkFV 0x2E#6 d a b t 0x0#3 0x7#5
  | .fceq d a b t => mkFV 0x2E#6 d a b t 0x0#3 0x8#5
  | .fclt d a b t => mkFV 0x2E#6 d a b t 0x0#3 0x9#5
  | .fcle d a b t => mkFV 0x2E#6 d a b t 0x0#3 0xA#5
  | .fabs d a t => mkFV 0x2E#6 d a 0x0#5 t 0x0#3 0xB#5
  | .fneg d a t => mkFV 0x2E#6 d a 0x0#5 t 0x0#3 0xC#5
  | .fclass d a t => mkFV 0x2E#6 d a 0x0#5 t 0x0#3 0xD#5
  | .ftoi d a t r => mkFV 0x2E#6 d a 0x0#5 t r 0x10#5
  | .fton d a t r => mkFV 0x2E#6 d a 0x0#5 t r 0x11#5
  | .itof d a t r => mkFV 0x2E#6 d a 0x0#5 t r 0x12#5
  | .ntof d a t r => mkFV 0x2E#6 d a 0x0#5 t r 0x13#5
  | .fcvt d a s t r => mkFV 0x2E#6 d a (s.zeroExtend 5) t r 0x14#5
  | .dtwr a b => mkF3 0x2F#6 0x0#5 a b 0x0#11
  | .dtrd d a => mkF3 0x2F#6 d a 0x0#5 0x1#11
  | .ftwr a b => mkF3 0x2F#6 0x0#5 a b 0x2#11
  | .ftrd a b => mkF3 0x2F#6 0x0#5 a b 0x3#11
  | .dtmode a => mkF3 0x2F#6 0x0#5 a 0x0#5 0x4#11
  | .twait d a => mkFQ 0x30#6 d a 0x0#5 0x0#5 0x0#2 0x0#4
  | .tstat d a => mkFQ 0x30#6 d a 0x0#5 0x1#5 0x0#2 0x0#4
  | .tstatR d a => mkFQ 0x30#6 d a 0x0#5 0x1#5 0x0#2 0x1#4
  | .tcancel a => mkFQ 0x30#6 0x0#5 a 0x0#5 0x2#5 0x0#2 0x0#4
  | .tfence c => mkFQ 0x30#6 0x0#5 0x0#5 0x0#5 0x3#5 0x0#2 c
  | .tresume a => mkFQ 0x30#6 0x0#5 a 0x0#5 0x4#5 0x0#2 0x0#4
  | .trec a b => mkFQ 0x30#6 0x0#5 a b 0x5#5 0x0#2 0x0#4
  | .tdet a => mkFQ 0x30#6 0x0#5 a 0x0#5 0x6#5 0x0#2 0x0#4
  | .cpy d a b x p n k => mkFE 0x31#6 d a b 0x0#4 x p n k 0x0#2
  | .cpyX d a b x p n k => mkFE 0x31#6 d a b 0x1#4 x p n k 0x0#2
  | .cpySp d a b x p n k => mkFE 0x31#6 d a b 0x2#4 x p n k 0x0#2
  | .cpyR d a b x p n k => mkFE 0x31#6 d a b 0x3#4 x p n k 0x0#2
  | .cpyF d a b x p n k => mkFE 0x31#6 d a b 0x4#4 x p n k 0x0#2
  | .mmx d a b x p n k => mkFE 0x32#6 d a b 0x0#4 x p n k 0x0#2
  | .mmxA d a b x p n k => mkFE 0x32#6 d a b 0x1#4 x p n k 0x0#2
  | .phld d a b x p n k => mkFE 0x33#6 d a b 0x0#4 x p n k 0x0#2
  | .phdec d a b x p n k => mkFE 0x33#6 d a b 0x1#4 x p n k 0x0#2
  | .phswp d a b x p n k => mkFE 0x33#6 d a b 0x2#4 x p n k 0x0#2
  | .phres d a b x p n k => mkFE 0x33#6 d a b 0x3#4 x p n k 0x0#2
  | .phdrop d a b x p n k => mkFE 0x33#6 d a b 0x4#4 x p n k 0x0#2
  | .tcopy d a b x p n k => mkFE 0x34#6 d a b 0x0#4 x p n k 0x0#2
  | .tcopyBp d a b x p n k => mkFE 0x34#6 d a b 0x1#4 x p n k 0x0#2
  | .tcopyAcc d a b x p n k => mkFE 0x34#6 d a b 0x2#4 x p n k 0x0#2
  | .binit a b => mkFQ 0x35#6 0x0#5 a b 0x0#5 0x0#2 0x0#4
  | .barr a b => mkFQ 0x35#6 0x0#5 a b 0x1#5 0x0#2 0x0#4
  | .bwait d a => mkFQ 0x35#6 d a 0x0#5 0x2#5 0x0#2 0x0#4
  | .bnote a b => mkFQ 0x35#6 0x0#5 a b 0x3#5 0x0#2 0x0#4
  | .bwdraw a => mkFQ 0x35#6 0x0#5 a 0x0#5 0x4#5 0x0#2 0x0#4
  | .bstat d a => mkFQ 0x35#6 d a 0x0#5 0x5#5 0x0#2 0x0#4
  | .bbytes a b => mkFQ 0x35#6 0x0#5 a b 0x6#5 0x0#2 0x0#4
  | .blink a b => mkFQ 0x35#6 0x0#5 a b 0x7#5 0x0#2 0x0#4
  | .bbind a b => mkFQ 0x35#6 0x0#5 a b 0x8#5 0x0#2 0x0#4
  | .gjoin d a b x p n k => mkFE 0x36#6 d a b 0x0#4 x p n k 0x0#2
  | .gleave d a b x p n k => mkFE 0x36#6 d a b 0x1#4 x p n k 0x0#2
  | .cred d a b x p n k => mkFE 0x36#6 d a b 0x2#4 x p n k 0x0#2
  | .cbcast d a b x p n k => mkFE 0x36#6 d a b 0x3#4 x p n k 0x0#2
  | .cgath d a b x p n k => mkFE 0x36#6 d a b 0x4#4 x p n k 0x0#2
  | .crscat d a b x p n k => mkFE 0x36#6 d a b 0x5#4 x p n k 0x0#2
  | .ca2a d a b x p n k => mkFE 0x36#6 d a b 0x6#4 x p n k 0x0#2
  | .semadd a b => mkFQ 0x37#6 0x0#5 a b 0x0#5 0x0#2 0x0#4
  | .semset a b => mkFQ 0x37#6 0x0#5 a b 0x1#5 0x0#2 0x0#4
  | .semrd d a => mkFQ 0x37#6 d a 0x0#5 0x2#5 0x0#2 0x0#4
  | .semwait a b => mkFQ 0x37#6 0x0#5 a b 0x3#5 0x0#2 0x0#4
  | .semwaitN a b c => mkFQ 0x37#6 0x0#5 a b 0x4#5 (c.extractLsb' 4 2) (c.extractLsb' 0 4)
  | .circ d a b x p n k => mkFE 0x38#6 d a b 0x0#4 x p n k 0x0#2
  | .circT d a b x p n k => mkFE 0x38#6 d a b 0x1#4 x p n k 0x0#2
  | .famwr d a b x p n k => mkFE 0x38#6 d a b 0x2#4 x p n k 0x0#2
  | .pgate d a b x p n k => mkFE 0x38#6 d a b 0x3#4 x p n k 0x0#2
  | .pwake d a b x p n k => mkFE 0x38#6 d a b 0x4#4 x p n k 0x0#2
  | .ext i => mkFJ 0x3E#6 i
  | .lateStoreFault _ _ => 0x0#32
  | .deferredFault _ => 0x0#32
  | .budgetExpiry _ => 0x0#32
  | .waittimeExpiry _ => 0x0#32
  | .messageArrival _ => 0x0#32
  | .channelSelection _ => 0x0#32
  | .spillActivation _ => 0x0#32
  | .replayActivation _ => 0x0#32
  | .atomicHandlerActivation _ => 0x0#32
  | .loadReply _ _ => 0x0#32
  | .storeAck _ _ => 0x0#32
  | .forwardingEntryExpiry _ _ => 0x0#32
  | .alignRelease _ => 0x0#32
  | .channelControlPacket _ => 0x0#32
  | .remoteLoad _ => 0x0#32
  | .remoteStore _ => 0x0#32
  | .storeBufferDrain _ _ => 0x0#32
  | .l2StoreAccept _ => 0x0#32
  | .translationWalk _ _ _ => 0x0#32
  | .regionReclaim _ _ => 0x0#32
  | .builtinAtomic _ => 0x0#32
  | .atomicReply _ _ => 0x0#32
  | .cohLocalRead _ => 0x0#32
  | .cohLocalWrite _ => 0x0#32
  | .cohGets _ _ => 0x0#32
  | .cohGetx _ _ => 0x0#32
  | .cohEviction _ _ _ _ => 0x0#32
  | .cohProbe _ _ => 0x0#32
  | .cohTransactionComplete _ _ _ => 0x0#32
  | .probeTimeout _ _ => 0x0#32
  | .xinv _ _ => 0x0#32
  | .xinvComplete => 0x0#32
  | .pageMove _ => 0x0#32
  | .pageMoveCheck => 0x0#32
  | .transientDeadline _ => 0x0#32
  | .transientRearm _ => 0x0#32
  | .deadlineWrite _ _ => 0x0#32
  | .remapError _ _ _ _ => 0x0#32
  | .refreshPreemption _ => 0x0#32
  | .memoryEccError _ _ _ => 0x0#32
  | .rasFoldExpiry _ _ => 0x0#32
  | .copySchedule _ => 0x0#32
  | .copyChunk _ _ => 0x0#32
  | .copyBeat _ _ _ => 0x0#32
  | .cancelAtEngine _ _ => 0x0#32
  | .opTerminal _ _ => 0x0#32
  | .engineInboxEntry _ _ => 0x0#32
  | .laneDispatch _ _ => 0x0#32
  | .migration _ _ _ => 0x0#32
  | .mmxCompletion _ => 0x0#32
  | .phldExecution _ => 0x0#32
  | .phdecExecution _ => 0x0#32
  | .backBankLoad _ => 0x0#32
  | .phresExecution _ => 0x0#32
  | .phswpExecution _ => 0x0#32
  | .phdropExecution _ => 0x0#32
  | .tcopyBpExecution _ => 0x0#32
  | .tcopyAccExecution _ => 0x0#32
  | .trimApply _ => 0x0#32
  | .deckStateApply _ _ => 0x0#32
  | .probeCalibration _ _ _ _ => 0x0#32
  | .matSwitchTimeout _ _ => 0x0#32
  | .barrierEvent _ => 0x0#32
  | .parentFlip _ => 0x0#32
  | .groupExchangeRound _ _ _ _ _ _ => 0x0#32
  | .groupWithdrawal _ _ => 0x0#32
  | .collectiveStart _ => 0x0#32
  | .collectiveComplete _ _ => 0x0#32
  | .collectiveDrainTimeout _ _ => 0x0#32
  | .packetArrival _ _ _ => 0x0#32
  | .packetAck _ _ => 0x0#32
  | .packetRetry _ => 0x0#32
  | .packetLifetimeExpiry _ => 0x0#32
  | .deadTagExpiry _ => 0x0#32
  | .circExecution _ _ => 0x0#32
  | .setupRequest _ _ _ _ => 0x0#32
  | .setupAnswer _ _ _ => 0x0#32
  | .setupBackoffExpiry _ => 0x0#32
  | .circuitTrained _ _ => 0x0#32
  | .teardownReceived _ => 0x0#32
  | .circTExecution _ _ => 0x0#32
  | .famwrExecution _ _ => 0x0#32
  | .drainMarkerAck _ _ => 0x0#32
  | .pgateExecution _ _ => 0x0#32
  | .pwakeExecution _ _ => 0x0#32
  | .laserLoss _ => 0x0#32
  | .laserRelight _ => 0x0#32
  | .tkillPurge _ _ => 0x0#32
  | .tkillComplete _ => 0x0#32
  | .jobSwitch _ => 0x0#32
  | .jobSwitchComplete => 0x0#32
  | .launch _ => 0x0#32
  | .jobend _ => 0x0#32
  | .activeMessageBlock _ _ _ _ => 0x0#32
  | .memoryWindowWrite _ _ _ => 0x0#32
  | .memoryWindowRead _ _ => 0x0#32
  | .semUnitOp _ => 0x0#32
  | .semvalWrite _ _ => 0x0#32
  | .semincWrite _ _ => 0x0#32
  | .msixUnmask _ => 0x0#32
  | .checkpoint _ => 0x0#32
  | .checkpointComplete _ => 0x0#32
  | .packageReset => 0x0#32
  | .pcieLinkTraining _ _ => 0x0#32
  | .monitorSample _ _ _ => 0x0#32
  | .tempRecordTimer _ => 0x0#32
  | .ringWrite _ _ _ _ => 0x0#32
  | .ringmoveWrite _ _ _ => 0x0#32
  | .ringMoveApply _ _ => 0x0#32
  | .wearMove _ _ _ _ => 0x0#32
  | .deckctlWrite _ _ => 0x0#32
  | .powerAlert _ => 0x0#32
  | .thringWrite _ => 0x0#32
  | .scrub _ _ _ => 0x0#32
  | .bootgo _ => 0x0#32
  | .firmwareReady => 0x0#32
  | .svnburn _ => 0x0#32
  | .attestationGo _ => 0x0#32
  | .attestationDone => 0x0#32
  | .readClear _ => 0x0#32
  | .registerWrite _ _ _ => 0x0#32
  | .illegalInstruction _ => 0x0#32
  | .instructionFetchFault _ => 0x0#32
  | .laserModuleRelit _ => 0x0#32

end Sys2Proof
end

