-- ==== Sys2Proof/Config.lean ====
section
/-!
DEFINITION. What one implementation fixes and the manual leaves open: free values (uninterpreted constants, no body),
each named in the assumption log.
-/
namespace Sys2Proof.Config

/-- Victim of an L1 fill among the unpinned ways (R183: the policy is not specified). Log entry 12. -/
opaque l1Victim : Nat → Nat
/-- Whether a translation-cache entry is still there at an access (R200: replacement is not specified). Log entry 12. -/
opaque tlbKeeps : Nat → Bool
/-- Victim of a full translation cache (R200). Log entry 12. -/
opaque tlbVictim : Nat → Nat
/-- Whether a hint finds its core's request queue full (R191: when that is is not specified). Log entry 12. -/
opaque hintQueueFull : Nat → Bool
/-- The digitiser codes of an output of a vector (R264), each an integer from -2,048 to 2,047 in 12 bits, of the codes that the decks
are driven with (R270). The model holds what they sum to within the bound of R280. Log entry 14. -/
opaque digitiser : List (BitVec 16) → Nat → BitVec 3072
/-- The 8,192 phase codes of a decomposed slice (R272), a function of the folded slice block. The model holds them within the bound of
R272. Log entry 15. -/
opaque herringCodes : List (BitVec 32) → BitVec 131072
/-- Scale of a decomposed slice (R272), a function of the folded slice block, held within its interval. Log entry 15. -/
opaque herringScale : List (BitVec 32) → BitVec 32
/-- The Herringbone revision (R272). Log entry 15. -/
opaque herringRev : BitVec 4
/-- Code x of a back bank whose load was stopped (R298: contents unpredictable). Log entry 15. -/
opaque bankRemains : Nat → BitVec 16
/-- Whether a stopped phase command had begun to write its entry or its bank (R298: at which point it stops is not
specified). Log entry 15. -/
opaque phWriting : Nat → Bool
/-- NPOISON of a checkpoint that meets more poisoned lines than the field counts (R391). Log entry 36. -/
opaque ckptOver : BitVec 32
/-- Which heater code a sample reflects, of those that it may (R394). Log entry 28. -/
opaque heatSeen : Nat → Nat
/-- Which reference wavelength a sample reflects, of those that it may (R394, R436). Log entry 28. -/
opaque refSeen : Nat → Nat
/-- The tuning error, past its sign, of a ring whose error lies outside the register's range (R393). Log entry 28. -/
opaque errBeyond : Nat → Nat
/-- The optical power of a lit laser module in mW (R404). Log entry 28. -/
opaque laserPower : Nat → BitVec 16
/-- The scrub share measured over a millisecond (R404, R407), which the model holds within its bound. Log entry 28. -/
opaque scrubShare : Nat → Nat
/-- The probe share (R404, R407). Log entry 28. -/
opaque calShare : Nat → Nat
/-- The telemetry share (R404, R407). Log entry 28. -/
opaque telShare : Nat → Nat
/-- The budget that service firmware sets for an activation on a channel of a service core (R380). Log entry 10. -/
opaque serviceBudget : Nat → Nat → Nat → BitVec 32
/-- The ASID of service firmware's own address space (R143, R380: the spec names none). Log entry 10. -/
opaque svcAsid : BitVec 16
/-- The root of a region of service firmware's own address space (R196, R380). Log entry 10. -/
opaque svcRoot : Nat → Word
/-- Extra passes that a deck had run when its command was stopped (R282, R302: not specified). Log entry 14. -/
opaque passesRun : Nat → Nat
/-- Whether a deck that goes OFF had done its last pass (R276: when that is is not specified). Log entry 14. -/
opaque deckDone : Nat → Bool
/-- Whether a stopped matrix command had completed a vector (R302: at which point it stops is not specified). Log entry 14. -/
opaque vectorDone : Nat → Bool
/-- An engine's estimated wait in ns (R277, R282: how it is estimated is not specified). Log entry 14. -/
opaque engineWait : Nat → BitVec 32
/-- The payload of a group phase whose barriers hold different operations (R317: not stated). Log entry 26. -/
opaque mixedPay : Nat → Word
/-- Which of two matching resident entries is used (R269, R294). Log entry 15. -/
opaque imageChoice : Nat → Nat
/-- Whether an in-flight packet of a killed task is performed (R353: unpredictable). Log entry 20. -/
opaque killedPacketLands : Nat → Bool
/-- Whether an overlapped copy reads its own write (R224: unpredictable). Log entry 13. -/
opaque overlapReadsNew : Nat → Bool
/-- Whether a beat already issued is performed when its operation stops (R249, R250). Log entry 13. -/
opaque beatLands : Nat → Bool
/-- A byte that another package holds and that comes from there: of a line that the Kamlan itself recalls (R206; log entry
17), and of a far member's block in a collective that the copying member has left (R224; log entry 26). -/
opaque recalled : Nat → Byte
/-- Whether the members that hold a line answer the probes of a transaction that the model makes in one step (R207). Log entry 17. -/
opaque probeAnswered : Nat → Bool
/-- The member that stayed silent where the line's metadata names none (R207, R365). Log entry 17. -/
opaque silentMember : Nat → Nat
/-- Whether a copy that such a transaction brings is exclusive, and whether it brings poison (R206, R207). Log entry 17. -/
opaque copyExclusive : Nat → Bool
/-- See `copyExclusive`. -/
opaque copyPoison : Nat → Bool
/-- Which line of a full remote-line share is replaced (R28, R203: the choice is not specified). Log entry 12. -/
opaque copyVictim : Nat → Nat
/-- Whether the frames of another member's page lie in a live window of that member (R198). Log entry 17. -/
opaque farWindow : Nat → Bool
/-- The byte of a new frame after a page move that ends DIRTY or FAULT (R214: unpredictable). Log entry 13. -/
opaque dirtyFrame : Nat → Byte
/-- The port that a STALL event names (R331, R334: not stated). Log entry 27. -/
opaque stallPort : Nat → Nat
/-- The time of the flip in the notice of a barrier that has not flipped since BINIT (log entry 48). -/
opaque noFlipTime : Nat → Word
/-- Word 0 of an active-message write too short to hold it, as AMERR shows it (R374: not stated). Log entry 36. -/
opaque amWord : Nat → Word
/-- Fields of the RAS record of a checkpoint that fails: SOURCE, SEV, UNIT, ADDR, EXTENT and a word of DETAIL (R392: it is sent, and
R365 lists no source for it). Log entry 36. -/
opaque ckptRas : Nat → Nat
/-- Lines that a checkpoint had sent when it ended FAULTED (R392: not stated). Log entry 36. -/
opaque ckptSent : Nat → Nat
/-- A byte of the slots of a save area (R360: laid out in the Kamlan's own format). Log entry 17. -/
opaque slotByte : Nat → Byte
/-- The device serial number (R408, fused). Log entry 16. -/
opaque serial : Word
/-- SHA-256 of vendor key k (R408, fused). Log entry 16. -/
opaque keyHash : Nat → BitVec 256
/-- The revoked vendor keys (R408, fused). Log entry 16. -/
opaque keyRevoke : BitVec 4
/-- The least security version before any SVNBURN (R408, fused). Log entry 16. -/
opaque svnFused : BitVec 32
/-- The device public key (R408). Log entry 16. -/
opaque devPub : BitVec 512
/-- Byte i of the device certificate (R408). Log entry 16. -/
opaque devCert : Nat → Byte
/-- The device's signature of a digest (R413). Log entry 16. -/
opaque deviceSign : BitVec 256 → Nat → BitVec 512

end Sys2Proof.Config
end

