-- ==== Sys2Proof/Machine/State.lean ====
section
/-!
DEFINITION. The state of one Kamlan package (R13 to R28) as plain data, its reset value (R8), and the names of the
reasons a step can stop. Tables are sparse: a key that is not listed holds the default that the reading operation names.
A context's key is core x 8 + context (R90), a channel's core x 64 + channel (R95), a barrier's core x 1,024 + index
(R304), a token slot's core x 128 + slot (R233), a deck's engine x 4 + deck (R7).
-/
namespace Sys2Proof.Machine

/-- Reasons to stop with a fault. No meaning of this model raises one: every error the manual names is a trap, a status,
a record or a message (R341), so a step is never stopped for it (safe). -/
inductive Fault where
  /-- Raised by no meaning: kept because the interface has a fault outcome (safe). -/
  | none
  deriving DecidableEq, Repr

/-- Reasons to refuse. -/
inductive Refusal where
  /-- An arm of the dispatcher without a meaning (safe: nothing follows from it). -/
  | notModelled (mnemonic : String)
  deriving DecidableEq, Repr

/-- A transfer awaiting its delay slots (R39): how many remain, and where control goes after them. -/
structure Delay where
  left : Nat
  dest : BitVec 52
  deriving DecidableEq, Repr

/-- A frame in replay (R41): its address, words, staggers, iterations, and the place reached. -/
structure Rpt where
  base : BitVec 52
  frame : List IWord
  count : Nat
  sd : Int
  sa : Int
  sb : Int
  iter : Nat
  slot : Nat
  deriving DecidableEq, Repr

/-- An eight-word message with its network envelope: the ASID (R362), the sending package's index (R91), and the counted
operation that falls when the message is queued or discarded (R382, R353). -/
structure Msg where
  words : Vector Word 8
  asid : BitVec 16
  pkg : BitVec 12
  ackKey : Nat
  ackId : Nat
  /-- Its activation acquires (R222, R387). -/
  acq : Bool
  /-- A START that creates its task (R102, R103). -/
  newTask : Bool
  deriving DecidableEq, Repr

/-- Where a load's bytes go (R180, R189). -/
inductive Dst where
  /-- Nowhere: the operation counts in ST. -/
  | none
  /-- g[t], extended by sign or by zero (R51). -/
  | g (t : Reg) (signed : Bool)
  /-- v[t] whole (R51). -/
  | v (t : Reg)
  /-- Active lanes of v[t] of a container of the given bytes, under a mask (R189). -/
  | lanes (t : Reg) (bytes : Nat) (mask : Word)
  /-- Active FP32 lanes of v[t] from 16 codes and their scales (R189): the tag's kind, the entry, the mask, the
  rounding mode and generator captured at issue, the decode table captured at issue. -/
  | conv (t : Reg) (kind : Nat) (entry : BitVec 256) (mask : Word) (frm : Fld3) (seed : Word)
      (dt : List (BitVec 19)) (mode : Bool)
  /-- An atomic's old value and flags to g[t] (R229). -/
  | old (t : Reg) (bytes : Nat)
  deriving DecidableEq, Repr

/-- What has come back for an outstanding operation. -/
inductive Reply where
  | bytes (b : List Byte)
  | old (v : Word) (flags : BitVec 5)
  | done
  | fault (cause : BitVec 8) (addr : Word)
  /-- Discarded with an acknowledgement that writes nothing (R353). -/
  | nothing
  deriving DecidableEq, Repr

/-- How an outstanding operation travels. -/
inductive Route where
  /-- A bank of the issuing core (R170). -/
  | bank
  /-- A packet to another core's scratchpad (R186). -/
  | remote
  /-- The L1, the store buffer and the memory side (R183, R184). -/
  | dram
  /-- An atomic on its way to the owner of its address (R227). -/
  | atomic
  /-- A message, a START or a fan-out on its way to its channel queues (R218). -/
  | send
  /-- A unit that answers by itself: barrier, semaphore, interrupt, record. -/
  | unit
  deriving DecidableEq, Repr

/-- An operation outstanding in a context (R177 to R180, R187): the bytes it reads or writes (`addrs`), what it has yet
to write to the core's own banks (`cells`), how many of its parts are unanswered, the answer so far, and the PC and word that a deferred fault names. `acq` is 0 for a plain operation, 1 for an
acquire that only holds back (CORE scope), 2 for one that also empties the L1 (R226). -/
structure Pend where
  id : Nat
  load : Bool
  route : Route
  dst : Dst
  addrs : List Nat
  cells : List Host.Cell
  parts : Nat
  reply : Option Reply
  acq : Nat
  /-- Counted in LD or ST; SEND, START and SPAWN at CORE scope are waited for by fences alone (R218). -/
  counted : Bool
  pc : BitVec 52
  word : IWord
  /-- The address that a fault names. -/
  ea : Word
  /-- SERIAL of an atomic's message, by which its reply finds it (R97, R229). -/
  serial : BitVec 14
  /-- The cycle of its issue (R111). -/
  born : Nat := 0
  deriving DecidableEq, Repr

/-- A message in an inbox slot (R93): its arrival number, channel, MSGID, and whether an activation runs it. -/
structure Slot where
  id : Nat
  msg : Msg
  chan : Nat
  msgid : Word
  busy : Bool
  deriving DecidableEq, Repr

/-- What a blocked context has been given by the event that released it (R253, R310, R388). -/
inductive Wake where
  | twait (word0 : Word) (fabric : Bool)
  | bwait (pay : Word) (fabric : Bool)
  | sem
  | built
  deriving DecidableEq, Repr

/-- What a blocked context is registered for. -/
inductive Await where
  | nothing
  | token (core slot gen : Nat)
  | barrier (key phase : Nat)
  | sem (n : Nat) (thr : Word)
  | kill (n : Nat)
  /-- Stores of the core sent to L2 before this number (R226). -/
  | fence (upTo : Nat)
  deriving DecidableEq, Repr

/-- Phases of a context (R88, R343). -/
inductive Phase where
  | free
  | run
  | drain
  deriving DecidableEq, Repr

/-- A deferred fault that has reached its context (R187). -/
structure Deferred where
  cause : BitVec 8
  addr : Word
  access : Pend
  deriving DecidableEq, Repr

/-- A barrel context (R90, R91, R139). -/
structure Ctx where
  phase : Phase
  pc : BitVec 52
  delay : Option Delay
  rpt : Option Rpt
  /-- The word in execution and its length in bytes, 8 under EXT (R36). -/
  ir : IWord
  ilen : BitVec 52
  /-- The EXT before the word in execution (R34). -/
  ext : Option (BitVec 26)
  /-- The word has been fetched for issue and has not ended. -/
  fetched : Bool
  g : Vector Word 32
  v : Vector VWord 32
  m : Vector Word 8
  q : Vector Word 8
  w : Vector Word 8
  ld : Nat
  st : Nat
  cp : Nat
  tl : Nat
  fflags : BitVec 5
  frm : Fld3
  seed : Word
  taskTag : BitVec 16
  parent : BitVec 16
  msgid : Word
  chan : Nat
  budget : BitVec 32
  budgetLeft : BitVec 32
  waitLimit : BitVec 32
  /-- The number of the activation, by which child operations know their issuer (R178, R255). -/
  act : Nat
  /-- The inbox slot of the triggering message; none for a replay activation (R348). -/
  slot : Option Nat
  /-- Messages of SEND.C, oldest first (R101). -/
  buffered : List Msg
  pend : List Pend
  deferred : List Deferred
  /-- The instruction at pc waits; blocking waits are bounded by WAITLIMIT (R179, R356). -/
  waiting : Bool
  blocking : Bool
  waited : Nat
  await : Await
  wake : Option Wake
  awaitTok : BitVec 32
  /-- The record of the trap that is draining (R343, R347). -/
  trapRec : BitVec 512
  /-- The atomic request that context 6 handles (R232). -/
  atomKey : Nat
  atomId : Nat
  deriving DecidableEq, Repr

/-- A forwarding entry (R106). -/
structure Fwd where
  ctx : Nat
  /-- The CONT's task. -/
  tag : BitVec 16
  dest : Nat
  serial : BitVec 14
  /-- The replies still owed: the load and its destination. -/
  owed : List Pend
  born : Nat
  /-- The number of the continuing activation, once it has started. -/
  heir : Option Nat := none
  deriving DecidableEq, Repr

/-- One line of an L1 (R183, R199). -/
structure L1Line where
  line : Nat
  asid : BitVec 16
  data : VWord
  rd : Bool
  wr : Bool
  deriving DecidableEq, Repr

/-- An entry of a store buffer (R184): a line, its bytes written, and the stores that wait for it. -/
structure SbEntry where
  line : Nat
  asid : BitVec 16
  cells : List Host.Cell
  stores : List (Nat × Nat)
  born : Nat
  svc : Bool
  deriving DecidableEq, Repr

/-- A store on its way from a core to L2 (R203). -/
structure L2Store where
  id : Nat
  core : Nat
  cells : List Host.Cell
  stores : List (Nat × Nat)
  vline : Nat
  asid : BitVec 16
  deriving DecidableEq, Repr

/-- An entry of the range scoreboard (R181): the token slot that holds it and the bytes. -/
structure Guard where
  slot : Nat
  lo : Nat
  hi : Nat
  deriving DecidableEq, Repr

/-- A task recorded at a core (R89, R102). -/
structure TaskRec where
  tag : BitVec 16
  parent : BitVec 16
  /-- The package (by its job-relative index) and the core of the creator, and the foster channel. -/
  pkg : Nat
  creator : Nat
  foster : Nat
  /-- The nearest ancestor that is alive (R245): the parent, until it is killed. -/
  heir : BitVec 16
  deriving DecidableEq, Repr

/-- The state that a core holds beside its tables (R143, R183, R184). -/
structure Core where
  asid : BitVec 16
  hasJob : Bool
  /-- The context that issued last (R92). -/
  rr : Nat
  /-- LAST (R96). -/
  last : Nat
  serial : BitVec 14
  aflags : BitVec 5
  trapCause : BitVec 8
  trapPc : BitVec 52
  trapMsg : Word
  trapAddr : Word
  hintDrop : BitVec 32
  dropKind : BitVec 32
  collieFull : BitVec 32
  fwdLate : BitVec 32
  thsel : BitVec 12
  /-- Barriers allotted to the job on this core (R305). -/
  nb : Nat
  inbox : List Slot
  fwds : List Fwd
  l1 : List L1Line
  /-- Lines marked resident at L1 (R190): ASID and line. -/
  pins : List (BitVec 16 × Nat)
  sb : List SbEntry
  guards : List Guard
  tasks : List TaskRec
  /-- The decode table, its mode and its order bit (R129, R137). -/
  dt : List (BitVec 19)
  dmode : Bool
  ord : Bool
  /-- The format table (R124). -/
  ft : Tab (BitVec 256)
  /-- Armed notes of this core's barriers (R311). -/
  notes : Nat
  /-- Forwarded replies that wait with a CONT which has not started (R106): its SRC and SERIAL, and the reply. -/
  late : List (Nat × BitVec 14 × Pend)
  deriving DecidableEq, Repr

/-- A handler-table entry (R95). QLEN is counted from the inbox. -/
structure Chan where
  entry : BitVec 50
  prio : BitVec 2
  enable : Bool
  allot : Bool
  atomh : Bool
  spill : Bool
  age : Nat
  deriving DecidableEq, Repr

/-- Origin of a region (R171). -/
inductive Origin where
  | launch
  | ralloc
  deriving DecidableEq, Repr

/-- A region-table entry (R171). `reclaim` is 0 for a live region, 1 while its reclaim waits for the scoreboard, 2 while
its banks are being zeroed and it is no longer VALID (R174). -/
structure Region where
  first : Nat
  nbank : Nat
  origin : Origin
  task : BitVec 16
  asid : BitVec 16
  reclaim : Nat
  deriving DecidableEq, Repr

/-- States of a token slot (R235). -/
inductive TokState where
  | free
  | pending
  | queued
  | running
  | suspended
  | done
  | faulted
  | cancelled
  deriving DecidableEq, Repr

/-- The forms of child operations (R68). -/
inductive Form where
  | cpy | cpyX | cpySp | cpyR | cpyF
  | mmx | mmxA | phld | phdec | phswp | phres | phdrop | tcopy | tcopyBp | tcopyAcc
  | gjoin | gleave | cred | cbcast | cgath | crscat | ca2a
  | circ | circT | famwr | pgate | pwake
  deriving DecidableEq, Repr

/-- A beat of destination bytes that has been issued and not yet performed (R248 to R251). -/
structure Beat where
  /-- The virtual address of its first byte. -/
  va : Nat
  cells : List Host.Cell
  deriving DecidableEq, Repr

/-- A token slot with what its operation captured at issue (R237) and its progress. -/
structure Op where
  state : TokState
  gen : BitVec 13
  form : Form
  record : BitVec 512
  asid : BitVec 16
  task : BitVec 16
  pri : Nat
  det : Bool
  ntf : Bool
  bar : Bool
  /-- The context and activation that issued it, and the issue number. -/
  key : Nat
  act : Nat
  seq : Nat
  svc : Bool
  frm : Fld3
  /-- The captured tables (R135). -/
  dt : List (BitVec 19)
  dmode : Bool
  srcEntry : BitVec 256
  dstEntry : BitVec 256
  /-- The after-token's slot and generation, while PENDING (R239). -/
  after : Option (Nat × Nat)
  cause : BitVec 8
  status : BitVec 8
  word2 : Word
  word3 : Word
  unit : BitVec 12
  /-- Elements carried out (the resume point), bytes performed, the generator (R249, R119). -/
  prog : Nat
  bytes : Nat
  rng : Word
  beats : List Beat
  /-- Bytes performed and not yet counted at the barrier (R251). -/
  heldBytes : Nat
  /-- The map of R134 so far. -/
  conv : Word
  /-- A cancellation that has not yet taken effect, by its cause; 0 for none (R250). -/
  cancel : BitVec 8
  /-- Fostered: the adopting task, and the package, core and channel of the notice (R245). -/
  foster : Option (BitVec 16 × Nat × Nat × Nat)
  /-- In the engine inbox, and its arrival there (R271). -/
  inbox : Bool
  arrived : Nat
  /-- The destination package bound by a CPY.R to another package (R261, R330). -/
  dest : Option Nat
  /-- The look-ahead of a CPY.R at its destination: pages asked for and their answers (R249, R261). -/
  look : List (Nat × Option (BitVec 8))
  /-- Packets to another package that are not acknowledged yet (R261). -/
  unacked : Nat
  /-- Cycle of the last beat (R248). -/
  lastBeat : Nat
  /-- Attached when its task was killed: it is retired as soon as it is terminal (R245). -/
  killed : Bool := false
  /-- The neighbour that a matrix command moves to, as the check of R277 found when it was last made. -/
  migTo : Option Nat := none
  deriving DecidableEq, Repr

/-- Mode of a barrier (R306). -/
inductive BMode where
  | opn
  | held
  | exch
  deriving DecidableEq, Repr

/-- An event for a barrier (R309). -/
inductive BEvent where
  | arrive (v : Word)
  /-- A child's completion: its PAY, ERR and WDN (R314). -/
  | child (v : Word) (err : Bool) (wdn : Nat)
  | withdraw
  | add (n : Nat)
  | bytes (n : Nat) (err : Bool)
  | error
  deriving DecidableEq, Repr

/-- An armed note (R311): the core to notify, the channel, the issuer's tag and ASID, the phase named. -/
structure Note where
  core : Nat
  chan : Nat
  tag : BitVec 16
  asid : BitVec 16
  phase : Nat
  name : Word
  deriving DecidableEq, Repr

/-- A barrier (R306). -/
structure Barrier where
  expect : Nat
  arr : Nat
  pend : Nat
  reload : Nat
  holdb : Nat
  op : BitVec 3
  pay : Word
  phase : BitVec 16
  err : Bool
  wdn : Nat
  mode : BMode
  parent : Option Nat
  nchild : Nat
  group : Option Nat
  lastPay : Word
  lastErr : Bool
  lastWdn : Nat
  lastSelfW : Bool
  lastTree : Bool
  /-- Global time of the flip that completed the last phase, for notes (R311); none since BINIT. -/
  lastTime : Option Word
  /-- Held events, with the counted operation each one releases. -/
  queue : List BEvent
  notes : List Note
  deriving DecidableEq, Repr

/-- A member of a group (R315): its package index, core, task, TREE bit, collectives issued, and whether it leaves. -/
structure Member where
  pkg : Nat
  core : Nat
  task : BitVec 16
  tree : Bool
  issued : Nat
  leaving : Bool
  bound : Option Nat
  /-- What the member brought to the exchange in progress: PAY, ERR and WDN (R317). -/
  state : Option (Word × Bool × Nat)
  /-- The member lies in another package: what is known of it came from there (log entry 26). -/
  far : Bool := false
  /-- A far member's barrier holds an arrival of the phase in progress (R316). -/
  busy : Bool := false
  deriving DecidableEq, Repr

/-- A data collective of a far member (R324): its key (`farKey`), its number, its sub-op and its record. -/
structure FarOp where
  key : Nat
  no : Nat
  sub : Nat
  record : BitVec 512
  deriving DecidableEq, Repr

/-- A collective group's descriptor (R315). -/
structure Group where
  members : List Member
  /-- Joins waiting for the boundary: core, slot, task, TREE; bindings waiting: core, barrier index, whether it unbinds. -/
  joining : List (Nat × Nat × BitVec 16 × Bool)
  binding : List (Nat × Nat × Bool)
  gphase : BitVec 16
  sequence : Nat
  /-- The phase in progress runs on the tree, and counts this many withdrawals (R318). -/
  onTree : Bool
  wdn : Nat
  wasEmpty : Bool
  /-- The collective in progress: its operations by rank (core x 128 + slot, `farKey` or `absentKey`; none when no
  collective runs), and whether a withdrawal fell in it (R324, R326). -/
  running : List Nat
  treeRun : Bool
  /-- What waits for the boundary of members in other packages (package index, core, word), and their collectives. -/
  farWords : List (Nat × Nat × FarWord)
  farOps : List FarOp
  deriving DecidableEq, Repr

/-- An armed or blocked wait at the semaphore unit (R387). -/
structure Armed where
  sem : Nat
  thr : Word
  core : Nat
  chan : Nat
  tag : BitVec 16
  asid : BitVec 16
  deriving DecidableEq, Repr

/-- An operation on its way to the semaphore unit (R386). -/
inductive SemOp where
  | add (v : Word)
  | set (v : Word)
  | read
  | wait (thr : Word)
  | arm (thr : Word) (chan : Nat) (tag : BitVec 16)
  deriving DecidableEq, Repr

/-- What travels between cores beside slot-taking messages. -/
inductive Pkt where
  | rload (owner : Nat) (addrs : List Nat) (asid : BitVec 16) (svc : Bool)
  | rstore (owner : Nat) (cells : List Host.Cell) (asid : BitVec 16) (svc : Bool)
  /-- A DRAM atomic to its home slice (R227). -/
  | atom (op size : Nat) (addr : Nat) (x c : Word) (asid : BitVec 16) (svc : Bool)
  | chanCtl (core chan : Nat) (act : Nat) (prio : BitVec 2) (asid : BitVec 16)
  /-- A BARRIER message (R320): an event for a barrier. -/
  | barrier (bkey : Nat) (e : BEvent) (asid : BitVec 16)
  | bnote (bkey : Nat) (n : Note)
  /-- A flip on its way to a child (R314). -/
  | flip (bkey : Nat) (pay : Word) (err : Bool) (wdn : Nat) (selfW tree : Bool) (asid : BitVec 16)
  | sem (n : Nat) (op : SemOp) (asid : BitVec 16)
  /-- An ATOMIC message to a scratchpad that waits at its source (R229): the bytes that its operation touches. -/
  | held (m : Msg) (addrs : List Nat)
  deriving DecidableEq, Repr

/-- A packet in flight within the package: its number, its source core, its task, and the context and operation that
wait for the answer. -/
structure Flight where
  id : Nat
  src : Nat
  tag : BitVec 16
  key : Nat
  op : Nat
  body : Pkt
  deriving DecidableEq, Repr

/-- A slot-taking message in flight from one core to another (R94). -/
structure Mail where
  id : Nat
  src : Nat
  dest : Nat
  msg : Msg
  /-- What loop-back and notices need: the token slot whose notice retires it (R241); none otherwise. -/
  retires : Option (Nat × Nat)
  deriving DecidableEq, Repr

/-- A leaf held by a translation cache (R200). -/
structure Tlb where
  cluster : Nat
  asid : BitVec 16
  page : Nat
  size : Nat
  leaf : Word
  deriving DecidableEq, Repr

/-- State of a DRAM line's metadata (R204). -/
structure LMeta where
  state : Nat
  mask : BitVec 4
  poison : Bool
  owner : Nat
  deriving DecidableEq, Repr

/-- A transaction in progress on a line (R205, R206). -/
structure Trans where
  line : Nat
  kind : Nat
  member : Nat
  born : Nat
  deriving DecidableEq, Repr

/-- A copy of a line homed in another member (R205): 0 S, 1 E, 2 O, 3 M; or the answer POISON to its request (R207). -/
structure RLine where
  state : Nat
  data : VWord
  poison : Bool
  deriving DecidableEq, Repr

/-- A transient window (R209). -/
structure Window where
  valid : Bool
  expired : Bool
  base : BitVec 19
  nframe : BitVec 18
  deadline : Word
  deriving DecidableEq, Repr

/-- A page move in progress (R213, R214). -/
structure PageMove where
  recPa : Nat
  asid : BitVec 16
  va : Nat
  size : Nat
  oldPa : Nat
  newPa : Nat
  leafPa : Nat
  attempt : Nat
  dirty : List Nat
  deriving DecidableEq, Repr

/-- The memory side of the package (R194 to R214). -/
structure Mem where
  /-- Bytes by address: DRAM by local physical address, scratchpads and tile stores by window address. -/
  cells : List Host.Cell
  /-- Poisoned scratchpad and tile-store lines (R208). -/
  poison : List Nat
  lmeta : Tab LMeta
  rlines : Tab RLine
  trans : List Trans
  tlb : List Tlb
  l2q : List L2Store
  /-- The second word of XINV as last written, and a request in progress: its two words (R202). -/
  xinvHi : Word
  xinv : Option (Word × Word)
  xinvErr : Bool
  twt : Tab Window
  rcsize : Tab (BitVec 4)
  refpre : Tab (BitVec 32)
  remapErr : Tab (BitVec 64)
  /-- Ranges fenced by a failed remap table (R211). -/
  fenced : List (Nat × Nat)
  move : Option PageMove
  /-- Pins of L2 (level 1) and the DRAM cache layer (level 2): level, ASID, line of the PA (R190). -/
  pins : List (Nat × BitVec 16 × Nat)
  deriving DecidableEq, Repr

/-- A job as launched (R376): its record's words and the allotment. -/
structure Job where
  asid : BitVec 16
  record : List Word
  active : Bool
  deriving DecidableEq, Repr

/-- A resident-image entry (R269, R282). -/
structure Resent where
  tag : BitVec 32
  asid : BitVec 16
  valid : Bool
  rev : BitVec 4
  swapSeq : Word
  s0 : BitVec 32
  s1 : BitVec 32
  s2 : BitVec 32
  s3 : BitVec 32
  deriving DecidableEq, Repr

/-- A lane of an engine (R271): the slot it runs and its ASID; for a matrix command the decks found ACTIVE, the report of R275 and the
Σ scales of its image, fixed at the start; for a phase command the entry it has taken, and that it waits under R268. -/
structure Lane where
  op : Nat
  asid : BitVec 16
  avail : BitVec 4
  word2 : Word
  scales : List (BitVec 32)
  waiting : Bool
  entry : Nat
  /-- The codes that a matrix command is driven with, taken from its image as it starts (R269, R278). -/
  codes : List (BitVec 16)
  deriving DecidableEq, Repr

/-- A matrix engine (R262 to R282). -/
structure Engine where
  migWait : BitVec 32
  migOut : Bool
  migIn : Bool
  frontIx : BitVec 3
  frontV : Bool
  backIx : BitVec 3
  backV : Bool
  bnew : Bool
  swaps : Word
  resent : Tab Resent
  /-- The entry of the back bank's image as it was loaded, and whether that entry has been replaced since (R269). -/
  backCopy : Resent
  backStale : Bool
  matrix : Option Lane
  phase : Option Lane
  transfer : Option Lane
  /-- Trim writes held until the boundary: block offset and value (R270, R282). -/
  trimHeld : List (Nat × Word)
  deriving DecidableEq, Repr

/-- A deck (R273, R282, R396, R403). -/
structure Deck where
  avail : BitVec 2
  calEbc : BitVec 4
  qoff : Bool
  xpass : BitVec 32
  req : BitVec 2
  wlen : Bool
  pberr : Bool
  tripped : Bool
  tript : BitVec 16
  temp : BitVec 16
  mebc : BitVec 4
  mvalid : Bool
  nprobe : BitVec 16
  mtime : Word
  /-- When its last TEMP record was written (R404). -/
  tempTime : Word
  deriving DecidableEq, Repr

/-- A ring (R397). -/
structure Ring where
  heater : BitVec 12
  /-- Earlier codes of the heater, the latest first, each with the time of the write that replaced it, while a sample may still reflect it
  (R394). -/
  heats : List (Word × BitVec 12)
  mpd : BitVec 12
  err : BitVec 12
  sat : Bool
  lambda : BitVec 5
  tune : BitVec 4
  /-- Earlier reference wavelengths, the latest first, each with the time of the TUNE write or move that replaced it, while a sample may
  still reflect it (R436). -/
  refs : List (Word × BitVec 4)
  deriving DecidableEq, Repr

/-- A ring bank (R399, R401). -/
structure Bank where
  moveFrom : BitVec 5
  moveTo : BitVec 5
  pending : Bool
  bad : Bool
  /-- A wear move: its ring and its spare, and whether its tuning is over and it is the move that is PENDING (R401, R437). -/
  wear : Option (Nat × Nat)
  wearing : Bool
  wearTime : Option Word
  deriving DecidableEq, Repr

/-- The photonic side: engines, decks, banks, light and heat (R262 to R282, R393 to R407). -/
structure Photonic where
  engines : Tab Engine
  decks : Tab Deck
  /-- Codes of the banks: deck x 16,384 + bank x 8,192 + code, where bank is the physical bank. -/
  codes : Tab (BitVec 16)
  /-- The physical bank that is the front one, per engine (R268). -/
  front : Tab Bool
  trims : Tab (BitVec 16)
  dtrims : Tab (BitVec 16)
  rings : Tab Ring
  banks : Tab Bank
  laserPresent : BitVec 4
  laserLit : BitVec 4
  laserPower : Tab (BitVec 16)
  pwrNow : BitVec 32
  pwrAlert : BitVec 32
  thring : Word
  thrlog : BitVec 5
  thwr : Word
  thrd : Word
  thPeriod : BitVec 20
  thDrop : BitVec 32
  scrubPpm : BitVec 32
  calPpm : BitVec 32
  telPpm : BitVec 32
  wlMoves : BitVec 32
  wlAbort : BitVec 32
  deriving DecidableEq, Repr

/-- A port (R327, R328). `op` is the slot that a set-up in progress serves, `attempt` its attempt, `reason` the last NACK. -/
structure Port where
  state : BitVec 3
  pport : BitVec 6
  phys : BitVec 12
  /-- The last measured skew in ps, as a CIRC record shows it (R337); PORTSTAT saturates at 65,535. -/
  skew : BitVec 24
  jobp : Bool
  op : Option Nat
  attempt : Nat
  reason : BitVec 4
  settling : Bool
  deriving DecidableEq, Repr

/-- A Fabric Address Map entry (R329). -/
structure Fam where
  phys : BitVec 12
  valid : Bool
  coh : Bool
  member : BitVec 5
  drain : Bool
  deriving DecidableEq, Repr

/-- What a packet to another package carries (R330). -/
inductive FabOut where
  /-- A message, and the token slot with the generation that its entry into the queue retires (R241). -/
  | msg (m : Msg) (retires : Option (Nat × Nat))
  | beat (core slot : Nat) (dst : Nat) (cells : List Host.Cell)
  | barrier (name : Word) (bytes : Nat) (err : Bool)
  | atomic (pa : Nat) (op size : Nat) (x c : Word)
  | marker (core slot : Nat)
  /-- A line of a checkpoint (R392). -/
  | line (pa : Nat) (data : VWord)
  /-- A coherence transaction on a line (R205, R206); the eviction of a copy: 0 PUTE, 1 PUTM, 2 PUTO; an answer to a request or a
  probe. Lines are those of the full PA. -/
  | coh (line : Nat)
  | evict (line kind : Nat) (data : VWord)
  | cohAnswer (line : Nat)
  /-- An exchange of a collective, of the operation of a slot with its number (R324). -/
  | exchange (core slot seq : Nat)
  deriving DecidableEq, Repr

/-- A packet in the retry buffer (R331): its number, destination and map entry, sequence number, and who waits. -/
structure Retry where
  id : Nat
  phys : Nat
  index : Nat
  seq : Nat
  /-- Cycle of its injection and of its last sending. -/
  born : Nat
  last : Nat
  ordered : Bool
  asid : BitVec 16
  key : Nat
  op : Nat
  body : FabOut
  deriving DecidableEq, Repr

/-- The fabric controller (R327 to R340). -/
structure Fabric where
  ports : Tab Port
  fam : Tab Fam
  fablife : BitVec 20
  famdrop : BitVec 32
  pkgAllot : List Nat
  retry : List Retry
  /-- The next sequence number towards, and the numbers taken from, each package (R331). -/
  nextSeq : Tab Nat
  seen : List (Nat × Nat)
  /-- The same of ordered packets, which take effect in the order of their numbers (R330; log entry 49). -/
  nextOrd : Tab Nat
  nextIn : Tab Nat
  /-- The last answer given to a SETUP of another package (R332): its package and port, our port, and whether it was ACK. -/
  answered : Option (Nat × Nat × Nat × Bool)
  /-- Ordered packets held while their index drains (R339). -/
  held : List Retry
  /-- The new binding that a draining index waits for: index, slot, PHYS, VALID (R339). -/
  draining : List (Nat × Nat × BitVec 12 × Bool)
  deriving DecidableEq, Repr

/-- A dead-tag entry (R353). -/
structure DeadTag where
  asid : BitVec 16
  tag : BitVec 16
  born : Word
  /-- The task's nearest ancestor that was alive at its TKILL (R355). -/
  heir : BitVec 16 := 0
  /-- Messages of lower numbers were sent before the entry was installed (R353). -/
  since : Nat := 0
  deriving DecidableEq, Repr

/-- A TKILL in progress (R352). -/
structure Kill where
  id : Nat
  core : Nat
  key : Nat
  asid : BitVec 16
  tag : BitVec 16
  todo : List Nat
  ended : Nat
  discarded : Nat
  cancelled : Nat
  fostered : Nat
  /-- Creators noted: package, core, foster channel and parent tag; one entry to a core and channel. -/
  creators : List (Nat × Nat × Nat × BitVec 16)
  /-- Where the task's detached operations are fostered where its record is no longer found: as `Op.foster` (R245). -/
  heir : BitVec 16 × Nat × Nat × Nat := (0, 0, 0, 0)
  deriving DecidableEq, Repr

/-- Corrected events folded together (R366). -/
structure Fold where
  source : Nat
  unit : Nat
  count : Nat
  time : Word
  born : Word
  addr : Nat
  /-- EXTENT and DETAIL of the first of them (R364, R365). -/
  extent : Nat
  detail : List Word
  deriving DecidableEq, Repr

/-- What a job switch saved of a job on a set of partitions (R359): the digest of the area that holds it, and whether the job
is still out. -/
structure Saved where
  asid : BitVec 16
  parts : Word
  digest : BitVec 256
  out : Bool
  cores : Tab Core
  chans : Tab Chan
  regions : Tab Region
  ops : Tab Op
  barriers : Tab Barrier
  cells : List Host.Cell
  poison : List Nat
  deriving DecidableEq, Repr

/-- A job switch in progress (R358): the partitions, the outgoing job, the incoming job with the digest of its area, the area
that receives the outgoing job, and when it was asked for. -/
structure Switch where
  parts : Word
  out : Option (BitVec 16)
  into : Option (BitVec 16 × BitVec 256)
  save : Nat
  born : Word
  /-- Engines whose phase command of the outgoing job waited under R268 when the switch was asked for (R247). -/
  resting : List Nat := []
  deriving DecidableEq, Repr

/-- What the machine has sent to the host over the link (R367, R371, R390, R392). -/
inductive HostOut where
  /-- Completion of a memory-window read: its bytes, with EP set for poison. -/
  | data (bytes : List Byte) (ep : Bool)
  | unsupported
  | register (off : Nat) (v : Word)
  | msix (vec : Nat) (addr : Word) (data : BitVec 32)
  | write (addr : Word) (data : VWord)
  /-- The standard's Poisoned TLP Received error (R367, R370). -/
  | poisonedTlp
  deriving DecidableEq, Repr

/-- A checkpoint in progress (R391, R392). -/
structure Ckpt where
  desc : Nat
  peer : Bool
  phys : Nat
  dest : Word
  /-- To a peer, once every line is sent: how many were poisoned, and the address of the first. -/
  sent : Option (Nat × Nat)
  deriving DecidableEq, Repr

/-- The host's side of the package (R367 to R392) and service registers (R408 to R413). -/
structure Device where
  launchState : BitVec 2
  launchReason : BitVec 8
  launchWord : BitVec 8
  launchAsid : BitVec 16
  swParts : Word
  swAsid : BitVec 17
  swSave : Word
  swLoad : Word
  swRefused : Bool
  swReason : BitVec 4
  rasRing : Word
  rasLen : BitVec 5
  rasDropped : BitVec 32
  folds : List Fold
  mwDrop : BitVec 32
  cwDrop : BitVec 32
  amPage : Tab (BitVec 17)
  amDrop : Tab (BitVec 32)
  amErr : Tab Word
  amSerial : Tab (BitVec 14)
  msixEnable : Bool
  msixFunctionMask : Bool
  /-- Vectors that are unmasked; vectors pending; table entries (R390). -/
  msixOpen : List Nat
  msixPending : List Nat
  msixTable : Tab (BitVec 96)
  ckpt : Option Ckpt
  linkRate : Nat
  linkWidth : Nat
  bootState : BitVec 3
  /-- The value written to BOOTGO, while STATE is VERIFYING. -/
  bootGo : Word
  bootReason : BitVec 8
  keySlot : BitVec 2
  svn : BitVec 32
  svnMin : BitVec 32
  fwHash : BitVec 256
  staging : List Host.Cell
  attNonce : BitVec 256
  attAsid : BitVec 16
  attBusy : Bool
  attErr : Bool
  attRep : BitVec 1536
  /-- What the report being built captured (R412, R413). -/
  attCapture : BitVec 1024
  /-- The address space of service firmware: its ASID and its twelve roots, none before firmware is ready (R380, R411; log entry 10). -/
  svcAsid : BitVec 16
  svcRoots : List Word
  out : List HostOut
  deriving DecidableEq, Repr

/-- One choice of the environment (log entry 2). -/
inductive Action where
  /-- The core issues an instruction from its next ready context (R92). -/
  | issue (core : Nat)
  /-- Cycles pass (R5, R98). -/
  | tick (n : Nat)
  /-- A step of the hardware, the host, another package or the environment. -/
  | event (i : Instr)
  deriving DecidableEq, Repr

/-- The model's own fields: how the steps of many agents are put in one order (log entry 2). -/
structure Sched where
  agenda : List Action
  turn : Nat
  /-- The context on which an instruction word acts. -/
  cur : Nat
  /-- Counter of free values (log entry 12). -/
  fresh : Nat
  /-- Counter of arrivals, requests and activations. -/
  nextId : Nat
  deriving DecidableEq, Repr

/-- The state of the package. -/
structure State where
  sched : Sched
  /-- Cycles since package reset, and the global time at that moment (R5, R143). -/
  now : Nat
  timeBase : Word
  pkgIdx : BitVec 12
  ctxs : Tab Ctx
  cores : Tab Core
  chans : Tab Chan
  regions : Tab Region
  ops : Tab Op
  barriers : Tab Barrier
  groups : Tab Group
  mail : List Mail
  flights : List Flight
  mem : Mem
  sems : Tab Word
  armed : List Armed
  jobs : List Job
  deadTags : List DeadTag
  kills : List Kill
  switch : Option Switch
  saved : List Saved
  /-- Messages kept for jobs that are switched out (R362): the core and the slot. -/
  savedInbox : List (Nat × Slot)
  photonic : Photonic
  fabric : Fabric
  dev : Device
  deriving DecidableEq, Repr

/-- Every register of a context at package reset: zero (log entry 5). -/
def Ctx.initial : Ctx where
  phase := .free
  pc := 0
  delay := none
  rpt := none
  ir := 0
  ilen := 4
  ext := none
  fetched := false
  g := Vector.replicate 32 0
  v := Vector.replicate 32 0
  m := Vector.replicate 8 0
  q := Vector.replicate 8 0
  w := Vector.replicate 8 0
  ld := 0
  st := 0
  cp := 0
  tl := 0
  fflags := 0
  frm := 0
  seed := 0
  taskTag := 0
  parent := 0
  msgid := 0
  chan := 0
  budget := 0
  budgetLeft := 0
  waitLimit := 0
  act := 0
  slot := none
  buffered := []
  pend := []
  deferred := []
  waiting := false
  blocking := false
  waited := 0
  await := .nothing
  wake := none
  awaitTok := 0
  trapRec := 0
  atomKey := 0
  atomId := 0

/-- A core at package reset (R96, R101, R143); the tables and ASID stand at zero until firmware writes them (log entry 6). -/
def Core.initial : Core where
  asid := 0
  hasJob := false
  rr := 7
  last := 63
  serial := 0
  aflags := 0
  trapCause := 0
  trapPc := 0
  trapMsg := 0
  trapAddr := 0
  hintDrop := 0
  dropKind := 0
  collieFull := 0
  fwdLate := 0
  thsel := 0
  nb := 0
  inbox := []
  fwds := []
  l1 := []
  pins := []
  sb := []
  guards := []
  tasks := []
  dt := List.replicate 256 0
  dmode := false
  ord := true
  ft := []
  notes := 0
  late := []

/-- A handler-table entry at package reset (R95; log entry 6). -/
def Chan.initial : Chan where
  entry := 0
  prio := 0
  enable := false
  allot := false
  atomh := false
  spill := false
  age := 0

/-- A region-table entry that is not live (R171). -/
def Region.initial : Region where
  first := 0
  nbank := 0
  origin := .launch
  task := 0
  asid := 0
  reclaim := 0

/-- A FREE token slot at generation 1 (R233). -/
def Op.initial : Op where
  state := .free
  gen := 1
  form := .cpy
  record := 0
  asid := 0
  task := 0
  pri := 0
  det := false
  ntf := false
  bar := false
  key := 0
  act := 0
  seq := 0
  svc := false
  frm := 0
  dt := []
  dmode := false
  srcEntry := 0
  dstEntry := 0
  after := none
  cause := 0
  status := 0
  word2 := 0
  word3 := 0
  unit := 0
  prog := 0
  bytes := 0
  rng := 0
  beats := []
  heldBytes := 0
  conv := 0
  cancel := 0
  foster := none
  inbox := false
  arrived := 0
  dest := none
  look := []
  unacked := 0
  lastBeat := 0

/-- A barrier as BINIT of an all-zero record would leave it (R305): OP 0 is AND, whose identity is all ones (R308). -/
def Barrier.initial : Barrier where
  expect := 0
  arr := 0
  pend := 0
  reload := 0
  holdb := 0
  op := 0
  pay := BitVec.allOnes 64
  phase := 0
  err := false
  wdn := 0
  mode := .opn
  parent := none
  nchild := 0
  group := none
  lastPay := 0
  lastErr := false
  lastWdn := 0
  lastSelfW := false
  lastTree := false
  lastTime := none
  queue := []
  notes := []

/-- A group without members (R315). -/
def Group.initial : Group where
  members := []
  joining := []
  binding := []
  gphase := 0
  sequence := 0
  onTree := false
  wdn := 0
  wasEmpty := true
  running := []
  treeRun := false
  farWords := []
  farOps := []

/-- A resident entry at reset (R282). -/
def Resent.initial : Resent where
  tag := 0
  asid := 0
  valid := false
  rev := 0
  swapSeq := 0
  s0 := 0
  s1 := 0
  s2 := 0
  s3 := 0

/-- An engine at reset (R282). -/
def Engine.initial : Engine where
  migWait := 0
  migOut := false
  migIn := false
  frontIx := 0
  frontV := false
  backIx := 0
  backV := false
  bnew := false
  swaps := 0
  resent := []
  backCopy := Resent.initial
  backStale := false
  matrix := none
  phase := none
  transfer := none
  trimHeld := []

/-- A deck at reset (R282, R396): OFF. -/
def Deck.initial : Deck where
  avail := 2
  calEbc := 0
  qoff := false
  xpass := 0
  req := 2
  wlen := false
  pberr := false
  tripped := false
  tript := 0
  temp := 0
  mebc := 0
  mvalid := false
  nprobe := 0
  mtime := 0
  tempTime := 0

/-- Ring r of a bank at reset (R397): LAMBDA is r below 16, and 31 for a spare. -/
def Ring.initial (r : Nat) : Ring where
  heater := 0
  heats := []
  mpd := 0
  err := 0
  sat := false
  lambda := if r < 16 then BitVec.ofNat 5 r else 31
  tune := 0
  refs := []

/-- A bank at reset (R399). -/
def Bank.initial : Bank where
  moveFrom := 0
  moveTo := 0
  pending := false
  bad := false
  wear := none
  wearing := false
  wearTime := none

/-- A port at reset: DARK (R327, R328). -/
def Port.initial : Port where
  state := 0
  pport := 0
  phys := 0
  skew := 0
  jobp := false
  op := none
  attempt := 0
  reason := 0
  settling := false

/-- A map entry at reset: unbound (R329). -/
def Fam.initial : Fam where
  phys := 0
  valid := false
  coh := false
  member := 0
  drain := false

/-- Metadata of a line in HOME (R204; log entry 6). -/
def LMeta.initial : LMeta where
  state := 0
  mask := 0
  poison := false
  owner := 0

/-- No copy of a remote line. -/
def RLine.none : RLine where
  state := 0
  data := 0
  poison := false

/-- A transient window at reset (R209). -/
def Window.initial : Window where
  valid := false
  expired := false
  base := 0
  nframe := 0
  deadline := 0

/-- The memory side at reset: nothing listed. -/
def Mem.initial : Mem where
  cells := []
  poison := []
  lmeta := []
  rlines := []
  trans := []
  tlb := []
  l2q := []
  xinvHi := 0
  xinv := none
  xinvErr := false
  twt := []
  rcsize := []
  refpre := []
  remapErr := []
  fenced := []
  move := none
  pins := []

/-- The photonic side at reset (R268, R282, R396, R397, R404). -/
def Photonic.initial : Photonic where
  engines := []
  decks := []
  codes := []
  front := []
  trims := []
  dtrims := []
  rings := []
  banks := []
  laserPresent := 0
  laserLit := 0
  laserPower := []
  pwrNow := 0
  pwrAlert := 2400
  thring := 0
  thrlog := 0
  thwr := 0
  thrd := 0
  thPeriod := 0
  thDrop := 0
  scrubPpm := 0
  calPpm := 0
  telPpm := 0
  wlMoves := 0
  wlAbort := 0

/-- The fabric controller at reset (R328, R329). -/
def Fabric.initial : Fabric where
  ports := []
  fam := []
  fablife := 1000
  famdrop := 0
  pkgAllot := []
  retry := []
  nextSeq := []
  nextOrd := []
  nextIn := []
  answered := none
  seen := []
  held := []
  draining := []

/-- The host's side at reset (R369, R372, R377, R390, R409). -/
def Device.initial : Device where
  launchState := 0
  launchReason := 0
  launchWord := 0
  launchAsid := 0
  swParts := 0
  swAsid := 0
  swSave := 0
  swLoad := 0
  swRefused := false
  swReason := 0
  rasRing := 0
  rasLen := 0
  rasDropped := 0
  folds := []
  mwDrop := 0
  cwDrop := 0
  amPage := []
  amDrop := []
  amErr := []
  amSerial := []
  msixEnable := false
  msixFunctionMask := false
  msixOpen := []
  msixPending := []
  msixTable := []
  ckpt := none
  linkRate := 0
  linkWidth := 0
  bootState := 0
  bootGo := 0
  bootReason := 0
  keySlot := 0
  svn := 0
  svnMin := Config.svnFused
  fwHash := 0
  staging := []
  attNonce := 0
  attAsid := 0
  attBusy := false
  attErr := false
  attRep := 0
  attCapture := 0
  svcAsid := 0
  svcRoots := []
  out := []

/-- The schedule at reset: nothing chosen by the environment (log entry 2). -/
def Sched.initial : Sched where
  agenda := []
  turn := 1
  cur := 0
  fresh := 0
  nextId := 1

/-- The package right after package reset (R8). -/
def State.reset : State where
  sched := Sched.initial
  now := 0
  timeBase := 0
  pkgIdx := 0
  ctxs := []
  cores := []
  chans := []
  regions := []
  ops := []
  barriers := []
  groups := []
  mail := []
  flights := []
  mem := Mem.initial
  sems := []
  armed := []
  jobs := []
  deadTags := []
  kills := []
  switch := none
  saved := []
  savedInbox := []
  photonic := Photonic.initial
  fabric := Fabric.initial
  dev := Device.initial

end Sys2Proof.Machine
end

