-- ==== Sys2Proof/Machine/Ops.lean ====
section
/-!
DEFINITION. The named operations over tables, memory, registers, messages and translation, and taking a trap (R343).
-/
namespace Sys2Proof.Machine

/-- What a meaning answers. -/
abbrev Out := Host.Outcome State Fault Refusal

/-! ### Tables -/

/-- The value at a key, or the default. -/
def tabGet {α : Type} : Tab α → Nat → α → α
  | [], _, d => d
  | (k', a) :: t, k, d => if k' = k then a else tabGet t k d

/-- The table with a key set, keys rising. -/
def tabSet {α : Type} : Tab α → Nat → α → Tab α
  | [], k, a => [(k, a)]
  | (k', b) :: t, k, a =>
    if k' = k then (k, a) :: t
    else if k < k' then (k, a) :: (k', b) :: t
    else (k', b) :: tabSet t k a

/-- An element put before the first that it does not follow. -/
def insertBy {α : Type} (le : α → α → Bool) (a : α) : List α → List α
  | [] => [a]
  | b :: t => if le a b then a :: b :: t else b :: insertBy le a t
/-- A list in order, equal elements as they stood. -/
def sortBy {α : Type} (le : α → α → Bool) : List α → List α
  | [] => []
  | a :: t => insertBy le a (sortBy le t)

/-! ### Memory -/

/-- What an unlisted byte reads as (log entry 4). -/
def unlisted : Byte := 0

/-- One byte of memory. -/
def memGet : List Host.Cell → Nat → Byte
  | [], _ => unlisted
  | (k, b) :: t, a => if k = a then b else memGet t a

/-- Memory with one byte taken off the list. -/
def memErase : List Host.Cell → Nat → List Host.Cell
  | [], _ => []
  | (k, b) :: t, a => if k = a then memErase t a else (k, b) :: memErase t a

/-- Memory with one byte put on the list, addresses rising. -/
def memInsert : List Host.Cell → Nat → Byte → List Host.Cell
  | [], a, b => [(a, b)]
  | (k, c) :: t, a, b =>
    if k = a then (a, b) :: t
    else if a < k then (a, b) :: (k, c) :: t
    else (k, c) :: memInsert t a b

/-- Memory with one byte written, in the canonical form: no entry equal to what an unlisted byte reads as. -/
def memSet (m : List Host.Cell) (a : Nat) (b : Byte) : List Host.Cell :=
  if b = unlisted then memErase m a else memInsert m a b

/-- The canonical form: addresses strictly rising, no entry equal to what an unlisted address reads as. -/
def memWf : List Host.Cell → Bool
  | [] => true
  | [(_, b)] => b != unlisted
  | (a, b) :: (a', b') :: t => b != unlisted && decide (a < a') && memWf ((a', b') :: t)

/-- The canonical form of a memory side. -/
def Mem.wf (m : Mem) : Bool := memWf m.cells

/-- Bytes at a run of addresses. -/
def memBytes (m : List Host.Cell) (a : Nat) : Nat → List Byte
  | 0 => []
  | n + 1 => memGet m a :: memBytes m (a + 1) n

/-- Cells written in order. -/
def memWrite (m : List Host.Cell) : List Host.Cell → List Host.Cell
  | [] => m
  | (a, b) :: t => memWrite (memSet m a b) t

/-- Bytes laid at a run of addresses. -/
def cellsAt (a : Nat) : List Byte → List Host.Cell
  | [] => []
  | b :: t => (a, b) :: cellsAt (a + 1) t

/-- The little-endian number of a list of bytes (R3). -/
def leNat : List Byte → Nat
  | [] => 0
  | b :: t => b.toNat + 256 * leNat t

/-- The bytes of a number, little-endian (R3). -/
def leBytes : Nat → Nat → List Byte
  | 0, _ => []
  | n + 1, x => BitVec.ofNat 8 x :: leBytes n (x / 256)

/-- The cells of memory without a range of addresses. -/
def memClear (m : List Host.Cell) (lo len : Nat) : List Host.Cell :=
  m.filter (fun c => !(decide (lo ≤ c.1) && decide (c.1 < lo + len)))

/-- A run of 8-byte words of memory. -/
def memWords (m : List Host.Cell) (a : Nat) : Nat → List Word
  | 0 => []
  | n + 1 => BitVec.ofNat 64 (leNat (memBytes m a 8)) :: memWords m (a + 8) n

/-! ### Places -/

/-- Service cores are s.0.0 to s.0.3 (R14). -/
def isService (core : Nat) : Bool := core % 1024 < 4
/-- Cluster id of a core (R15). -/
def clusterOf (core : Nat) : Nat := core / 1024 * 64 + core / 32 % 32 / 4 * 8 + core % 32 / 4
/-- Partition id of a core (R16). -/
def partitionOf (core : Nat) : Nat := core / 1024 * 16 + core / 32 % 32 / 8 * 4 + core % 32 / 8
/-- The core of a context key (R90). -/
def coreOf (key : Nat) : Nat := key / 8
/-- The context number of a context key (R90). -/
def ctxOf (key : Nat) : Nat := key % 8
/-- The window address of an offset in a core's scratchpad (R169). -/
def spAddr (core off : Nat) : Nat := 0xC * 2 ^ 48 + core * 2 ^ 36 + off
/-- Bytes of a scratchpad (R170). -/
def spSize : Nat := 0xC0000
/-- The region nibble of an address (R45). -/
def regionOf (a : Nat) : Nat := a / 2 ^ 48 % 16
/-- The owning core of a scratchpad address (R169). -/
def spOwner (a : Nat) : Nat := a / 2 ^ 36 % 4096
/-- The offset of a scratchpad address (R169). -/
def spOff (a : Nat) : Nat := a % 2 ^ 20
/-- Bytes of DRAM in a package (R194). -/
def dramSize : Nat := 0x6000000000
/-- The 64-byte line of an address (R195). -/
def lineOf (a : Nat) : Nat := a / 64

/-! ### State accessors -/

/-- A context. -/
def State.ctx (s : State) (k : Nat) : Ctx := tabGet s.ctxs k Ctx.initial
/-- The state with a context set. -/
def State.setCtx (s : State) (k : Nat) (c : Ctx) : State := { s with ctxs := tabSet s.ctxs k c }
/-- The state with a context changed. -/
def State.modCtx (s : State) (k : Nat) (f : Ctx → Ctx) : State := s.setCtx k (f (s.ctx k))
/-- The context on which an instruction word acts. -/
def State.me (s : State) : Ctx := s.ctx s.sched.cur
/-- The state with that context changed. -/
def State.modMe (s : State) (f : Ctx → Ctx) : State := s.modCtx s.sched.cur f
/-- The core of that context. -/
def State.myCore (s : State) : Nat := coreOf s.sched.cur
/-- A core. -/
def State.core (s : State) (n : Nat) : Core := tabGet s.cores n Core.initial
/-- The state with a core changed. -/
def State.modCore (s : State) (n : Nat) (f : Core → Core) : State := { s with cores := tabSet s.cores n (f (s.core n)) }
/-- A handler-table entry. -/
def State.chan (s : State) (core c : Nat) : Chan := tabGet s.chans (core * 64 + c) Chan.initial
/-- The state with a handler-table entry changed. -/
def State.modChan (s : State) (core c : Nat) (f : Chan → Chan) : State :=
  { s with chans := tabSet s.chans (core * 64 + c) (f (s.chan core c)) }
/-- A region-table entry. -/
def State.region (s : State) (core n : Nat) : Region := tabGet s.regions (core * 32 + n) Region.initial
/-- The state with a region-table entry set. -/
def State.setRegion (s : State) (core n : Nat) (r : Region) : State :=
  { s with regions := tabSet s.regions (core * 32 + n) r }
/-- A token slot. -/
def State.op (s : State) (core n : Nat) : Op := tabGet s.ops (core * 128 + n) Op.initial
/-- The state with a token slot set. -/
def State.setOp (s : State) (core n : Nat) (o : Op) : State := { s with ops := tabSet s.ops (core * 128 + n) o }
/-- The state with a token slot changed. -/
def State.modOp (s : State) (core n : Nat) (f : Op → Op) : State := s.setOp core n (f (s.op core n))
/-- A barrier. -/
def State.bar (s : State) (k : Nat) : Barrier := tabGet s.barriers k Barrier.initial
/-- The state with a barrier set. -/
def State.setBar (s : State) (k : Nat) (b : Barrier) : State := { s with barriers := tabSet s.barriers k b }
/-- A group's descriptor. -/
def State.group (s : State) (g : Nat) : Group := tabGet s.groups g Group.initial
/-- The state with a group's descriptor set. -/
def State.setGroup (s : State) (g : Nat) (x : Group) : State := { s with groups := tabSet s.groups g x }
/-- The state with its memory side changed. -/
def State.modMem (s : State) (f : Mem → Mem) : State := { s with mem := f s.mem }
/-- The state with its device block changed. -/
def State.modDev (s : State) (f : Device → Device) : State := { s with dev := f s.dev }
/-- The state with its photonic side changed. -/
def State.modPh (s : State) (f : Photonic → Photonic) : State := { s with photonic := f s.photonic }
/-- The state with its fabric controller changed. -/
def State.modFab (s : State) (f : Fabric → Fabric) : State := { s with fabric := f s.fabric }
/-- An engine. -/
def State.engine (s : State) (e : Nat) : Engine := tabGet s.photonic.engines e Engine.initial
/-- The state with an engine changed. -/
def State.modEngine (s : State) (e : Nat) (f : Engine → Engine) : State :=
  s.modPh (fun p => { p with engines := tabSet p.engines e (f (tabGet p.engines e Engine.initial)) })
/-- A deck, by engine x 4 + deck. -/
def State.deck (s : State) (d : Nat) : Deck := tabGet s.photonic.decks d Deck.initial
/-- The state with a deck changed. -/
def State.modDeck (s : State) (d : Nat) (f : Deck → Deck) : State :=
  s.modPh (fun p => { p with decks := tabSet p.decks d (f (tabGet p.decks d Deck.initial)) })
/-- A port. -/
def State.port (s : State) (p : Nat) : Port := tabGet s.fabric.ports p Port.initial
/-- The state with a port changed. -/
def State.modPort (s : State) (p : Nat) (f : Port → Port) : State :=
  s.modFab (fun x => { x with ports := tabSet x.ports p (f (tabGet x.ports p Port.initial)) })
/-- A map entry (R329). -/
def State.fam (s : State) (k : Nat) : Fam := tabGet s.fabric.fam k Fam.initial
/-- The state with a map entry changed. -/
def State.modFam (s : State) (k : Nat) (f : Fam → Fam) : State :=
  s.modFab (fun x => { x with fam := tabSet x.fam k (f (tabGet x.fam k Fam.initial)) })

/-- The next number for an arrival or a request. -/
def State.bump (s : State) : State := { s with sched := { s.sched with nextId := s.sched.nextId + 1 } }
/-- The state after a free value has been used. -/
def State.refresh (s : State) : State := { s with sched := { s.sched with fresh := s.sched.fresh + 1 } }
/-- The state after n free values have been used. -/
def State.refreshBy (s : State) (n : Nat) : State := { s with sched := { s.sched with fresh := s.sched.fresh + n } }

/-- Global time in ns: 1.8 GHz is nine cycles in 5 ns (R5, R145; log entry 3). -/
def State.time (s : State) : Word := s.timeBase + BitVec.ofNat 64 (s.now * 5 / 9)

/-- The level of a context: service on service cores, job elsewhere (R14; log entry 10). -/
def State.svc (_s : State) (key : Nat) : Bool := isService (coreOf key)

/-! ### Registers -/

/-- A general register; g0 reads zero (R139). -/
def rdG (c : Ctx) (r : Reg) : Word := if r = 0 then 0 else c.g[r.toNat]'r.isLt
/-- A general register written; a write to g0 is discarded (R10, R139). -/
def wrG (c : Ctx) (r : Reg) (x : Word) : Ctx := if r = 0 then c else { c with g := c.g.set r.toNat x r.isLt }
/-- A vector register. -/
def rdV (c : Ctx) (r : Reg) : VWord := c.v[r.toNat]'r.isLt
/-- A vector register written. -/
def wrV (c : Ctx) (r : Reg) (x : VWord) : Ctx := { c with v := c.v.set r.toNat x r.isLt }
/-- A mask register; m0 reads all ones (R139). -/
def rdM (c : Ctx) (r : Fld3) : Word := if r = 0 then BitVec.allOnes 64 else c.m[r.toNat]'r.isLt
/-- A mask register written; a write to m0 is discarded (R10, R139). -/
def wrM (c : Ctx) (r : Fld3) (x : Word) : Ctx := if r = 0 then c else { c with m := c.m.set r.toNat x r.isLt }
/-- Flags ORed into FFLAGS (R117). -/
def orFlags (c : Ctx) (f : BitVec 5) : Ctx := { c with fflags := c.fflags ||| f }

/-! ### Going on -/

/-- The place after the instruction in execution: the next replayed word (R41), the target after the second delay slot
(R39), or the next word; an EXT pair is eight bytes (R34). -/
def advance (c : Ctx) : Ctx :=
  match c.rpt with
  | some r =>
    if r.slot + 1 < r.frame.length then { c with rpt := some { r with slot := r.slot + 1 } }
    else if r.iter + 1 < r.count then { c with rpt := some { r with slot := 0, iter := r.iter + 1 } }
    else { c with rpt := none, pc := r.base + 4 + 4 * BitVec.ofNat 52 r.frame.length }
  | none =>
    match c.delay with
    | some d => if d.left ≤ 1 then { c with pc := d.dest, delay := none }
                else { c with pc := c.pc + c.ilen, delay := some { d with left := d.left - 1 } }
    | none => { c with pc := c.pc + c.ilen }

/-- No instruction is in progress. -/
def settled (c : Ctx) : Ctx :=
  { c with fetched := false, waiting := false, blocking := false, waited := 0, await := .nothing, wake := none, awaitTok := 0 }

/-- The instruction of this context ends, and the context goes on. -/
def retire (s : State) : State := s.modMe (fun c => advance (settled c))

/-- The instruction of this context ends with a change of the context. -/
def retireWith (s : State) (f : Ctx → Ctx) : State := s.modMe (fun c => advance (settled (f c)))

/-- The instruction ends with a value for a general register (R139). -/
def setG (s : State) (d : Reg) (x : Word) : Out := .next (retireWith s (fun c => wrG c d x))

/-- The address of a branch or jump word itself, past an EXT (R37). -/
def ownAddr (c : Ctx) : BitVec 52 := c.pc + (c.ilen - 4)

/-! ### Jobs (R376 to R380) -/

/-- Word i of a launch record (R378). -/
def Job.word (j : Job) (i : Nat) : Word := j.record.getD i 0
/-- Bits [hi:lo] of word i of a launch record. -/
def Job.fld (j : Job) (i lo len : Nat) : Nat := ((j.word i).extractLsb' lo len).toNat
/-- The job of an ASID. -/
def State.job (s : State) (asid : BitVec 16) : Option Job := s.jobs.find? (fun j => j.asid == asid)
/-- The ASID names a job that has been launched and has not been ended (R369, R376). -/
def State.jobLive (s : State) (asid : BitVec 16) : Bool := s.jobs.any (fun j => j.asid == asid && j.active)
/-- PKGIDX for a job (R143, R378). -/
def State.pkgOf (s : State) (asid : BitVec 16) : BitVec 12 :=
  match s.job asid with
  | some j => BitVec.ofNat 12 (j.fld 0 32 12)
  | none => s.pkgIdx
/-- The core belongs to the job's allotment and is no service core (R14, R16, R378). -/
def Job.holds (j : Job) (core : Nat) : Bool :=
  decide (core < 4096) && !isService core && (j.word 1).getLsbD (partitionOf core)
/-- ALLOT of a channel entry of the record (R379). -/
def Job.chanAllot (j : Job) (c : Nat) : Bool := (j.word (64 + c)).getLsbD 55
/-- ATOMH of a channel entry of the record (R379). -/
def Job.chanAtomh (j : Job) (c : Nat) : Bool := (j.word (64 + c)).getLsbD 56
/-- A channel of the record that R440 refuses. -/
def Job.chanRefused (j : Job) (c : Nat) : Bool := !j.chanAllot c || j.chanAtomh c
/-- NLEVEL (R378). -/
def Job.nlevel (j : Job) : Nat := j.fld 0 16 3
/-- Bits of word w of level l (R379). -/
def Job.level (j : Job) (l w lo len : Nat) : Nat := j.fld (32 + 4 * l + w) lo len
/-- The unit of a core in a domain: core, cluster, partition, stratum (R23). -/
def unitOf (domain core : Nat) : Nat :=
  if domain = 0 then core else if domain = 1 then clusterOf core else if domain = 2 then partitionOf core else core / 1024
/-- The number of units of a domain in a package (R23). -/
def unitCount (domain : Nat) : Nat :=
  if domain = 0 then 4096 else if domain = 1 then 256 else if domain = 2 then 64 else 4
/-- The unit has a core of the job: some partition that meets it is allotted (R16). A partition always has job cores. -/
def Job.unitHeld (j : Job) (domain u : Nat) : Bool :=
  if domain = 0 then j.holds u
  else if domain = 1 then
    (List.range 16).any (fun i => j.holds (u / 64 * 1024 + (u / 8 % 8 * 4 + i / 4) * 32 + u % 8 * 4 + i % 4))
  else if domain = 2 then (j.word 1).getLsbD u
  else (List.range 16).any (fun i => (j.word 1).getLsbD (u * 16 + i))
/-- The place of a unit among the units of the allotment, in increasing identifier order (R103). -/
def Job.unitRank (j : Job) (domain u : Nat) : Nat := ((List.range u).filter (j.unitHeld domain)).length
/-- The core set of a level holds the core (R380). -/
def Job.levelHolds (j : Job) (l core : Nat) : Bool :=
  let dom := j.level l 0 0 3
  j.holds core && (decide (4 ≤ dom) || decide (j.unitRank dom (unitOf dom core) < j.level l 0 16 13))
/-- The levels that the record declares (R378). -/
def Job.levels (j : Job) : List Nat := List.range (j.nlevel + 1)
/-- BUDGET of a level (R379). -/
def Job.budget (j : Job) (l : Nat) : Nat := j.level l 1 0 32
/-- NB of a core (R380). -/
def Job.nbOn (j : Job) (core : Nat) : Nat :=
  ((j.levels.filter (fun l => j.levelHolds l core)).map (fun l => j.level l 1 32 11)).foldl Nat.max 0
/-- The largest of a list of numbers, or 0. -/
def maxOf : List Nat → Nat
  | [] => 0
  | x :: t => Nat.max x (maxOf t)
/-- The budget of an activation on a channel of a core (R380). -/
def Job.budgetFor (j : Job) (core c : Nat) : Nat :=
  let on := j.levels.filter (fun l => j.levelHolds l core)
  let entry := on.filter (fun l => j.level l 0 5 6 == c)
  if entry.isEmpty then (if on.isEmpty then maxOf (j.levels.map j.budget) else maxOf (on.map j.budget))
  else maxOf (entry.map j.budget)
/-- The budget that service firmware starts with, before it has set any (R380; log entry 10). -/
def serviceBudget : Nat := 0xFFFFFFFF
/-- The job running on a core (R24). -/
def State.jobOn (s : State) (core : Nat) : Option Job :=
  if (s.core core).hasJob then s.job (s.core core).asid else none
/-- The job's map entry for a job-relative index, when it is bound (R329). -/
def State.famOf (s : State) (j : Job) (k : Nat) : Option Fam :=
  if k < j.fld 11 12 13 then
    let e := s.fam (j.fld 11 0 12 + k)
    if e.valid then some e else none
  else none
/-- This package's member index for a job (R194, R383; log entry 1). -/
def State.ownMember (s : State) (j : Job) : Nat :=
  match s.famOf j (j.fld 0 32 12) with
  | some e => if e.coh then e.member.toNat else 0
  | none => 0

/-! ### Causes (R342) -/

/-- Trap causes by name. -/
def cILLEGAL : BitVec 8 := 0x01
def cDELAYSLOT : BitVec 8 := 0x02
def cRPTBODY : BitVec 8 := 0x03
def cPRIV : BitVec 8 := 0x04
def cMISALIGN : BitVec 8 := 0x05
def cSWZ : BitVec 8 := 0x06
def cREGION : BitVec 8 := 0x07
def cXLATE : BitVec 8 := 0x08
def cPROT : BitVec 8 := 0x09
def cPOISON : BitVec 8 := 0x0A
def cBUDGET : BitVec 8 := 0x0B
def cWAITTIME : BitVec 8 := 0x0C
def cFMT : BitVec 8 := 0x0D
def cDTORDER : BitVec 8 := 0x0E
def cTOKBAD : BitVec 8 := 0x0F
def cBARBAD : BitVec 8 := 0x10
def cSENDBAD : BitVec 8 := 0x11
def cCHANBAD : BitVec 8 := 0x12
def cMIGRBAD : BitVec 8 := 0x13
def cTRAPI : BitVec 8 := 0x14
def cENGBAD : BitVec 8 := 0x15

/-! ### DRAM lines: poison, deadlines, fences (R204 to R211) -/

/-- A line's metadata. -/
def State.lmeta (s : State) (line : Nat) : LMeta := tabGet s.mem.lmeta line LMeta.initial
/-- A line's metadata set. -/
def Mem.setMeta (m : Mem) (line : Nat) (x : LMeta) : Mem := { m with lmeta := tabSet m.lmeta line x }
/-- The window holds the local address (R209). -/
def Window.holds (w : Window) (a : Nat) : Bool :=
  w.valid && decide (w.base.toNat * 2 ^ 21 ≤ a) && decide (a < (w.base.toNat + w.nframe.toNat + 1) * 2 ^ 21)
/-- EXPIRED of a window at a moment (R209, R210): set at the deadline, and until the window is re-armed. -/
def Window.past (w : Window) (t : Word) : Bool := w.expired || (w.valid && decide (w.deadline.toNat ≤ t.toNat))
/-- An access served now to the local address meets an expired window (R210). -/
def State.expiredAt (s : State) (a : Nat) : Bool := s.mem.twt.any (fun p => p.2.holds a && p.2.past s.time)
/-- The local address lies in rows that a failed remap table fences (R211). -/
def State.fencedAt (s : State) (a : Nat) : Bool :=
  s.mem.fenced.any (fun r => decide (r.1 ≤ a) && decide (a < r.1 + r.2))
/-- A read of the DRAM line of the local address meets poison (R208, R210, R211). -/
def State.dramPoisoned (s : State) (a : Nat) : Bool :=
  (s.lmeta (lineOf a)).poison || s.expiredAt a || s.fencedAt a
/-- A read of a scratchpad or tile-store line meets poison (R208). -/
def State.spPoisoned (s : State) (a : Nat) : Bool := s.mem.poison.contains (lineOf a)

/-! ### DRAM written (R206, R208, R214) -/

/-- A line with bytes put over it. -/
def overlay (line : List Byte) (base : Nat) : List Host.Cell → List Byte
  | [] => line
  | (a, b) :: t => overlay (if base ≤ a ∧ a < base + line.length then line.set (a - base) b else line) base t
/-- The cells cover every byte of the aligned line (R208). -/
def wholeLine (cells : List Host.Cell) (line : Nat) : Bool :=
  (List.range 64).all (fun i => cells.any (fun c => c.1 == line * 64 + i))
/-- Line numbers that the cells touch. -/
def linesOf (cells : List Host.Cell) : List Nat := (cells.map (fun c => lineOf c.1)).eraseDups
/-- Cells written to this package's DRAM at local addresses; a line written whole loses its poison (R208), and a page
move's filter records the lines (R214). -/
def Mem.writeDram (m : Mem) (cells : List Host.Cell) : Mem :=
  let clear := (linesOf cells).filter (fun l => wholeLine cells l && (tabGet m.lmeta l LMeta.initial).poison)
  { m with
    cells := memWrite m.cells cells
    lmeta := clear.foldl (fun t l => tabSet t l { tabGet t l LMeta.initial with poison := false }) m.lmeta
    move := m.move.map (fun v => { v with dirty := (v.dirty ++ linesOf cells).eraseDups }) }
/-- A write to DRAM lines is refused with POISON: part of a poisoned line, an expired window, a fence (R208, R210, R211). -/
def State.dramWriteRefused (s : State) (cells : List Host.Cell) : Bool :=
  (linesOf cells).any (fun l => ((s.lmeta l).poison && !wholeLine cells l) || s.expiredAt (l * 64) || s.fencedAt (l * 64))

/-! ### Messages put on their way (R94, R101, R414) -/

/-- Word 0 of a message (R101). -/
def header (kind : BitVec 4) (chan : BitVec 6) (tag : BitVec 16) (dest src : BitVec 12) (serial : BitVec 14) : Word :=
  kind ++ chan ++ tag ++ dest ++ src ++ serial
/-- KIND (R101). -/
def Msg.kind (m : Msg) : Nat := (m.words[0].extractLsb' 60 4).toNat
/-- CHAN (R101). -/
def Msg.chan (m : Msg) : Nat := (m.words[0].extractLsb' 54 6).toNat
/-- TAG (R101). -/
def Msg.tag (m : Msg) : BitVec 16 := m.words[0].extractLsb' 38 16
/-- DEST (R101). -/
def Msg.dest (m : Msg) : Nat := (m.words[0].extractLsb' 26 12).toNat
/-- MSGID of an activation that the message starts (R91). -/
def Msg.msgid (m : Msg) : Word := (0 : BitVec 26) ++ m.pkg ++ m.words[0].extractLsb' 14 12 ++ m.words[0].extractLsb' 0 14
/-- A message of words, with no counted operation behind it. -/
def mkMsg (words : Vector Word 8) (asid : BitVec 16) (pkg : BitVec 12) : Msg :=
  { words := words, asid := asid, pkg := pkg, ackKey := 0, ackId := 0, acq := false, newTask := false }
/-- A message injected into the network (R94). -/
def State.inject (s : State) (src : Nat) (m : Msg) : State :=
  { s.bump with mail := s.mail ++ [{ id := s.sched.nextId, src := src, dest := m.dest, msg := m, retires := none }] }
/-- A notice that no core sends: TAG, SRC, SERIAL and package index zero (R414). -/
def State.notice (s : State) (kind : BitVec 4) (dest chan : Nat) (asid : BitVec 16) (ws : List Word) : State :=
  let w0 := header kind (BitVec.ofNat 6 chan) 0 (BitVec.ofNat 12 dest) 0 0
  s.inject 4096 (mkMsg #v[w0, ws.getD 0 0, ws.getD 1 0, ws.getD 2 0, ws.getD 3 0, ws.getD 4 0, ws.getD 5 0, ws.getD 6 0] asid 0)

/-! ### Packets to other packages (R330, R331, R334) -/

/-- Cycles of a number of microseconds (R5). -/
def cyclesOf (us : Nat) : Nat := 1800 * us

/-- A packet to the package of a map entry: an ordered one binds its destination now, unless the entry is draining, when
it is held at its source (R330, R339); a bulk one is bound already. -/
def State.fabSend (s : State) (asid : BitVec 16) (entry : Nat) (ordered : Bool) (bound : Option Nat) (key op : Nat)
    (body : FabOut) : State :=
  let phys := bound.getD (s.fam entry).phys.toNat
  let r : Retry := { id := s.sched.nextId, phys := phys, index := entry, seq := tabGet (if ordered then s.fabric.nextOrd else s.fabric.nextSeq) phys 0
                     born := s.now, last := s.now, ordered := ordered, asid := asid, key := key, op := op, body := body }
  if ordered && (s.fam entry).drain then s.bump.modFab (fun f => { f with held := f.held ++ [r] })
  else s.bump.modFab (fun f => { f with 
    retry := f.retry ++ [r]
    nextSeq := if ordered then f.nextSeq else tabSet f.nextSeq phys (r.seq + 1)
    nextOrd := if ordered then tabSet f.nextOrd phys (r.seq + 1) else f.nextOrd })

/-- The map entry of a member of a job's coherence domain (R194, R329). -/
def State.memberEntry (s : State) (asid : BitVec 16) (member : Nat) : Option Nat :=
  match s.job asid with
  | some j => ((List.range (j.fld 11 12 13)).find? (fun k => match s.famOf j k with
      | some e => e.coh && e.member.toNat == member
      | none => false)).map (fun k => j.fld 11 0 12 + k)
  | none => none

/-- A circuit to the package is UP (R331). -/
def State.upTo (s : State) (phys : Nat) : Bool :=
  (List.range 64).any (fun p => (s.port p).state == 4 && (s.port p).phys.toNat == phys)
/-- PORTSTAT (R328). -/
def portStat (x : Port) : Word :=
  (0 : BitVec 26) ++ BitVec.ofBool x.jobp ++ (if 65535 < x.skew.toNat then 65535#16 else x.skew.setWidth 16) ++ x.phys ++ x.pport ++ x.state
/-- The running job that a port belongs to: of several, the one whose map binds the far package (log entry 1). -/
def State.fabJob (s : State) (far : Option Nat) : Option Job :=
  let on := s.jobs.filter (·.active)
  match on.find? (fun j => (List.range (j.fld 11 12 13)).any (fun k => match s.famOf j k with
      | some e => some e.phys.toNat == far
      | none => false)) with
  | some j => some j
  | none => on.head?
/-- The job-relative index bound to a package, or 0xFFF. -/
def State.farIndex (s : State) (j : Job) (phys : Nat) : Nat :=
  ((List.range (j.fld 11 12 13)).find? (fun k => match s.famOf j k with
    | some e => e.phys.toNat == phys
    | none => false)).getD 0xFFF
/-- A fabric event of a port (R334): 1 LINKUP, 2 LINKDOWN, 3 SKEW, 4 SRCLOST, 5 STALL, 6 FARUP. Without a far package the index is 0xFFF. -/
def State.fabctl (s : State) (event port : Nat) (far : Option Nat) : State :=
  let x := s.port port
  let words (index : Nat) : List Word := [BitVec.ofNat 64 (event + 2 ^ 8 * port + 2 ^ 14 * index), portStat x, s.time]
  match (if x.jobp then s.fabJob far else none) with
  | some j => s.notice 10 (j.fld 10 18 12) (j.fld 10 30 6) j.asid (words ((far.map (s.farIndex j)).getD 0xFFF))
  | none => s.notice 10 0 0 0 (words 0xFFF)

/-! ### Transactions on lines (R205, R206) -/

/-- The mask of a member's group (R205). -/
def groupMask (member : Nat) : BitVec 4 := 1#4 <<< (member / 8 % 4)
/-- A tower of a local address (R195). -/
def towerOf (a : Nat) : Nat := (a / 2 ^ 8 % 8) ^^^ (a / 2 ^ 19 % 8)
/-- An L2 slice of a local address (R195). -/
def sliceOf (a : Nat) : Nat := 32 * towerOf a + ((a / 2 ^ 11 % 32) ^^^ (a / 2 ^ 22 % 32))
/-- The member index is this package's own: that of its coherent jobs, or 0 where it has none (R194, R329; log entry 1). -/
def State.selfMember (s : State) (m : Nat) : Bool :=
  let own := s.jobs.filter (fun j => match s.famOf j (j.fld 0 32 12) with | some e => e.coh | none => false)
  if own.isEmpty then m == 0 else own.any (fun j => s.ownMember j == m)
/-- The PA is homed in this package. -/
def State.homeHere (s : State) (pa : Nat) : Bool := s.selfMember (pa / 2 ^ 40)
/-- A transaction is in progress on the line of a PA. -/
def State.transOn (s : State) (pa : Nat) : Option Trans := s.mem.trans.find? (fun t => t.line == lineOf pa)
/-- The transaction that is in progress at the home on a line of this package (R205). -/
def State.homeTrans (s : State) (line : Nat) : Option Trans :=
  s.mem.trans.find? (fun t => t.line % 2 ^ 34 == line && t.kind != 2 && t.kind != 3)
/-- Map entries that bind members, one for each package (R329). -/
def State.memberEntries (s : State) (asked : Nat → Bool) : List Nat :=
  (s.fabric.fam.filter (fun p => p.2.valid && p.2.coh && asked p.2.member.toNat)).foldl
    (fun (acc : List Nat) p => if acc.any (fun k => (s.fam k).phys == p.2.phys) then acc else acc ++ [p.1]) []
/-- The map entries of the members that a transaction goes to (R206): the home of our own request; else the owner, and the members of
the mask groups where they hold copies, but the requester. -/
def State.cohEntries (s : State) (pa kind member : Nat) : List Nat :=
  let x := s.lmeta (lineOf (pa % 2 ^ 40))
  s.memberEntries (fun m =>
    if kind = 2 ∨ kind = 3 then m == pa / 2 ^ 40
    else !s.selfMember m && !(4 ≤ kind && m == member) && (if x.state = 4 ∨ (x.state = 3 ∧ kind % 2 = 0) then m == x.owner else
      decide ((x.mask &&& groupMask m) ≠ 0) || (decide (x.state = 3) && m == x.owner)))
/-- A circuit to the package of every entry is UP (R331). -/
def State.reaches (s : State) (entries : List Nat) : Bool := entries.all (fun e => s.upTo (s.fam e).phys.toNat)
/-- An ordered packet of the coherence protocol to a member (R330, R331). -/
def State.cohSend (s : State) (member : Nat) (body : FabOut) : State :=
  (s.memberEntries (· == member)).foldl (fun s e => s.fabSend 0 e true none 0 0 body) s
/-- A transaction starts: 0 a local read, 1 a local write, 2 our GETS, 3 our GETX, 4 a member's GETS, 5 a member's GETX. It leaves
in ordered packets (R330). -/
def State.startTrans (s : State) (pa kind member : Nat) : State :=
  (s.cohEntries pa kind member).foldl (fun s e => s.fabSend 0 e true none 0 0 (.coh (lineOf pa)))
    (s.modMem (fun m => { m with trans := m.trans ++ [{ line := lineOf pa, kind := kind, member := member, born := s.now }] }))
/-- The transaction of a line ends: every answer is in, so every packet of it has arrived. -/
def State.endTrans (s : State) (pa : Nat) : State :=
  (s.modMem (fun m => { m with trans := m.trans.filter (fun t => !(t.line == lineOf pa)) })).modFab (fun f =>
    { f with retry := f.retry.filter (fun r => match r.body with | .coh l => !(l == lineOf pa) | _ => true) })
/-- A line's metadata set, by PA. -/
def State.setLine (s : State) (pa state : Nat) (mask : BitVec 4) (owner : Nat) : State :=
  let l := lineOf (pa % 2 ^ 40)
  s.modMem (fun m => m.setMeta l { s.lmeta l with state := state, mask := mask, owner := owner })
/-- A line's data as a member returned it. -/
def State.lineData (s : State) (pa : Nat) (data : VWord) : State :=
  s.modMem (fun m => m.writeDram (cellsAt (lineOf (pa % 2 ^ 40) * 64) (leBytes 64 data.toNat)))
/-- A copy that is replaced goes home (R206): PUTE of a clean exclusive one, PUTM or PUTO with the data of a written one; a shared
one is dropped silently. -/
def State.evicted (s : State) (line : Nat) (x : RLine) : State :=
  if x.state = 0 ∨ x.poison = true then s
  else s.cohSend (line / 2 ^ 34) (.evict line (if x.state = 1 then 0 else if x.state = 3 then 1 else 2) x.data)
/-- The most lines that a tower keeps of other members' (R201, R203): its share, in units of 64 MiB. -/
def Mem.copyRoom (m : Mem) (tower : Nat) : Nat := (tabGet m.rcsize tower 0).toNat * 2 ^ 20
/-- A copy enters the remote-line share of its tower. With the share used up another of its lines is replaced, a free choice
(R28, R203; log entry 12). -/
def State.copyPut (s : State) (pa : Nat) (x : RLine) : State :=
  let t := towerOf (pa % 2 ^ 40)
  let beside := s.mem.rlines.filter (fun p => !(p.1 == lineOf pa) && towerOf (p.1 * 64 % 2 ^ 40) == t && !s.mem.pins.any (fun q => q.2.2 == p.1))
  let put (kept : Tab RLine) : State := s.modMem (fun m => { m with rlines := tabSet kept (lineOf pa) x })
  if beside.length < Nat.max 1 (s.mem.copyRoom t) then put s.mem.rlines
  else match beside[Config.copyVictim s.sched.fresh % beside.length]? with
    | some v => (put (s.mem.rlines.filter (fun p => !(p.1 == v.1)))).evicted v.1 v.2
    | none => put s.mem.rlines
/-- A transaction is complete (R206): the data and every answer are in. `written` says that a holder had written the line, or,
for our own GETS, that the copy is exclusive. Where the holder keeps the data as owner, the line's data field names it in
bits [4:0] (R204). The home's answer to our own request may be POISON (R207, R208): a free value (log entry 17). A member's request is
answered. -/
def State.completeTrans (s : State) (t : Trans) (written : Bool) (data : VWord) : State :=
  let pa := t.line * 64
  let x := s.lmeta (lineOf (pa % 2 ^ 40))
  let s1 := s.endTrans pa
  let back (s : State) : State := if (x.state = 2 ∧ written = true) ∨ x.state = 3 ∨ x.state = 4 then s.lineData pa data else s
  let copy (state : Nat) : State := (s1.copyPut pa { state := state, data := data, poison := Config.copyPoison s1.sched.fresh }).refresh
  let answered (s : State) : State := s.cohSend t.member (.cohAnswer t.line)
  match t.kind with
  | 0 => (back s1).setLine pa 1 (if x.state = 4 then groupMask x.owner else x.mask) 0
  | 1 => (back s1).setLine pa 0 0 0
  | 2 => copy (if written then 1 else 0)
  | 3 => copy 3
  | 4 =>
    let mask := x.mask ||| groupMask t.member
    answered (if x.state = 2 ∧ written = false then s1.setLine pa 1 mask 0
      else if x.state = 2 then s1.setLine pa 3 mask (data.extractLsb' 0 5).toNat
      else if x.state = 3 then s1.setLine pa 3 mask x.owner
      else if x.state = 4 then s1.setLine pa 3 (groupMask x.owner ||| groupMask t.member) x.owner
      else s1)
  | _ => answered (s1.setLine pa 4 (groupMask t.member) t.member)
/-- The bytes of a line that another package holds, as they come from there: free values (log entry 17). -/
def State.farBytes (s : State) : List Byte := (List.range 64).map (fun i => Config.recalled (s.sched.fresh + i))
/-- The bytes as one datum. -/
def State.farLine (s : State) : VWord := BitVec.ofNat 512 (leNat s.farBytes)
/-- A transaction in progress ends before a later access of the Kamlan itself to its line is served (R205), with free answers
(log entry 17). -/
def State.settleTrans (s : State) (t : Trans) : State :=
  (s.completeTrans t (Config.copyExclusive s.sched.fresh) s.farLine).refreshBy 64
/-- A line of this package has no transaction in progress any more. -/
def State.settleLine (s : State) (line : Nat) : State :=
  match s.homeTrans line with
  | some t => s.settleTrans t
  | none => s
/-- Every member that a local access to the line asks, at once or after a transaction in progress, is reached (R331). -/
def State.lineReached (s : State) (line kind : Nat) : Bool :=
  s.reaches (s.cohEntries (line * 64) kind 0) &&
  (match s.homeTrans line with | some t => s.reaches (s.cohEntries (line * 64) t.kind t.member) | none => true)

/-! ### What no activation owns is recorded (R363, R364) -/

/-- A line's bytes come back from the package that held them (R206). -/
def State.returned (s : State) (line : Nat) : State :=
  (s.modMem (fun m => { m with cells := memWrite m.cells (cellsAt (line * 64) s.farBytes) })).refreshBy 64
/-- A line recalled to HOME for the Kamlan's own write (R206, local write), after a transaction in progress on it (R205): what a remote
package held comes back, and every copy ends. -/
def State.recallLine (s0 : State) (line : Nat) : State :=
  let s := s0.settleLine line
  let x := s.lmeta line
  if x.state = 0 then s
  else
    let s1 := if x.state = 1 then s else s.returned line
    s1.modMem (fun m => m.setMeta line { x with state := 0, mask := 0 })
/-- A line brought to SHARED for the Kamlan's own read (R206, local read), after a transaction in progress on it (R205): what a remote
package held comes back, and it keeps a copy. -/
def State.shareLine (s0 : State) (line : Nat) : State :=
  let s := s0.settleLine line
  let x := s.lmeta line
  if x.state ≤ 1 then s
  else (s.returned line).modMem (fun m => m.setMeta line
    { x with state := 1, mask := if x.state = 4 then groupMask x.owner else x.mask, owner := 0 })

/-- The fields of a RAS record (R364). -/
structure RasInfo where
  source : Nat
  sev : Nat
  unit : Nat
  addr : Nat
  extent : Nat
  count : Nat
  time : Word
  detail : List Word
  deriving DecidableEq, Repr

/-- Word i of a RAS record (R364). -/
def rasWords (r : RasInfo) (dropped : BitVec 32) : List Word :=
  [ BitVec.ofNat 64 (r.source + 2 ^ 8 * r.sev + 2 ^ 16 * r.unit),
    BitVec.ofNat 64 r.addr, BitVec.ofNat 64 r.extent,
    dropped ++ BitVec.ofNat 32 r.count, r.time,
    r.detail.getD 0 0, r.detail.getD 1 0, r.detail.getD 2 0 ]

/-- The home's bytes at a local address as a word. -/
def State.localWord (s : State) (a : Nat) : Word := BitVec.ofNat 64 (leNat (memBytes s.mem.cells a 8))

/-- Bytes at a local address of this package's DRAM written by the Kamlan itself: the lines are first recalled to HOME
(R206; log entry 17). None where the write is refused, or a member that holds a line cannot be reached. -/
def State.putLocal (s : State) (a : Nat) (bytes : List Byte) : Option State :=
  let cells := cellsAt a bytes
  if dramSize < a + bytes.length || s.dramWriteRefused cells || !(linesOf cells).all (fun l => s.lineReached l 1) then none
  else some (((linesOf cells).foldl (fun s l => s.recallLine l) s).modMem (fun m => m.writeDram cells))

/-- The service RAS ring takes a record (R363), or none when it is full or unwritable. -/
def State.rasPut (s0 : State) (rec : List Word) : Option State :=
  let base := s0.dev.rasRing.toNat % 2 ^ 40
  let len := 2 ^ s0.dev.rasLen.toNat
  let s := s0.shareLine (lineOf base)
  let written := s.localWord base
  if s0.lineReached (lineOf base) 0 = false ∨ len ≤ (written - s.localWord (base + 8)).toNat then none
  else
    match s.putLocal (base + 64 + 64 * (written.toNat % len)) (rec.flatMap (fun w => leBytes 8 w.toNat)) with
    | none => none
    | some s1 => s1.putLocal base (leBytes 8 (written + 1).toNat)

/-- A RAS record and its NOTIFY (R363). -/
def State.rasReport (s : State) (r : RasInfo) : State :=
  let rec' := rasWords r s.dev.rasDropped
  let s1 := match s.rasPut rec' with
    | some t => t.modDev (fun d => { d with rasDropped := 0 })
    | none => s.modDev (fun d => { d with rasDropped := d.rasDropped + 1 })
  s1.notice 11 0 2 0 (rec'.take 7)

/-! ### Lines obtained for an access of the package itself (R203, R205 to R207) -/

/-- A line lost: HOME with POISON, and a RAS record (R207). -/
def State.lineLost (s : State) (pa source : Nat) (detail : Word) : State :=
  let l := lineOf (pa % 2 ^ 40)
  (s.modMem (fun m => m.setMeta l { state := 0, mask := 0, poison := true, owner := 0 })).rasReport
    { source := source, sev := 1, unit := towerOf (l * 64), addr := lineOf pa * 64, extent := 64, count := 1, time := s.time, detail := [detail] }
/-- The line of a member's request is lost, and the request is answered with POISON (R207). -/
def State.transLost (s : State) (t : Trans) (source : Nat) (detail : Word) : State :=
  let s1 := (s.endTrans (t.line * 64)).lineLost (t.line * 64) source detail
  if 4 ≤ t.kind then s1.cohSend t.member (.cohAnswer t.line) else s1
/-- A transaction that fails at a member (R207): the line is lost, and its requester gets POISON. -/
def State.transFails (s : State) (pa member : Nat) : State :=
  match s.transOn pa with
  | none => s
  | some t =>
    if t.kind = 2 ∨ t.kind = 3 then ((s.endTrans pa).copyPut pa { state := 3, data := 0, poison := true }).refresh
    else s.transLost t 8 (BitVec.ofNat 64 (member % 32))
/-- A package that no circuit reaches within FABLIFE: the STALL event (R331, R334), on a port that the spec does not name (log entry 27). -/
def State.stalled (s : State) (phys : Nat) : State := (s.fabctl 5 (Config.stallPort s.sched.fresh % 64) (some phys)).refresh
/-- The STALL event of the first of the entries' packages that no circuit reaches. -/
def State.stalledOf (s : State) (entries : List Nat) : State :=
  match entries.find? (fun e => !s.upTo (s.fam e).phys.toNat) with
  | some e => s.stalled (s.fam e).phys.toNat
  | none => s
/-- A line without a transaction in progress, as `obtainLine` obtains it. -/
def State.obtainFree (s : State) (pa : Nat) (write : Bool) : State :=
  let l := lineOf (pa % 2 ^ 40)
  let x := s.lmeta l
  let asked := s.cohEntries (l * 64) (if write then 1 else 0) 0
  if x.state = 0 ∨ (x.state = 1 ∧ write = false) then s
  else if 4 < x.state then s.lineLost pa 9 0
  else if Config.probeAnswered s.sched.fresh && s.reaches asked then (if write then s.refresh.recallLine l else s.refresh.shareLine l)
  else (s.refresh.lineLost pa 8 (BitVec.ofNat 64 ((if 3 ≤ x.state then x.owner else Config.silentMember s.sched.fresh) % 32))).stalledOf asked
/-- A line of this package obtained in one step for a fetch, a walk or the Kamlan itself, to read or to write it (R206; log
entry 17), after a transaction in progress on it (R205): the members that hold it answer, or the line is lost (R207), as it is where no
circuit reaches one of them (R331). -/
def State.obtainLine (s : State) (pa : Nat) (write : Bool) : State :=
  match s.homeTrans (lineOf (pa % 2 ^ 40)) with
  | none => s.obtainFree pa write
  | some t =>
    let asked := s.cohEntries pa t.kind t.member
    if Config.probeAnswered s.sched.fresh && s.reaches asked then (s.refresh.settleTrans t).obtainFree pa write
    else ((s.refresh.transLost t 8 (BitVec.ofNat 64 (Config.silentMember s.sched.fresh % 32))).stalledOf asked).obtainFree pa write

/-! ### Translation (R196 to R200) -/

/-- The leaf's page size in bits by level (R196). -/
def levelBits (level : Nat) : Nat := if level = 1 then 30 else if level = 2 then 21 else 16
/-- The frames of a page of this package lie wholly inside a live transient window, expired or not (R198, R209). -/
def State.inLiveWindow (s : State) (pa size : Nat) : Bool :=
  s.mem.twt.any (fun p => p.2.holds pa && p.2.holds (pa + size - 1))
/-- What R198 says of a leaf at a level: its PA, or XLATE. Whether another member's frames lie in a window of that member is
not known here: a free value (log entry 17). -/
def State.checkLeaf (s : State) (j : Job) (e : Word) (level : Nat) : Except (BitVec 8) Unit :=
  let bits := levelBits level
  let ppn := (e.extractLsb' 16 29).toNat * 2 ^ 16
  let mt := (e.extractLsb' 6 2).toNat
  let member := ppn / 2 ^ 40
  let own := s.ownMember j
  if e.extractLsb' 9 7 ≠ 0 ∨ e.extractLsb' 45 19 ≠ 0 ∨ mt = 3 then .error cXLATE
  else if e.getLsbD 3 && !e.getLsbD 2 then .error cXLATE
  else if ppn % 2 ^ bits ≠ 0 then .error cXLATE
  else if !e.getLsbD 8 && member ≠ own then .error cXLATE
  else if mt = 2 && !(if member = own then s.inLiveWindow (ppn % 2 ^ 40) (2 ^ bits) else Config.farWindow s.sched.fresh) then .error cXLATE
  else .ok ()
/-- The 8-byte table entry at a PA of this package's DRAM (R196): XLATE for another member or an unbacked address,
POISON for a poisoned line. -/
def State.tableEntry (s : State) (j : Job) (pa : Nat) : Except (BitVec 8) Word :=
  if pa / 2 ^ 40 ≠ s.ownMember j ∨ dramSize ≤ pa % 2 ^ 40 then .error cXLATE
  else if s.dramPoisoned (pa % 2 ^ 40) then .error cPOISON
  else .ok (BitVec.ofNat 64 (leNat (memBytes s.mem.cells (pa % 2 ^ 40) 8)))
/-- The next table of a non-leaf entry (R197, R198). -/
def nextTable (e : Word) (align : Nat) : Except (BitVec 8) Nat :=
  if e.extractLsb' 2 6 ≠ 0 ∨ e.extractLsb' 45 19 ≠ 0 then .error cXLATE
  else
    let pa := (e.extractLsb' 8 37).toNat * 256
    if pa % align ≠ 0 then .error cXLATE else .ok pa
/-- The address space of an ASID: a job's, or service firmware's own, whose roots firmware sets as it becomes ready (R380, R411; log
entry 10). -/
def State.space (s : State) (asid : BitVec 16) : Option Job :=
  match s.job asid with
  | some j => some j
  | none => if s.dev.svcRoots ≠ [] ∧ s.dev.svcAsid = asid then
      some { asid := asid, record := List.replicate 14 0 ++ s.dev.svcRoots, active := false } else none
/-- A walk (R196 to R198): the leaf, its level, and the PA of its entry. -/
def State.walk (s : State) (asid : BitVec 16) (va : Nat) : Except (BitVec 8) (Word × Nat × Nat) :=
  match s.space asid with
  | none => .error cXLATE
  | some j =>
    let root := (j.word (14 + regionOf va)).toNat
    if root = 0 then .error cXLATE
    else do
      let a1 := root + 8 * (va / 2 ^ 30 % 2 ^ 18)
      let e1 ← s.tableEntry j a1
      if !e1.getLsbD 0 then .error cXLATE
      else if e1.getLsbD 1 then do s.checkLeaf j e1 1; pure (e1, 1, a1)
      else
        let t2 ← nextTable e1 4096
        let a2 := t2 + 8 * (va / 2 ^ 21 % 2 ^ 9)
        let e2 ← s.tableEntry j a2
        if !e2.getLsbD 0 then .error cXLATE
        else if e2.getLsbD 1 then do s.checkLeaf j e2 2; pure (e2, 2, a2)
        else
          let t3 ← nextTable e2 256
          let a3 := t3 + 8 * (va / 2 ^ 16 % 2 ^ 5)
          let e3 ← s.tableEntry j a3
          if !e3.getLsbD 0 || !e3.getLsbD 1 then .error cXLATE
          else do s.checkLeaf j e3 3; pure (e3, 3, a3)
/-- A table's line brought here before the walk reads it: the walk reads as a PACKAGE load does (R196, R206). -/
def State.readyTable (s : State) (j : Job) (pa : Nat) : State :=
  if pa / 2 ^ 40 = s.ownMember j ∧ pa % 2 ^ 40 < dramSize ∧ ¬ s.dramPoisoned (pa % 2 ^ 40) then s.obtainLine pa false else s
/-- The table that an entry names, if the walk goes on to one. -/
def goesOn (e : Except (BitVec 8) Word) (align : Nat) : Option Nat :=
  match e with
  | .ok w => if w.getLsbD 0 && !w.getLsbD 1 then (nextTable w align).toOption else none
  | .error _ => none
/-- Every table line that a walk reads is readable here (R196, R206). -/
def State.readyWalk (s : State) (asid : BitVec 16) (va : Nat) : State :=
  match s.space asid with
  | none => s
  | some j =>
    let root := (j.word (14 + regionOf va)).toNat
    if root = 0 then s
    else
      let a1 := root + 8 * (va / 2 ^ 30 % 2 ^ 18)
      let s1 := s.readyTable j a1
      match goesOn (s1.tableEntry j a1) 4096 with
      | none => s1
      | some t2 =>
        let a2 := t2 + 8 * (va / 2 ^ 21 % 2 ^ 9)
        let s2 := s1.readyTable j a2
        match goesOn (s2.tableEntry j a2) 256 with
        | none => s2
        | some t3 => s2.readyTable j (t3 + 8 * (va / 2 ^ 16 % 2 ^ 5))
/-- The PA of an address under a leaf of a level, or XLATE where it is not backed or bound (R194). -/
def State.leafPa (s : State) (asid : BitVec 16) (leaf : Word) (level va : Nat) : Except (BitVec 8) Nat :=
  let pa := (leaf.extractLsb' 16 29).toNat * 2 ^ 16 + va % 2 ^ levelBits level
  if dramSize ≤ pa % 2 ^ 40 then .error cXLATE
  else match s.space asid with
    | none => .error cXLATE
    | some j =>
      if pa / 2 ^ 40 = s.ownMember j then .ok pa
      else if (List.range (j.fld 11 12 13)).any (fun k => match s.famOf j k with
          | some e => e.coh && e.member.toNat == pa / 2 ^ 40
          | none => false) then .ok pa
      else .error cXLATE
/-- The access that a permission check is for (R198). -/
inductive Need where
  | rd
  | wr
  | ex
  deriving DecidableEq, Repr
/-- R198: the permission that a leaf lacks, or a service-only leaf at job level, is PROT. -/
def permits (leaf : Word) (need : Need) (svc : Bool) : Bool :=
  (match need with | .rd => leaf.getLsbD 2 | .wr => leaf.getLsbD 3 | .ex => leaf.getLsbD 4) && (svc || !leaf.getLsbD 5)
/-- A leaf of the cluster's translation cache for an address (R200). -/
def State.tlbFind (s : State) (cluster : Nat) (asid : BitVec 16) (va : Nat) : Option Tlb :=
  s.mem.tlb.find? (fun t => t.cluster == cluster && t.asid == asid && va / 2 ^ levelBits t.size == t.page)
/-- A leaf put into the cluster's translation cache: 2,048 entries, the victim a free value (R200; log entry 12). -/
def Mem.tlbAdd (m : Mem) (fresh : Nat) (t : Tlb) : Mem :=
  let mine := m.tlb.filter (fun x => x.cluster == t.cluster && !(x.asid == t.asid && x.size == t.size && x.page == t.page))
  let rest := m.tlb.filter (fun x => !(x.cluster == t.cluster))
  let kept := if mine.length < 2048 then mine else mine.eraseIdx (Config.tlbVictim fresh % 2048)
  { m with tlb := t :: (kept ++ rest) }
/-- Translation through a cluster's cache (R199, R200): the state after it, and the PA with its leaf. -/
def State.translate (s : State) (cluster : Nat) (asid : BitVec 16) (va : Nat) (need : Need) (svc : Bool) :
    State × Except (BitVec 8) (Nat × Word) :=
  let use (leaf : Word) (level : Nat) : Except (BitVec 8) (Nat × Word) :=
    match s.leafPa asid leaf level va with
    | .error c => .error c
    | .ok pa => if permits leaf need svc then .ok (pa, leaf) else .error cPROT
  match (s.tlbFind cluster asid va).filter (fun _ => Config.tlbKeeps s.sched.fresh) with
  | some t => (s.refresh, use t.leaf t.size)
  | none =>
    let s1 := s.readyWalk asid va
    match s1.walk asid va with
    | .error c => (s1.refresh, .error c)
    | .ok (leaf, level, _) =>
      ((s1.refresh).modMem (fun m => m.tlbAdd s1.sched.fresh
          { cluster := cluster, asid := asid, page := va / 2 ^ levelBits level, size := level, leaf := leaf }),
        use leaf level)

/-! ### The memory side at a PA (R194, R203, R206) -/

/-- The line of a PA is homed in this package. -/
def State.homed (s : State) (asid : BitVec 16) (pa : Nat) : Bool :=
  match s.job asid with
  | some j => pa / 2 ^ 40 == s.ownMember j
  | none => pa / 2 ^ 40 == 0
/-- A local read of the line is served at once (R206): HOME or SHARED here with no transaction before it (R205), or a copy of a line
homed elsewhere. -/
def State.lineReadable (s : State) (asid : BitVec 16) (pa : Nat) : Bool :=
  if s.homed asid pa then decide ((s.lmeta (lineOf (pa % 2 ^ 40))).state ≤ 1) && (s.homeTrans (lineOf (pa % 2 ^ 40))).isNone
  else s.mem.rlines.any (fun p => p.1 == lineOf pa)
/-- A local write of the line is served at once (R203): HOME here with no transaction before it (R205), or an E or M copy of a line homed
elsewhere. -/
def State.lineWritable (s : State) (asid : BitVec 16) (pa : Nat) : Bool :=
  if s.homed asid pa then decide ((s.lmeta (lineOf (pa % 2 ^ 40))).state = 0) && (s.homeTrans (lineOf (pa % 2 ^ 40))).isNone
  else s.mem.rlines.any (fun p => p.1 == lineOf pa && (p.2.state == 1 || p.2.state == 3))
/-- The 64 bytes of the line of a PA: DRAM, or the copy of a line homed elsewhere. -/
def State.lineBytes (s : State) (asid : BitVec 16) (pa : Nat) : List Byte :=
  if s.homed asid pa then memBytes s.mem.cells (lineOf (pa % 2 ^ 40) * 64) 64
  else leBytes 64 (tabGet s.mem.rlines (lineOf pa) RLine.none).data.toNat
/-- A line homed elsewhere was answered with POISON (R207). -/
def State.copyPoisoned (s : State) (pa : Nat) : Bool := s.mem.rlines.any (fun p => p.1 == lineOf pa && p.2.poison)
/-- The line of a PA meets poison when read. -/
def State.paPoisoned (s : State) (asid : BitVec 16) (pa : Nat) : Bool :=
  if s.homed asid pa then s.dramPoisoned (pa % 2 ^ 40) else s.copyPoisoned pa
/-- Cells written to scratchpads or tile stores; a line written whole loses its poison (R208). -/
def Mem.writeSp (m : Mem) (cells : List Host.Cell) : Mem :=
  { m with
    cells := memWrite m.cells cells
    poison := m.poison.filter (fun l => !wholeLine cells l) }
/-- A write of fewer than all bytes of a poisoned scratchpad or tile-store line is refused (R208). -/
def State.spWriteRefused (s : State) (cells : List Host.Cell) : Bool :=
  (linesOf cells).any (fun l => s.mem.poison.contains l && !wholeLine cells l)
/-- A write of cells of one line at their PAs is refused with POISON. -/
def State.paWriteRefused (s : State) (asid : BitVec 16) (cells : List Host.Cell) : Bool :=
  let pa := (cells.headD (0, 0)).1
  if s.homed asid pa then s.dramWriteRefused (cells.map (fun c => (c.1 % 2 ^ 40, c.2)))
  else s.copyPoisoned pa && !wholeLine cells (lineOf pa)
/-- Cells at PAs written at the home slice or into an M copy (R203, R205: a store to an E copy makes it M). -/
def State.writePa (s : State) (asid : BitVec 16) (cells : List Host.Cell) : State :=
  match cells with
  | [] => s
  | (pa, _) :: _ =>
    if s.homed asid pa then s.modMem (fun m => m.writeDram (cells.map (fun c => (c.1 % 2 ^ 40, c.2))))
    else s.modMem (fun m =>
      let old := tabGet m.rlines (lineOf pa) RLine.none
      let line := overlay (leBytes 64 old.data.toNat) (lineOf pa * 64) cells
      { m with rlines := tabSet m.rlines (lineOf pa) { state := 3, data := BitVec.ofNat 512 (leNat line), poison := false } })
/-- A line homed elsewhere, with no request of ours in progress, as `obtainCopy` obtains it. -/
def State.obtainCopyFree (s : State) (pa : Nat) (write : Bool) : State :=
  let asked := s.cohEntries pa 3 0
  let held := s.mem.rlines.find? (fun p => p.1 == lineOf pa)
  if held.any (fun p => write == false || p.2.state == 1 || p.2.state == 3) then s
  else if s.reaches asked then
    match held with
    | some (_, x) => s.modMem (fun m => { m with rlines := tabSet m.rlines (lineOf pa) { x with state := 3 } })
    | none => (s.copyPut pa { state := if write then 3 else if Config.copyExclusive s.sched.fresh then 1 else 0
                              data := s.farLine, poison := Config.copyPoison s.sched.fresh }).refreshBy 64
  else ((s.copyPut pa { state := 3, data := 0, poison := true }).refresh).stalledOf asked
/-- A line homed elsewhere obtained in one step, as `obtainLine` obtains one of this package: a copy to read, or an M copy to
write (R205, R206), after a request in progress. What comes from its home is a free value (log entry 17). -/
def State.obtainCopy (s : State) (pa : Nat) (write : Bool) : State :=
  match s.transOn pa with
  | none => s.obtainCopyFree pa write
  | some t => (if s.reaches (s.cohEntries pa t.kind t.member) then s.settleTrans t else
      (s.transFails pa 0).stalledOf (s.cohEntries pa t.kind t.member)).obtainCopyFree pa write
/-- The line of a PA obtained in one step, wherever its home is. -/
def State.obtain (s : State) (asid : BitVec 16) (pa : Nat) (write : Bool) : State :=
  if s.homed asid pa then s.obtainLine pa write else s.obtainCopy pa write

/-! ### Regions (R169 to R173) -/

/-- The address breaks the window's layout (R169). -/
def spMalformed (a : Nat) : Bool := decide (a / 2 ^ 20 % 2 ^ 16 ≠ 0) || decide (spSize ≤ spOff a)
/-- The byte lies in a live region of the job on its owning core (R173). -/
def State.inRegion (s : State) (asid : BitVec 16) (a : Nat) : Bool :=
  let core := spOwner a
  (List.range 32).any (fun n =>
    let r := s.region core n
    decide (0 < r.nbank) && decide (r.reclaim < 2) && r.asid == asid &&
      decide (r.first * 4096 ≤ spOff a) && decide (spOff a < (r.first + r.nbank) * 4096))
/-- The owning core is refused: a service core or outside the job's allotment (R173). Service level is not checked
(log entry 10). -/
def State.ownerRefused (s : State) (asid : BitVec 16) (core : Nat) : Bool :=
  match s.job asid with
  | some j => !j.holds core
  | none => true
/-- A scratchpad access with these bytes is refused with REGION (R173), every check at the owner. -/
def State.spRefused (s : State) (asid : BitVec 16) (svc : Bool) (addrs : List Nat) : Bool :=
  addrs.any (fun a => spMalformed a || (!svc && (s.ownerRefused asid (spOwner a) || !s.inRegion asid a)))
/-- Some range-scoreboard entry of the core overlaps one of the bytes (R182). -/
def Core.guarded (c : Core) (addrs : List Nat) : Bool :=
  c.guards.any (fun g => addrs.any (fun a => decide (g.lo ≤ a) && decide (a < g.hi)))

/-! ### Instruction fetch (R29, R73, R198; log entry 9) -/

/-- The word at an address, or the fault of its fetch. -/
def State.fetch (s : State) (key : Nat) (pc : BitVec 52) : State × Except (BitVec 8) IWord :=
  let a := pc.toNat
  let asid := (s.core (coreOf key)).asid
  let svc := s.svc key
  let rg := regionOf a
  if rg = 0xD ∨ rg = 0xF then (s, .error cXLATE)
  else if rg = 0xE then (s, .error cPROT)
  else if rg = 0xC then
    if !svc then (s, .error cPROT)
    else if spMalformed a then (s, .error cXLATE)
    else if s.spPoisoned a then (s, .error cPOISON)
    else (s, .ok (BitVec.ofNat 32 (leNat (memBytes s.mem.cells a 4))))
  else
    match s.translate (clusterOf (coreOf key)) asid a .ex svc with
    | (s', .error c) => (s', .error c)
    | (s', .ok (pa, _)) =>
      let s'' := if s'.paPoisoned asid pa then s' else s'.obtain asid pa false
      if s''.paPoisoned asid pa then (s'', .error cPOISON)
      else (s'', .ok (BitVec.ofNat 32 (leNat (((s''.lineBytes asid pa).drop (pa % 64)).take 4))))

/-! ### Messages (R93, R94, R101) -/

/-- A notice injected whose entry into the queue retires a token slot (R241). -/
def State.injectRetiring (s : State) (src : Nat) (m : Msg) (r : Option (Nat × Nat)) : State :=
  { s.bump with mail := s.mail ++ [{ id := s.sched.nextId, src := src, dest := m.dest, msg := m, retires := r }] }
/-- The core's next serial number is taken (R101). -/
def State.takeSerial (s : State) (core : Nat) : State := s.modCore core (fun c => { c with serial := c.serial + 1 })
/-- A NOTIFY (KIND 11) from a core, with SRC and SERIAL of that core (R244, R311, R346, R387). All but a trap's acquire at
their activation (R222). -/
def State.notifyFrom (s : State) (src dest chan : Nat) (tag asid : BitVec 16) (ws : List Word) (acq : Bool)
    (r : Option (Nat × Nat)) : State :=
  let w0 := header 11 (BitVec.ofNat 6 chan) tag (BitVec.ofNat 12 dest) (BitVec.ofNat 12 src) (s.core src).serial
  let m := mkMsg #v[w0, ws.getD 0 0, ws.getD 1 0, ws.getD 2 0, ws.getD 3 0, ws.getD 4 0, ws.getD 5 0, ws.getD 6 0] asid (s.pkgOf asid)
  (s.takeSerial src).injectRetiring src { m with acq := acq } r
/-- A channel is refused for a message other than ATOMIC (R440). -/
def State.chanRefused (s : State) (core c : Nat) : Bool := !(s.chan core c).allot || (s.chan core c).atomh
/-- A destination core is refused (R101). Service level is not checked (log entry 10). -/
def State.destRefused (s : State) (key core : Nat) : Bool :=
  !s.svc key && s.ownerRefused (s.core (coreOf key)).asid core
/-- A packet put on its way within the package. -/
def State.launchPkt (s : State) (src : Nat) (tag : BitVec 16) (key op : Nat) (body : Pkt) : State :=
  { s.bump with flights := s.flights ++ [{ id := s.sched.nextId, src := src, tag := tag, key := key, op := op, body := body }] }

/-! ### The answer of an outstanding operation -/

/-- A part of an outstanding operation is answered: a fault stays (R187). -/
def Pend.answered (p : Pend) (r : Reply) : Pend :=
  { p with parts := p.parts - 1
           reply := match p.reply with
             | some (.fault c a) => some (.fault c a)
             | _ => some r }
/-- Every part is answered. -/
def Pend.ready (p : Pend) : Bool := p.parts == 0

/-- The reply of a part of an outstanding operation of a context has come (R177, R180). An operation that counts in no
counter is done with it. An answer to a context that no longer has the operation is discarded (R104, R178); one owed to
a migrated context goes to its forwarding entry (R106). -/
def State.answer (s : State) (key id : Nat) (r : Reply) : State :=
  let c := s.ctx key
  if c.pend.any (fun p => p.id == id) then
    let told := c.pend.map (fun p => if p.id == id then p.answered r else p)
    s.setCtx key { c with pend := told.filter (fun p => p.counted || !p.ready) }
  else
    s.modCore (coreOf key) (fun x =>
      { x with fwds := x.fwds.map (fun f =>
          { f with owed := f.owed.map (fun p => if p.id == id then p.answered r else p) }) })

/-! ### The trap (R341 to R349) -/

/-- What a trap record says beyond the context's own state (R344). -/
structure TrapInfo where
  cause : BitVec 8
  pc : BitVec 52
  word : IWord
  faddr : Word
  token : BitVec 32
  tcode : BitVec 12
  defer : Bool
  late : Bool
  /-- ITER and SLOT, when they are valid. -/
  rpt : Option (BitVec 8 × BitVec 4)
  deriving DecidableEq, Repr

/-- The HDR of a record: q0 of the message (R344). -/
def trapRecord (s : State) (key : Nat) (t : TrapInfo) : List Word :=
  let c := s.ctx key
  let rp := t.rpt.getD (0, 0)
  let bit (b : Bool) : BitVec 1 := BitVec.ofBool b
  [ (0 : BitVec 10) ++ BitVec.ofNat 6 c.chan ++ c.taskTag ++ (0 : BitVec 4) ++ BitVec.ofNat 12 (coreOf key)
      ++ (0 : BitVec 2) ++ bit t.late ++ bit t.rpt.isSome ++ bit t.defer ++ BitVec.ofNat 3 (ctxOf key) ++ t.cause,
    rp.2 ++ rp.1 ++ t.pc,
    (0 : BitVec 20) ++ t.tcode ++ t.word,
    c.msgid,
    t.faddr,
    (c.budget - c.budgetLeft) ++ t.token,
    s.time,
    c.q[0] ]

/-- A byte run of a job's own memory read and written by the Kamlan at PACKAGE scope (R345, R243, R363), through the
job's translation. None where it faults. -/
def State.jobCells (s : State) (core : Nat) (asid : BitVec 16) (svc : Bool) (va len : Nat) (need : Need) :
    State × Except (BitVec 8) Nat :=
  match s.translate (clusterOf core) asid va need svc with
  | (s', .error c) => (s', .error c)
  | (s', .ok (pa, _)) =>
    let s1 := if need == .rd && s'.paPoisoned asid pa then s' else s'.obtain asid pa (need != .rd)
    if s1.paPoisoned asid pa && (need == .rd || decide (len < 64)) then (s1, .error cPOISON)
    else if s1.homed asid pa && (s1.expiredAt (pa % 2 ^ 40) || s1.fencedAt (pa % 2 ^ 40)) then (s1, .error cPOISON)
    else (s1, .ok pa)

/-- The word at a PA. -/
def State.paWord (s : State) (asid : BitVec 16) (pa : Nat) : Word :=
  BitVec.ofNat 64 (leNat (((s.lineBytes asid pa).drop (pa % 64)).take 8))

/-- The place k of a record reserved by the atomic add to WRITTEN at the home slice of the ring's first line, made only while
WRITTEN − READ is below the ring's length (R345). A slice in another package answers with a free value, and ends our copy of
the line (log entry 17). -/
def State.reserveRecord (s : State) (asid : BitVec 16) (pa len : Nat) : State × Option Word :=
  let full (written read : Word) : Bool := decide (len ≤ (written - read).toNat)
  if s.homed asid pa then
    let s1 := s.obtainLine pa true
    let written := s1.paWord asid pa
    let add := cellsAt pa (leBytes 8 (written + 1).toNat)
    if s1.paWriteRefused asid add || full written (s1.paWord asid (pa + 8)) then (s1, none)
    else (s1.writePa asid add, some written)
  else if s.reaches (s.cohEntries pa 3 0) = false then (s.stalledOf (s.cohEntries pa 3 0), none)
  else
    let word (i : Nat) : Word := BitVec.ofNat 64 (leNat ((s.farBytes.drop (8 * i)).take 8))
    let s1 := (s.modMem (fun m => { m with rlines := m.rlines.filter (fun p => !(p.1 == lineOf pa)) })).refreshBy 64
    (s1, if full (word 0) (word 1) then none else some (word 0))
/-- A record written to the job's trap ring (R345). The Boolean is RLOST. -/
def State.ringWrite (s : State) (core : Nat) (j : Job) (rec : List Word) : State × Bool :=
  let base := (j.fld 9 0 52)
  let len := 2 ^ (j.fld 9 52 5)
  match s.translate (clusterOf core) j.asid base .wr false with
  | (s1, .error _) => (s1, true)
  | (s1, .ok (pa, _)) =>
    match s1.reserveRecord j.asid pa len with
    | (s2, none) => (s2, true)
    | (s2, some k) =>
      match s2.jobCells core j.asid false ((base + 64 + 64 * (k.toNat % len)) % 2 ^ 52) 64 .wr with
      | (s3, .error _) => (s3, true)
      | (s3, .ok pa') => (s3.writePa j.asid (cellsAt pa' (leBytes 64 (leNat (rec.flatMap (fun w => leBytes 8 w.toNat))))), false)

/-- RLOST set in word 0 of a record (R344). -/
def setLost (w : Word) (lost : Bool) : Word := if lost then w ||| 0x4000#64 else w

/-- The record and the NOTIFY of a trap or of a late store fault (R345 to R347). -/
def State.reportTrap (s : State) (key : Nat) (rec : List Word) : State :=
  let core := coreOf key
  let words (lost : Bool) : List Word := setLost (rec.getD 0 0) lost :: (rec.drop 1).take 6
  match (if s.svc key then none else s.jobOn core) with
  | none => s.notifyFrom core 0 1 0 (s.core core).asid (words true) false none
  | some j =>
    let (s1, lost) := s.ringWrite core j rec
    let tc := j.fld 10 0 12
    let ch := j.fld 10 12 6
    if !j.holds tc || j.chanRefused ch then s1.notifyFrom core 0 1 0 j.asid (words lost) false none
    else s1.notifyFrom core tc ch 0 j.asid (words lost) false none

/-- A message returned to the head of its channel's queue, keeping its slot and MSGID (R343). -/
def requeueHead (inbox : List Slot) (id : Nat) : List Slot :=
  (inbox.filter (fun x => x.id == id)).map (fun x => { x with busy := false }) ++ inbox.filter (fun x => !(x.id == id))

/-- A message returned to the tail of its channel's queue, keeping its slot and MSGID (R104). -/
def requeueTail (inbox : List Slot) (id : Nat) : List Slot :=
  inbox.filter (fun x => !(x.id == id)) ++ (inbox.filter (fun x => x.id == id)).map (fun x => { x with busy := false })

/-- A context after its activation has ended: free, and keeping nothing that the next activation sees (R88). -/
def freed (c : Ctx) : Ctx := { Ctx.initial with act := c.act }

/-- A trap: the activation of the context ends, its message returns to its queue, its channel is disabled, the record
and the NOTIFY go out, and the context drains its stores (R343). -/
def State.takeTrap (s : State) (key : Nat) (t : TrapInfo) : State :=
  let core := coreOf key
  let c := s.ctx key
  let rec' := trapRecord s key t
  let s1 := s.modCore core (fun x => match c.slot with
    | some id => { x with inbox := requeueHead x.inbox id }
    | none => x)
  let s2 := s1.modChan core c.chan (fun h => { h with enable := false })
  let s3 := if s.svc key then s2
    else s2.modCore core (fun x => { x with trapCause := t.cause, trapPc := t.pc, trapMsg := c.msgid, trapAddr := t.faddr })
  let s4 := s3.reportTrap key rec'
  s4.modCtx key (fun c =>
    if c.st = 0 then freed c
    else { settled c with
      phase := .drain, buffered := [], deferred := [], rpt := none, delay := none
      ld := 0, cp := 0, tl := 0
      pend := c.pend.filter (fun p => !p.load && p.counted)
      trapRec := BitVec.ofNat 512 (leNat (rec'.flatMap (fun w => leBytes 8 w.toNat))) })

/-- The word in execution as it was fetched (R72, R344): of a replayed word, the captured word of the frame, before its
staggers (log entry 43). -/
def fetchedWord (c : Ctx) : IWord :=
  match c.rpt with
  | some r => r.frame.getD r.slot 0
  | none => c.ir
/-- The PC, word and RPT place that a trap of the instruction in execution reports (R36, R41, R344). -/
def trapHere (c : Ctx) (cause : BitVec 8) (faddr : Word) (token : BitVec 32) (tcode : BitVec 12) : TrapInfo :=
  { cause := cause, faddr := faddr, token := token, tcode := tcode, defer := false, late := false, word := fetchedWord c
    pc := match c.rpt with
      | some r => r.base + 4 + 4 * BitVec.ofNat 52 r.slot
      | none => c.pc
    rpt := c.rpt.map (fun r => (BitVec.ofNat 8 r.iter, BitVec.ofNat 4 r.slot)) }

/-- trap(cause) with a fault address, in the pseudocode of an instruction (R11, R342). -/
def trapAt (s : State) (cause : BitVec 8) (faddr : Word) : State :=
  s.takeTrap s.sched.cur (trapHere s.me cause faddr 0 0)

/-- trap(cause) with FADDR 0. -/
def trapNow (s : State) (cause : BitVec 8) : State := trapAt s cause 0

/-- A blocking wait goes on; at WAITLIMIT 0 a wait that must wait traps at once (R143, R179, R356). -/
def blockOn (s : State) (a : Await) (tok : BitVec 32) : State :=
  if s.me.waitLimit = 0 then s.takeTrap s.sched.cur (trapHere s.me cWAITTIME 0 tok 0)
  else s.modMe (fun c => { c with waiting := true, blocking := true, await := a, awaitTok := tok
                                  waited := if c.waiting && c.blocking then c.waited else 0 })

/-- A wait that only the budget bounds goes on (R356). -/
def holdBack (s : State) : State :=
  s.modMe (fun c => { c with waiting := true, blocking := false, waited := if c.waiting && !c.blocking then c.waited else 0 })

/-- The bytes of fetch failed for the word at an address: WORD 0, FADDR the address (R36, R40, R73). -/
def trapFetch (s : State) (pc : BitVec 52) (faulting : BitVec 52) (cause : BitVec 8) : State :=
  s.takeTrap s.sched.cur { trapHere s.me cause (faulting.setWidth 64) 0 0 with pc := pc, word := 0, rpt := none }

/-- The return from a trap: CHEN of the channel lets the message at its head be selected again, and a new activation
runs the whole handler (R349, R108). In context 7 it also clears SPILL when no message awaits a spill activation (R97). -/
def State.enableChannel (s : State) (core c : Nat) (fromCollie : Bool) : State :=
  let waits := (s.core core).inbox.any (fun x => x.chan == c && !x.busy)
  s.modChan core c (fun h =>
    { h with enable := true, spill := if fromCollie && h.spill && !waits then false else h.spill })

end Sys2Proof.Machine
end

