-- ==== Sys2Proof/Machine/Operands.lean ====
section
/-!
DEFINITION. Operand forms: lanes of vector registers (R57, R140), tags of fat pointers (R45), swizzles (R175),
format-table entries (R124), the decode table (R129 to R131), narrow codes, blocks and scales (R120 to R123), packed
streams, and the masks of structured sparsity (R128).
-/
namespace Sys2Proof.Machine

/-! ### Lanes (R57, R140) -/

/-- Bits of a lane's container (R57). -/
def laneBits (t : Nat) : Nat :=
  if t = 0 ∨ t = 3 ∨ t = 4 then 32 else if t = 1 ∨ t = 2 ∨ t = 5 then 16 else 8
/-- Lanes of a type (R57). -/
def laneCount (t : Nat) : Nat := 512 / laneBits t
/-- Lane i for a container of c bits (R140). -/
def lane (v : VWord) (c i : Nat) : Nat := (v.extractLsb' (i * c) c).toNat
/-- A vector of lanes, the first one lowest (R140). -/
def ofLanes (c : Nat) (xs : List Nat) : VWord := BitVec.ofNat 512 (xs.foldr (fun x a => x % 2 ^ c + 2 ^ c * a) 0)
/-- A natural number read as signed two's complement of c bits. -/
def signedOf (c x : Nat) : Int := if 2 ^ (c - 1) ≤ x % 2 ^ c then (x % 2 ^ c : Nat) - (2 ^ c : Nat) else (x % 2 ^ c : Nat)
/-- The low c bits of an integer. -/
def lowBits (c : Nat) (x : Int) : Nat := (x % (2 ^ c : Nat)).toNat
/-- An integer clamped to a range. -/
def clampInt (lo hi x : Int) : Int := if x < lo then lo else if hi < x then hi else x
/-- What lane arithmetic has done so far: lanes written, flags raised, the generator (R119, R141). -/
structure LaneAcc where
  lanes : List Nat
  flags : BitVec 5
  seed : Word
/-- Lanes computed in increasing order: active lanes by f, inactive lanes kept, flags ORed, draws in lane order (R141). -/
def eachLane (f : Nat → Word → Nat × BitVec 5 × Word) (mask : Word) (old : VWord) (c : Nat) :
    List Nat → Word → LaneAcc
  | [], seed => { lanes := [], flags := 0, seed := seed }
  | i :: t, seed =>
    if mask.getLsbD i then
      let (x, fl, seed') := f i seed
      let r := eachLane f mask old c t seed'
      { r with lanes := x :: r.lanes, flags := fl ||| r.flags }
    else
      let r := eachLane f mask old c t seed
      { r with lanes := lane old c i :: r.lanes }
/-- A lane function that raises no flag and draws nothing. -/
def pureLane (f : Nat → Nat) : Nat → Word → Nat × BitVec 5 × Word := fun i seed => (f i, 0, seed)
/-- A lane function that raises flags and draws nothing. -/
def flagLane (f : Nat → Nat × BitVec 5) : Nat → Word → Nat × BitVec 5 × Word := fun i seed => ((f i).1, (f i).2, seed)

/-! ### Tags (R45) and swizzles (R175) -/

/-- EKIND (R45). -/
def tagKind (p : Word) : Nat := (p.extractLsb' 60 4).toNat
/-- FMTIX (R45). -/
def tagFmt (p : Word) : Nat := (p.extractLsb' 56 4).toNat
/-- BLOG (R45). -/
def tagBlog (p : Word) : Nat := (p.extractLsb' 52 4).toNat
/-- VA (R45). -/
def tagVa (p : Word) : Nat := (p.extractLsb' 0 52).toNat

/-- The swizzled offset (R175). -/
def swzOff (n o : Nat) : Nat :=
  let f (lo len at_ : Nat) : Nat := o ^^^ (o / 2 ^ lo % 2 ^ len) * 2 ^ at_
  match n with
  | 1 => f 6 3 12
  | 2 => f 6 4 12
  | 3 => f 6 5 12
  | 4 => f 12 3 6
  | 5 => f 6 4 2
  | 6 => f 6 5 1
  | 7 => f 6 3 3
  | _ => o
/-- A byte address of the window swizzled (R175): bits [19:0] alone change. -/
def swzAddr (n a : Nat) : Nat := a / 2 ^ 20 * 2 ^ 20 + swzOff n (a % 2 ^ 20)
/-- The largest scalar size of a swizzle (R175). -/
def swzLimit (n : Nat) : Nat := if n = 5 then 4 else if n = 6 then 2 else 8

/-! ### Format-table entries (R124) -/

/-- EKIND. -/
def ftKind (e : BitVec 256) : Nat := (e.extractLsb' 0 4).toNat
/-- WIDTH. -/
def ftWidth (e : BitVec 256) : Nat := (e.extractLsb' 4 4).toNat
/-- BLOG. -/
def ftBlog (e : BitVec 256) : Nat := (e.extractLsb' 8 4).toNat
/-- SKIND. -/
def ftSkind (e : BitVec 256) : Nat := (e.extractLsb' 12 2).toNat
/-- SMEN. -/
def ftSmen (e : BitVec 256) : Bool := e.getLsbD 14
/-- VALID. -/
def ftValid (e : BitVec 256) : Bool := e.getLsbD 15
/-- SLEN + 1, the number of divisors (R127). -/
def ftSlen (e : BitVec 256) : Nat := (e.extractLsb' 16 16).toNat + 1
/-- SDISP, signed. -/
def ftSdisp (e : BitVec 256) : Int := (e.extractLsb' 64 52).toInt
/-- SPTR. -/
def ftSptr (e : BitVec 256) : Nat := (e.extractLsb' 128 52).toNat
/-- W of an element kind with the entry's WIDTH (R120). -/
def kindWidth (kind width : Nat) : Nat := if kind = 5 then 8 else if kind = 8 then 1 else width
/-- W of an entry. -/
def ftW (e : BitVec 256) : Nat := kindWidth (ftKind e) (ftWidth e)
/-- Bb: bytes of a block (R126). -/
def ftBlockBytes (e : BitVec 256) : Nat := ftW e * 2 ^ ftBlog e / 8
/-- A record that FTWR and the launch take (R9, R124): every RES field zero, each field in its range. -/
def ftRecordOk (e : BitVec 256) : Bool :=
  e.extractLsb' 32 32 == 0 && e.extractLsb' 116 12 == 0 && e.extractLsb' 180 76 == 0 &&
  (match ftKind e with
    | 5 => ftWidth e == 0
    | 6 => decide (2 ≤ ftWidth e) && decide (ftWidth e ≤ 8)
    | 7 => decide (1 ≤ ftWidth e) && decide (ftWidth e ≤ 8)
    | 8 => ftWidth e == 0
    | _ => false) &&
  decide (ftSkind e ≤ 1) && (decide (ftBlog e ≠ 0) == decide (ftSkind e = 1)) &&
  (!ftSmen e || (regionOf (ftSptr e) == 0xC && decide (ftSptr e % 64 = 0))) &&
  (ftBlog e == 0 || decide (ftW e * 2 ^ ftBlog e % 8 = 0))
/-- The entry that a tag names; entry 0 is "none". -/
def Core.ftEntry (c : Core) (ix : Nat) : BitVec 256 := tabGet c.ft ix 0
/-- A tag that does not agree with its entry (R46, R125). -/
def tagRefused (e : BitVec 256) (p : Word) : Bool :=
  let k := tagKind p
  let ix := tagFmt p
  let w := if ix = 0 then kindWidth k 0 else ftW e
  decide (9 ≤ k) || (decide (tagBlog p ≠ 0) && decide (ix = 0)) ||
  (decide (ix ≠ 0) && (!ftValid e || decide (k ≤ 4) || decide (k ≠ ftKind e) || decide (tagBlog p ≠ ftBlog e))) ||
  (decide (ix = 0) && (k == 6 || k == 7)) ||
  (decide (5 ≤ k) && (if tagBlog p ≠ 0 then decide (tagVa p % ftBlockBytes e ≠ 0) else decide (tagVa p % w ≠ 0)))
/-- The address of the scale of block j of an operand at address a (R126). -/
def scaleAddr (e : BitVec 256) (a j : Nat) : Nat :=
  ((ftSdisp e + ((a % 2 ^ 52 / ftBlockBytes e + j : Nat) : Int)) % (2 ^ 52 : Nat)).toNat

/-! ### The decode table (R129 to R131) -/

/-- The AF19 pattern of a code (R129). -/
def dtPattern (dt : List (BitVec 19)) (mode : Bool) (c : Nat) : BitVec 19 :=
  if mode && decide (128 ≤ c % 256) then dt.getD (c % 256 - 128) 0 ^^^ 0x40000 else dt.getD (c % 256) 0
/-- The value of a code (R129). -/
def dtValue (dt : List (BitVec 19)) (mode : Bool) (c : Nat) : FVal := unpack (fmtOf 3) (dtPattern dt mode c).toNat
/-- The entries that the order of R130 concerns. -/
def dtConcerned (dt : List (BitVec 19)) (mode : Bool) : List (BitVec 19) := if mode then dt.take 128 else dt
/-- Values that never fall. -/
def nonDecreasing : List FVal → Bool
  | x :: y :: t => !valLt y x && nonDecreasing (y :: t)
  | _ => true
/-- The order of R130. -/
def dtOrdered (dt : List (BitVec 19)) (mode : Bool) : Bool :=
  let es := dtConcerned dt mode
  let vs := es.map (fun e => unpack (fmtOf 3) e.toNat)
  vs.all (fun v => !v.isNan && !v.isInf) && (!mode || es.all (fun e => !e.getLsbD 18)) && nonDecreasing vs
/-- The entry whose distance from v is least; among equals the least even index, else the least (R131). -/
def nearestEntry (v : FVal) : List FVal → Nat → Nat × Int → Nat
  | [], _, best => best.1
  | e :: t, k, best =>
    -- distances are compared in units of AF19's smallest subnormal's finest common unit with v
    let q := min v.unit (-136)
    let d := ((e.units q - v.units q).natAbs : Int)
    let better := decide (best.2 < 0) || decide (d < best.2) || (decide (d = best.2) && decide (best.1 % 2 = 1) && decide (k % 2 = 0))
    nearestEntry v t (k + 1) (if better then (k, d) else best)
/-- The code of a value and the flags (R131). -/
def t8Encode (dt : List (BitVec 19)) (mode : Bool) (x0 : FVal) : Nat × BitVec 5 :=
  let x := if x0.isNan then .fin false 0 0 else x0
  let es := (dtConcerned dt mode).map (fun e => unpack (fmtOf 3) e.toNat)
  let base := if mode && x.neg then 128 else 0
  let v0 := if mode then x.abs else x
  let v := if v0.isInf then (if v0.neg then es.getD 0 (.fin false 0 0) else es.getD (es.length - 1) (.fin false 0 0)) else v0
  let k := nearestEntry v es 0 (0, -1)
  let code := base + k
  (code, flagIf (x0.isNan || x.isInf) fNV ||| flagIf (!valEq (dtValue dt mode code) x) fNX)
/-- Qmax of T8 (R120): the largest finite magnitude in the table for its mode. -/
def dtMax (dt : List (BitVec 19)) (mode : Bool) : FVal :=
  (dtConcerned dt mode).foldl (fun a e =>
    let v := (unpack (fmtOf 3) e.toNat).abs
    if v.isNan || v.isInf then a else if valLt a v then v else a) (.fin false 0 0)
/-- Beyond every entry of the table (R132). -/
def t8Beyond (dt : List (BitVec 19)) (mode : Bool) (x : FVal) : Bool :=
  let es := (dtConcerned dt mode).map (fun e => unpack (fmtOf 3) e.toNat)
  let v := if mode then x.abs else x
  !x.isNan && !x.isInf && (es.all (fun e => valLt e v) || (!mode && es.all (fun e => valLt v e)))

/-! ### Narrow kinds and blocks (R120 to R123) -/

/-- The value of a code of a kind (R120). -/
def codeValue (dt : List (BitVec 19)) (mode : Bool) (kind w c : Nat) : FVal :=
  if kind = 5 then dtValue dt mode c
  else if kind = 8 then FVal.ofInt (if c % 2 = 1 then 1 else -1)
  else if kind = 6 then FVal.ofInt (signedOf w c)
  else FVal.ofInt ((c % 2 ^ w : Nat) : Int)
/-- The range of an integer kind (R120). -/
def kindRange (kind w : Nat) : Int × Int :=
  if kind = 6 then (-((2 ^ (w - 1) : Nat) : Int), ((2 ^ (w - 1) : Nat) : Int) - 1) else (0, ((2 ^ w : Nat) : Int) - 1)
/-- Qmax (R120). -/
def kindMax (dt : List (BitVec 19)) (mode : Bool) (kind w : Nat) : FVal :=
  if kind = 5 then dtMax dt mode else FVal.ofInt (kindRange kind w).2
/-- The value of an element of a block with scale e; 0xFF is a NaN block (R121, R133). -/
def scaled (x : FVal) (e : Nat) : FVal := if e = 0xFF then .nan false else x.scale ((e : Int) - 127)
/-- The code of x at sign rule of b1: 1 for x at least 0, -0 included (R122). -/
def signCode (x : FVal) : Nat := if x.neg && !x.isZero then 0 else 1

/-- What encoding some elements gave: codes, flags, and for each element the case of R134 it met
(1 NaN, 2 infinite, 4 overflow or saturation, 8 subnormal result). -/
structure Coded where
  codes : List Nat
  flags : BitVec 5
  conv : List Nat

/-- One element to an unscaled kind (R123, R131, R132) with a draw. An infinity saturates in every one of them (R134; log entry 23). -/
def codeOne (dt : List (BitVec 19)) (dm : Bool) (kind w mode r : Nat) (x : FVal) : Nat × BitVec 5 × Nat :=
  let src := (if x.isNan then 1 else 0) + (if x.isInf then 2 else 0)
  if kind = 5 then
    let (c, fl) := t8Encode dt dm x
    (c, fl, src + (if x.isInf || t8Beyond dt dm x then 4 else 0) + (if isSubnormal (fmtOf 3) (dtPattern dt dm c).toNat then 8 else 0))
  else if kind = 8 then
    if x.isNan then (1, fNV, src)
    else if x.isInf then (signCode x, fNV ||| fNX, src + 4)
    else (signCode x, flagIf (!valEq x.abs (FVal.ofInt 1)) fNX, src)
  else
    let (lo, hi) := kindRange kind w
    let (i, fl) := intConv lo hi mode r x
    (lowBits w i, fl, src + (if !x.isNan && fl &&& fNV ≠ 0 then 4 else 0))

/-- The scale of a block (R122): its E8 byte and whether the block overflows. -/
def blockScale (dt : List (BitVec 19)) (dm : Bool) (kind w : Nat) (xs : List FVal) : Nat × Bool :=
  let m := xs.foldl (fun a x => if valLt a x.abs then x.abs else a) (.fin false 0 0)
  if m.isInf then (254, true)
  else if kind = 8 then
    match m with
    | .fin _ man exp => if man = 0 then (0, false) else ((clampInt 0 254 (topExp man exp + 127)).toNat, false)
    | _ => (0, false)
  else
    let qm := kindMax dt dm kind w
    match (List.range 255).find? (fun (e : Nat) => !valLt (qm.scale ((e : Int) - 127)) m) with
    | some e => (e, false)
    | none => (254, true)

/-- One element of a scaled block (R122, R132) with a draw. To T8 it goes as R131 says in every case, infinities and -0 included, which
R132 leaves to R131 (log entry 23). An element beyond Qmax of its scale overflows, whatever it rounds to (R134). -/
def codeScaled (dt : List (BitVec 19)) (dm : Bool) (kind w mode e r : Nat) (x : FVal) : Nat × BitVec 5 × Nat :=
  let y := x.scale (127 - (e : Int))
  let beyond := valLt (kindMax dt dm kind w) y.abs
  if kind = 8 then (signCode x, 0, if x.isInf then 6 else 0)
  else if kind = 5 then
    let (c, fl) := t8Encode dt dm y
    if x.isInf then (c, fl, 6)
    else (c, fl, (if beyond || t8Beyond dt dm y then 4 else 0) + (if isSubnormal (fmtOf 3) (dtPattern dt dm c).toNat then 8 else 0))
  else
    let (lo, hi) := kindRange kind w
    if x.isInf then (lowBits w (if x.neg then lo else hi), 0, 6)
    else
      let (i, inexact) := toInt mode r y
      let j := clampInt lo hi i
      (lowBits w j, flagIf (inexact || decide (j ≠ i)) fNX, if beyond || decide (j ≠ i) then 4 else 0)

/-- A scaled block quantised (R122): its scale byte with its codes. Draws are given one for each element. An infinity or a NaN that smoothing
made of a finite element (R127) counts as one of the source (R134; log entry 51). -/
def quantBlock (dt : List (BitVec 19)) (dm : Bool) (kind w mode : Nat) (xs : List (FVal × Nat)) : Nat × Coded :=
  let vs := xs.map (·.1)
  if vs.any FVal.isNan then
    (0xFF, { codes := vs.map (fun _ => 0), flags := fNV
             conv := vs.map (fun x => (if x.isNan then 1 else 0) + (if x.isInf then 2 else 0)) })
  else
    let (e, ovf) := blockScale dt dm kind w vs
    let rs := xs.map (fun p => codeScaled dt dm kind w mode e p.2 p.1)
    let unit : FVal := FVal.scale (FVal.ofInt 1) ((e : Int) - 127)
    let b1nx := decide (kind = 8) && !vs.all (fun x => valEq x.abs unit)
    (e, { codes := rs.map (·.1)
          flags := rs.foldl (fun a p => a ||| p.2.1) (flagIf ovf (fOF ||| fNX) ||| flagIf b1nx fNX)
          conv := rs.map (·.2.2) })

/-- A list cut into runs of n (n at least 1), given enough fuel. -/
def chunksOf {α : Type} (n : Nat) : Nat → List α → List (List α)
  | 0, _ => []
  | f + 1, xs => if xs.isEmpty then [] else xs.take n :: chunksOf n f (xs.drop n)

/-- Elements quantised to an entry's kind (R122, R123): codes, scales, flags, cases. -/
def quantise (dt : List (BitVec 19)) (dm : Bool) (kind w blog mode : Nat) (xs : List (FVal × Nat)) : Coded × List Nat :=
  if blog = 0 then
    let rs := xs.map (fun p => codeOne dt dm kind w mode p.2 p.1)
    ({ codes := rs.map (·.1), flags := rs.foldl (fun a p => a ||| p.2.1) 0, conv := rs.map (·.2.2) }, [])
  else
    let bs := (chunksOf (2 ^ blog) xs.length xs).map (quantBlock dt dm kind w mode)
    ({ codes := bs.flatMap (·.2.codes), flags := bs.foldl (fun a b => a ||| b.2.flags) 0
       conv := bs.flatMap (·.2.conv) }, bs.map (·.1))

/-- Which elements of a quantisation draw under SR (R119; log entry 23): integer kinds alone, and in a block neither an
infinite element nor any element of a NaN block. -/
def quantDraws (kind blog : Nat) (xs : List FVal) (active : Nat → Bool) : List Bool :=
  if kind = 5 ∨ kind = 8 then xs.map (fun _ => false)
  else if blog = 0 then xs.zipIdx.map (fun p => active p.2)
  else ((chunksOf (2 ^ blog) xs.length xs.zipIdx).map (fun b =>
      let nanBlock := b.any (fun p => p.1.isNan)
      b.map (fun p => !nanBlock && !p.1.isInf && active p.2))).flatten

/-- Draws from a generator for the elements that draw, in order (R119). -/
def takeDraws : List Bool → Word → List Nat × Word
  | [], s => ([], s)
  | b :: t, s =>
    if b then
      let (s', r) := sr s
      let (rs, e) := takeDraws t s'
      (r :: rs, e)
    else
      let (rs, e) := takeDraws t s
      (0 :: rs, e)

/-- x divided by its channel's divisor under RNE (R127): the FP32 value and its flags. -/
def smoothOne (x d : FVal) : FVal × BitVec 5 :=
  let (q, f1) := divExact x d
  let (p, f2) := roundTo (fmtOf 0) 0 0 q
  (unpack (fmtOf 0) p, f1 ||| f2)
/-- Elements smoothed by their divisors (R127): the values and the flags. -/
def smoothAll (xs ds : List FVal) : List FVal × BitVec 5 :=
  let rs := (xs.zip ds).map (fun p => smoothOne p.1 p.2)
  (rs.map (·.1), rs.foldl (fun a p => a ||| p.2) 0)

/-! ### Packed streams (R120) -/

/-- Element i of W bits of a little-endian bit stream held as a number. -/
def streamGet (w x i : Nat) : Nat := x / 2 ^ (i * w) % 2 ^ w
/-- A stream of elements of W bits. -/
def streamOf (w : Nat) (cs : List Nat) : Nat := cs.foldr (fun c a => c % 2 ^ w + 2 ^ w * a) 0

/-! ### Structured sparsity (R128) -/

/-- A mask word of a group of twelve: zero above bit 11, and this many ones. -/
def sparseOk (w n : Nat) : Bool :=
  decide (w / 4096 % 16 = 0) && decide (((List.range 12).filter (fun k => w.testBit k)).length = n)
/-- The positions kept by a mask word, increasing. -/
def sparseKept (w : Nat) : List Nat := (List.range 12).filter (fun k => w.testBit k)

/-- Ones of a word. -/
def popCount (x : Word) : Nat := ((List.range 64).filter (fun i => x.getLsbD i)).length

end Sys2Proof.Machine
end

