-- ==== Sys2Proof/Machine/Access.lean ====
section
/-!
DEFINITION. Loads and stores from issue to their end (R177 to R192, R199, R203, R216 to R219): the checks at issue, the
waits, the banks, the L1, the store buffer, L2, and the packets between cores. Log entry 11 says when a load reads and a
store writes.
-/
namespace Sys2Proof.Machine

/-! ### Places and overlaps -/

/-- The address is a scratchpad address (R169). -/
def isSp (a : Nat) : Bool := regionOf a == 0xC
/-- A scratchpad address of another core. -/
def isRemote (core a : Nat) : Bool := isSp a && !(spOwner a == core)
/-- Some byte is in both lists. -/
def overlaps (xs ys : List Nat) : Bool := xs.any (fun x => ys.contains x)
/-- Scratchpad bytes are in both lists. -/
def overlapsSp (xs ys : List Nat) : Bool := xs.any (fun x => isSp x && ys.contains x)

/-- An access to these bytes, the id-th of its core, waits at its source: behind an atomic of any context (R229), behind
an unacknowledged remote store of any context (R186, R217), and in a scratchpad behind earlier accesses of its own
context that it must not pass (R186, R217). -/
def State.sourceBlocked (s : State) (key id : Nat) (store : Bool) (addrs : List Nat) : Bool :=
  let core := coreOf key
  (List.range 8).any (fun j =>
    (s.ctx (core * 8 + j)).pend.any (fun p =>
      decide (p.id < id) &&
      ((decide (p.route = .atomic) && !p.ready && overlaps p.addrs addrs) ||
       (!p.load && overlapsSp p.addrs addrs && p.addrs.any (isRemote core)) ||
       (core * 8 + j == key && !p.ready && (!p.load || store) && overlapsSp p.addrs addrs))))

/-! ### The L1 (R183, R199) -/

/-- The L1's set of a line (R183). -/
def l1Set (line : Nat) : Nat := line % 64
/-- A line of the L1, by ASID and line of the virtual address. -/
def Core.l1Find (c : Core) (asid : BitVec 16) (line : Nat) : Option L1Line :=
  c.l1.find? (fun l => l.asid == asid && l.line == line)
/-- The line is marked resident at L1 (R190). -/
def Core.pinned (c : Core) (asid : BitVec 16) (line : Nat) : Bool := c.pins.contains (asid, line)
/-- A line put into the L1: with 8 ways in use the victim is one of the unpinned ways, a free choice (R183; log entry 12);
with every way pinned the line does not enter. -/
def Core.l1Put (c : Core) (fresh : Nat) (x : L1Line) : Core :=
  let others := c.l1.filter (fun l => !(l.asid == x.asid && l.line == x.line))
  let ways := others.filter (fun l => l1Set l.line == l1Set x.line)
  if ways.length < 8 then { c with l1 := x :: others }
  else
    let open_ := ways.filter (fun l => !c.pinned l.asid l.line)
    match open_[Config.l1Victim fresh % open_.length]? with
    | some v => { c with l1 := x :: others.filter (fun l => !(l.asid == v.asid && l.line == v.line)) }
    | none => c
/-- L1 lines of an ASID invalidated, all of them or those that overlap a byte range (R192, R226). -/
def Core.l1Inval (c : Core) (asid : BitVec 16) (all : Bool) (lo len : Nat) : Core :=
  { c with l1 := c.l1.filter (fun l =>
      !(l.asid == asid && (all || (decide (0 < len) && decide (l.line * 64 < lo + len) && decide (lo < l.line * 64 + 64))))) }

/-- What the core's own earlier stores put over a line (R184): those on their way to L2, and those in the store buffer. -/
def State.ownStores (s : State) (core : Nat) (asid : BitVec 16) (line : Nat) : List Host.Cell :=
  (s.mem.l2q.filter (fun e => e.core == core && e.asid == asid && e.vline == line)).flatMap (fun e =>
      e.cells.map (fun c => (line * 64 + c.1 % 64, c.2)))
    ++ ((s.core core).sb.filter (fun e => e.asid == asid && e.line == line)).flatMap (·.cells)

/-- An atomic of the core on the line is not performed yet: no load fills the line meanwhile, since the core may not read it
older than the atomic afterwards (R217, R227). -/
def State.atomicOn (s : State) (core line : Nat) : Bool :=
  (List.range 8).any (fun j => (s.ctx (core * 8 + j)).pend.any (fun p =>
    decide (p.route = .atomic) && !p.ready && p.addrs.any (fun a => lineOf a == line)))

/-! ### Reading -/

/-- One line of regions 0x0 to 0xB read by a core: an L1 hit, or a miss that is translated, served by the memory side and
fills the L1 (R183, R184, R199), with the core's own stores where the leaf lets them be performed. None while the memory side must first obtain the line (R206). -/
def State.readLine (s : State) (key : Nat) (bypass : Bool) (line : Nat) : Option (State × Except (BitVec 8) (List Byte)) :=
  let core := coreOf key
  let asid := (s.core core).asid
  let stored := s.ownStores core asid line
  match (if bypass then none else (s.core core).l1Find asid line) with
  | some l => some (s, if l.rd then .ok (overlay (leBytes 64 l.data.toNat) (line * 64) stored) else .error cPROT)
  | none =>
    match s.translate (clusterOf core) asid (line * 64) .rd (s.svc key) with
    | (s1, .error c) => some (s1, .error c)
    | (s1, .ok (pa, leaf)) =>
      if s1.paPoisoned asid pa then some (s1, .error cPOISON)
      else if !s1.lineReadable asid pa then none
      else
        let raw := overlay (s1.lineBytes asid pa) (line * 64) stored
        let fill := if leaf.getLsbD 3 then raw else s1.lineBytes asid pa
        let s2 := if bypass || leaf.extractLsb' 6 2 == 1 || s1.atomicOn core line then s1
          else (s1.modCore core (fun c => c.l1Put s1.sched.fresh
            { line := line, asid := asid, data := BitVec.ofNat 512 (leNat fill), rd := leaf.getLsbD 2, wr := leaf.getLsbD 3 })).refresh
        some (s2, .ok raw)

/-- Several lines read one after another. -/
def State.readLines (s : State) (key : Nat) (bypass : Bool) :
    List Nat → Option (State × Except (BitVec 8) (List (Nat × List Byte)))
  | [] => some (s, .ok [])
  | l :: t =>
    match s.readLine key bypass l with
    | none => none
    | some (s1, .error c) => some (s1, .error c)
    | some (s1, .ok b) =>
      match s1.readLines key bypass t with
      | none => none
      | some (s2, .error c) => some (s2, .error c)
      | some (s2, .ok r) => some (s2, .ok ((l, b) :: r))

/-- The bytes of an access read at one moment (log entry 11). None while it waits at its source or the memory side must
first obtain a line. -/
def State.readBytes (s : State) (key id : Nat) (bypass : Bool) (addrs : List Nat) :
    Option (State × Except (BitVec 8) (List Byte)) :=
  let asid := (s.core (coreOf key)).asid
  if s.sourceBlocked key id false addrs then none
  else
    let sp := addrs.filter isSp
    if s.spRefused asid (s.svc key) sp then some (s, .error cREGION)
    else if sp.any s.spPoisoned then some (s, .error cPOISON)
    else
      match s.readLines key bypass ((addrs.filter (fun a => !isSp a)).map lineOf).eraseDups with
      | none => none
      | some (s1, .error c) => some (s1, .error c)
      | some (s1, .ok lines) =>
        some (s1, .ok (addrs.map (fun a =>
          if isSp a then memGet s1.mem.cells a
          else ((lines.find? (fun p => p.1 == lineOf a)).map (fun p => p.2.getD (a % 64) 0)).getD 0)))

/-! ### Checks at issue (R186) -/

/-- Addresses that no access may name: 0xD and 0xF are XLATE, 0xE is PROT (R186). -/
def regionCheck (ea : Nat) : Except (BitVec 8) Unit :=
  if regionOf ea = 0xD ∨ regionOf ea = 0xF then .error cXLATE
  else if regionOf ea = 0xE then .error cPROT
  else .ok ()
/-- The first of these addresses that no access may name. -/
def regionsCheck : List Nat → Except (BitVec 8) Unit
  | [] => .ok ()
  | a :: t => match regionCheck a with
    | .error c => .error c
    | .ok () => regionsCheck t
/-- The scratchpad checks made at issue: the window's layout and the owning core for any core, the live regions for the
core's own (R173, R186). -/
def State.spCheck (s : State) (key : Nat) (addrs : List Nat) : Except (BitVec 8) Unit :=
  let asid := (s.core (coreOf key)).asid
  let svc := s.svc key
  if addrs.any (fun a => isSp a && (spMalformed a || (!svc && s.ownerRefused asid (spOwner a)) ||
      (!isRemote (coreOf key) a && !svc && !s.inRegion asid a))) then .error cREGION
  else .ok ()
/-- The byte addresses of an access of z bytes under a swizzle (R175, R176). -/
def accessAddrs (ea z swz : Nat) : List Nat :=
  (List.range z).map (fun i => if isSp ea then swzAddr swz (ea + i) else ea + i)
/-- The checks of R186 in its order, for an access of z bytes; `vector` is a form of R176's second point. -/
def State.accessCheck (s : State) (key ea z swz : Nat) (vector : Bool) : Except (BitVec 8) Unit :=
  match regionCheck ea with
  | .error c => .error c
  | .ok () =>
    if ea % z ≠ 0 then .error cMISALIGN
    else if swz ≠ 0 ∧ (isSp ea = false ∨ (!vector && decide (swzLimit swz < z) && decide (5 ≤ swz)) = true) then .error cSWZ
    else s.spCheck key (accessAddrs ea z swz)

/-- An acquire holds back later loads, stores and child-operation issues until its register is written (R226). -/
def acqHeld (c : Ctx) : Bool := c.pend.any (fun p => decide (p.acq ≠ 0))
/-- The access stalls on the range scoreboard of its own core (R182). -/
def State.guardHit (s : State) (core : Nat) (addrs : List Nat) : Bool :=
  (s.core core).guarded (addrs.filter (fun a => isSp a && !isRemote core a))
/-- The access must wait before it issues: an acquire, the scoreboard, or a counter at 63 (R179, R182, R226). -/
def State.accessWaits (s : State) (key : Nat) (load : Bool) (addrs : List Nat) : Bool :=
  let c := s.ctx key
  acqHeld c || s.guardHit (coreOf key) addrs || (if load then decide (63 ≤ c.ld) else decide (63 ≤ c.st))

/-! ### Issuing -/

/-- A load put on its way: LD rises, and a load of one other core's scratchpad becomes a packet (R186). -/
def pushLoad (s : State) (ea : Nat) (addrs : List Nat) (dst : Dst) (acq : Nat) : State :=
  let key := s.sched.cur
  let core := coreOf key
  let c := s.ctx key
  let id := s.sched.nextId
  let remote := !addrs.isEmpty && addrs.all (fun a => isRemote core a && spOwner a == spOwner (addrs.headD 0))
  let p : Pend := { id := id, load := true, route := if remote then .remote else if addrs.all isSp then .bank else .dram
                    dst := dst, addrs := addrs, cells := [], parts := 1, reply := none, acq := acq, counted := true
                    pc := c.pc, word := c.ir, ea := BitVec.ofNat 64 ea, serial := 0, born := s.now }
  let s1 := s.bump.setCtx key { c with ld := c.ld + 1, pend := c.pend ++ [p] }
  if remote then s1.launchPkt core c.taskTag key id (.rload (spOwner (addrs.headD 0)) addrs (s.core core).asid (s.svc key))
  else s1

/-- Every earlier load of the core that reads one of the bytes and has not read yet reads now, so that it cannot see a
store issued after it (R217; log entry 11). None when one cannot. -/
def State.settleLoads (s : State) (addrs : List Nat) : List (Nat × Pend) → Option State
  | [] => some s
  | (k, p) :: t =>
    if p.load && decide (p.route = .dram) && !p.ready && overlaps p.addrs addrs then
      match s.readBytes k p.id (p.acq == 2) p.addrs with
      | none => none
      | some (s1, r) =>
        (s1.answer k p.id (match r with | .ok b => .bytes b | .error c => .fault c p.ea)).settleLoads addrs t
    else s.settleLoads addrs t
/-- The outstanding operations of a core with their contexts. -/
def State.corePends (s : State) (core : Nat) : List (Nat × Pend) :=
  (List.range 8).flatMap (fun j => (s.ctx (core * 8 + j)).pend.map (fun p => (core * 8 + j, p)))

/-- Bytes outside the scratchpads that an atomic of the core has not yet performed touches (R229). -/
def State.atomicAhead (s : State) (core : Nat) (addrs : List Nat) : Bool :=
  (s.corePends core).any (fun q => decide (q.2.route = .atomic) && !q.2.ready && q.2.addrs.any (fun a => !isSp a && addrs.contains a))

/-- The L1 line updated by a store that hits it and may write (R184, R199). -/
def Core.l1Store (c : Core) (asid : BitVec 16) (cells : List Host.Cell) : Core :=
  { c with l1 := c.l1.map (fun l =>
      if l.asid == asid && l.wr then
        { l with data := BitVec.ofNat 512 (leNat (overlay (leBytes 64 l.data.toNat) (l.line * 64) cells)) }
      else l) }
/-- Bytes put over others, the later ones staying. -/
def mergeCells (old new : List Host.Cell) : List Host.Cell := old.filter (fun c => !new.any (fun d => d.1 == c.1)) ++ new
/-- A store's bytes of one line put into the store buffer, coalescing with an entry of the line (R184). -/
def Core.sbPut (c : Core) (asid : BitVec 16) (line : Nat) (cells : List Host.Cell) (who : Nat × Nat) (now : Nat) (svc : Bool) : Core :=
  if c.sb.any (fun e => e.asid == asid && e.line == line && e.svc == svc) then
    { c with sb := c.sb.map (fun e =>
        if e.asid == asid && e.line == line && e.svc == svc then
          { e with cells := mergeCells e.cells cells, stores := e.stores ++ [who] }
        else e) }
  else { c with sb := c.sb ++ [{ line := line, asid := asid, cells := cells, stores := [who], born := now, svc := svc }] }
/-- The store buffer has room for stores to these lines (R184). -/
def Core.sbRoom (c : Core) (asid : BitVec 16) (svc : Bool) (lines : List Nat) : Bool :=
  decide (c.sb.length + (lines.filter (fun l => !c.sb.any (fun e => e.asid == asid && e.line == l && e.svc == svc))).length ≤ 16)

/-- A store put on its way: ST rises; bytes of the core's own banks wait to be written there, bytes of other cores'
scratchpads become packets, and the rest enters the L1 and the store buffer (R184, R186). -/
def pushStore (s : State) (ea : Nat) (cells : List Host.Cell) : State :=
  let key := s.sched.cur
  let core := coreOf key
  let c := s.ctx key
  let id := s.sched.nextId
  let asid := (s.core core).asid
  let svc := s.svc key
  let own := cells.filter (fun x => isSp x.1 && !isRemote core x.1)
  let far := cells.filter (fun x => isRemote core x.1)
  let owners := (far.map (fun x => spOwner x.1)).eraseDups
  let dram := cells.filter (fun x => !isSp x.1)
  let lines := linesOf dram
  let p : Pend := { id := id, load := false
                    route := if dram.isEmpty then (if own.isEmpty then .remote else .bank) else .dram
                    dst := .none, addrs := cells.map (·.1), cells := own
                    parts := (if own.isEmpty then 0 else 1) + owners.length + lines.length
                    reply := if cells.isEmpty then some .done else none
                    acq := 0, counted := true, pc := c.pc, word := c.ir, ea := BitVec.ofNat 64 ea, serial := 0, born := s.now }
  let s1 := s.bump.setCtx key { c with st := c.st + 1, pend := c.pend ++ [p] }
  let s2 := owners.foldl (fun s o =>
    s.launchPkt core c.taskTag key id (.rstore o (far.filter (fun x => spOwner x.1 == o)) asid svc)) s1
  s2.modCore core (fun x =>
    lines.foldl (fun x l => x.sbPut asid l (dram.filter (fun y => lineOf y.1 == l)) (key, id) s.now svc) (x.l1Store asid dram))

/-- A load of z bytes issues, waits or traps (R186). -/
def issueLoad (s : State) (ea z swz : Nat) (vector : Bool) (dst : Dst) (acq : Nat) : Out :=
  match s.accessCheck s.sched.cur ea z swz vector with
  | .error c => .next (trapAt s c (BitVec.ofNat 64 ea))
  | .ok () =>
    let addrs := accessAddrs ea z swz
    if s.accessWaits s.sched.cur true addrs then .next (blockOn s .nothing 0)
    else .next (retire (pushLoad s ea addrs dst acq))

/-- Checked bytes are stored, or the store waits: for the acquire, scoreboard and counter of R179 as a blocking wait, for
room in the store buffer and for earlier loads of the bytes as an interlock (R184; log entry 11). -/
def storeCells (s : State) (ea : Nat) (cells : List Host.Cell) (done : State → State) : Out :=
  let key := s.sched.cur
  let core := coreOf key
  let addrs := cells.map (·.1)
  if s.accessWaits key false addrs then .next (blockOn s .nothing 0)
  else if s.atomicAhead core addrs then .next (holdBack s)
  else if !(s.core core).sbRoom (s.core core).asid (s.svc key) (linesOf (cells.filter (fun x => !isSp x.1))) then .next (holdBack s)
  else match s.settleLoads addrs (s.corePends core) with
    | none => .next (holdBack s)
    | some s1 => .next (done (pushStore s1 ea cells))

/-- A store of bytes issues, waits or traps (R186). -/
def issueStore (s : State) (ea swz : Nat) (vector : Bool) (data : List Byte) : Out :=
  match s.accessCheck s.sched.cur ea data.length swz vector with
  | .error c => .next (trapAt s c (BitVec.ofNat 64 ea))
  | .ok () => storeCells s ea ((accessAddrs ea data.length swz).zip data) retire

/-- Bytes read by an instruction that waits for them (R138, R166, R321): the checks of R186, the waits, and then the
bytes. A fault traps at the instruction with the first address. `blocking` says whether the wait for the bytes themselves
is one that WAITLIMIT bounds (R356). -/
def readNow (s : State) (blocking : Bool) (addrs : List Nat) (k : State → List Byte → Out) : Out :=
  let key := s.sched.cur
  let bad (c : BitVec 8) : Out := .next (trapAt s c (BitVec.ofNat 64 (addrs.headD 0)))
  match regionsCheck addrs with
  | .error c => bad c
  | .ok () =>
    match s.spCheck key addrs with
    | .error c => bad c
    | .ok () =>
      if acqHeld (s.ctx key) || s.guardHit (coreOf key) addrs then .next (blockOn s .nothing 0)
      else match s.readBytes key s.sched.nextId false addrs with
        | none => .next (if blocking then blockOn s .nothing 0 else holdBack s)
        | some (s1, .error c) => .next (trapAt s1 c (BitVec.ofNat 64 (addrs.headD 0)))
        | some (s1, .ok b) => k s1 b

/-! ### The store buffer's way to L2 (R184, R199, R203) -/

/-- An answer for every store of a list. -/
def State.answerAll (s : State) (who : List (Nat × Nat)) (r : Nat → Nat → Reply) : State :=
  who.foldl (fun s p => s.answer p.1 p.2 (r p.1 p.2)) s
/-- The address that an operation's fault names (R342). -/
def State.faultAddr (s : State) (key id : Nat) : Word :=
  (((s.ctx key).pend.find? (fun p => p.id == id)).map (·.ea)).getD 0
/-- An entry leaves the store buffer: it is translated at the cluster boundary, and its stores fault or go to L2 (R199). -/
def State.drainEntry (s : State) (core : Nat) (e : SbEntry) : State :=
  let s0 := s.modCore core (fun c => { c with sb := c.sb.filter (fun x => !(x.asid == e.asid && x.line == e.line && x.svc == e.svc)) })
  match s0.translate (clusterOf core) e.asid (e.line * 64) .wr e.svc with
  | (s1, .error c) => s1.answerAll e.stores (fun k i => .fault c (s1.faultAddr k i))
  | (s1, .ok (pa, _)) =>
    s1.bump.modMem (fun m => { m with l2q := m.l2q ++ [
      { id := s1.sched.nextId, core := core, vline := e.line, asid := e.asid, stores := e.stores
        cells := e.cells.map (fun c => (pa + c.1 % 64, c.2)) }] })
/-- Every entry of the core's store buffer that is chosen leaves it. -/
def State.drainWhere (s : State) (core : Nat) (f : SbEntry → Bool) : State :=
  ((s.core core).sb.filter f).foldl (fun s e => s.drainEntry core e) s
/-- A store on its way can be accepted (R203): it is the first of its line from its core, and the package may write the line. -/
def State.acceptReady (s : State) (e : L2Store) : Bool :=
  !s.mem.l2q.any (fun x => decide (x.id < e.id) && x.core == e.core && x.asid == e.asid && x.vline == e.vline) &&
  s.lineWritable e.asid ((e.cells.headD (0, 0)).1)
/-- L2 accepts the store, or refuses it with POISON (R203, R208, R210, R211). -/
def State.accept (s : State) (e : L2Store) : State :=
  let s1 := s.modMem (fun m => { m with l2q := m.l2q.filter (fun x => !(x.id == e.id)) })
  if s.paWriteRefused e.asid e.cells then
    s1.answerAll e.stores (fun k i => .fault cPOISON (s1.faultAddr k i))
  else (s1.writePa e.asid e.cells).answerAll e.stores (fun _ _ => .done)

end Sys2Proof.Machine
end

