-- ==== Sys2Proof/Machine/Control.lean ====
section
/-!
DEFINITION. Branches, jumps and their delay slots, RPT and WAITC (R37 to R43, R153, R154, R193).
-/
namespace Sys2Proof.Machine

/-- Words that may not stand in a delay slot (R40): by the major, and for MSG and SYS by the sub-op alone. -/
def slotBanned (w : IWord) : Bool :=
  let op := fMajor w
  (decide (0x20 ≤ op) && decide (op ≤ 0x24)) || op == 0x3E ||
  (op == 0x26 && (fSub w == 4 || fSub w == 6 || fSub w == 7)) || (op == 0x27 && fQ w == 2)

/-- Both delay slots inspected (R40): the state after the two fetches, or the state after the trap. -/
def checkSlots (s : State) : State × Option State :=
  let p := ownAddr s.me
  match s.fetch s.sched.cur (p + 4) with
  | (s1, .error c) => (s1, some (trapFetch s1 (p + 4) (p + 4) c))
  | (s1, .ok w1) =>
    match s1.fetch s.sched.cur (p + 8) with
    | (s2, .error c) => (s2, some (trapFetch s2 (p + 8) (p + 8) c))
    | (s2, .ok w2) => if slotBanned w1 || slotBanned w2 then (s2, some (trapNow s2 cDELAYSLOT)) else (s2, none)

/-- A checked transfer (R39, R154): the two slots come next, and then the target or the word after them. The link, if
any, is written now. -/
def transfer (s : State) (take : Bool) (dest : BitVec 52) (link : Option Reg) : Out :=
  let p := ownAddr s.me
  .next (s.modMe (fun c =>
    let c1 := match link with
      | some d => wrG c d ((p + 12).setWidth 64)
      | none => c
    { advance (settled c1) with delay := some { left := 2, dest := if take then dest else p + 12 } }))

/-- BR under a condition with a displacement in words (R154). -/
def branch (take : Bool) (disp : BitVec 52) (s : State) : Out :=
  match checkSlots s with
  | (_, some t) => .next t
  | (s1, none) => transfer s1 take (ownAddr s1.me + disp <<< 2) none

/-- The conditions of R38. -/
def condHolds (n : Nat) (x y : Word) : Bool :=
  match n with
  | 0 => x == y
  | 1 => x != y
  | 2 => x.slt y
  | 3 => !x.slt y
  | 4 => x.ult y
  | _ => !x.ult y

/-- BR.EQ (R38, R154). -/
def execBrEq (a b : Reg) (d : BitVec 13) (s : State) : Out := branch (condHolds 0 (rdG s.me a) (rdG s.me b)) (d.signExtend 52) s
/-- BR.NE (R38, R154). -/
def execBrNe (a b : Reg) (d : BitVec 13) (s : State) : Out := branch (condHolds 1 (rdG s.me a) (rdG s.me b)) (d.signExtend 52) s
/-- BR.LT (R38, R154). -/
def execBrLt (a b : Reg) (d : BitVec 13) (s : State) : Out := branch (condHolds 2 (rdG s.me a) (rdG s.me b)) (d.signExtend 52) s
/-- BR.GE (R38, R154). -/
def execBrGe (a b : Reg) (d : BitVec 13) (s : State) : Out := branch (condHolds 3 (rdG s.me a) (rdG s.me b)) (d.signExtend 52) s
/-- BR.LTN (R38, R154). -/
def execBrLtn (a b : Reg) (d : BitVec 13) (s : State) : Out := branch (condHolds 4 (rdG s.me a) (rdG s.me b)) (d.signExtend 52) s
/-- BR.GEN (R38, R154). -/
def execBrGen (a b : Reg) (d : BitVec 13) (s : State) : Out := branch (condHolds 5 (rdG s.me a) (rdG s.me b)) (d.signExtend 52) s

/-- J with a displacement in words (R154). -/
def jump (disp : BitVec 52) (link : Option Reg) (s : State) : Out :=
  match checkSlots s with
  | (_, some t) => .next t
  | (s1, none) => transfer s1 true (ownAddr s1.me + disp <<< 2) link
/-- J (R154). -/
def execJ (d : BitVec 26) (s : State) : Out := jump (d.signExtend 52) none s
/-- JL (R154): g31 is the link. -/
def execJl (d : BitVec 26) (s : State) : Out := jump (d.signExtend 52) (some 31) s
/-- JR and JLR (R154): the target is read before the link is written; a misaligned target traps at the jump (R29). -/
def jumpReg (a : Reg) (link : Option Reg) (s : State) : Out :=
  match checkSlots s with
  | (_, some t) => .next t
  | (s1, none) =>
    let dest := (rdG s1.me a).extractLsb' 0 52
    if dest.extractLsb' 0 2 ≠ 0 then .next (trapAt s1 cMISALIGN (dest.setWidth 64)) else transfer s1 true dest link
/-- JR (R154). -/
def execJr (a : Reg) (s : State) : Out := jumpReg a none s
/-- JLR (R154). -/
def execJlr (d a : Reg) (s : State) : Out := jumpReg a (some d) s

/-- The arithmetic class (R42), by major. -/
def arithClass (w : IWord) : Bool :=
  let op := fMajor w
  (decide (1 ≤ op) && decide (op ≤ 0x0D)) || (decide (0x28 ≤ op) && decide (op ≤ 0x2E))

/-- The words of a frame (R41), or the trap of the first that cannot be fetched: PC and FADDR are that word's own address and
WORD is 0, as R40 gives for a slot; the manual names none for a frame (log entry 44). -/
def fetchFrame (s : State) (p : BitVec 52) : Nat → List IWord → State × Except State (List IWord)
  | 0, acc => (s, .ok acc.reverse)
  | n + 1, acc =>
    match s.fetch s.sched.cur p with
    | (s1, .error c) => (s1, .error (trapFetch s1 p p c))
    | (s1, .ok w) => fetchFrame s1 (p + 4) n (w :: acc)

/-- The frame captured and checked (R41, R42): the state after the fetches with the frame, or the state after the trap. -/
def captureFrame (s : State) (n : Nat) : Except State (State × List IWord) :=
  match fetchFrame s (s.me.pc + 4) n [] with
  | (_, .error t) => .error t
  | (s1, .ok ws) =>
    match ws.findIdx? (fun w => !arithClass w) with
    | some k => .error (s1.takeTrap s1.sched.cur { trapHere s1.me cRPTBODY 0 0 0 with rpt := some (0, BitVec.ofNat 4 k) })
    | none => .ok (s1, ws)

/-- RPT (R41, R42): the frame is captured and checked, and its words come next. -/
def execRpt (n : BitVec 4) (c : BitVec 8) (d a b : Fld3) (s : State) : Out :=
  match captureFrame s (n.toNat + 1) with
  | .error t => .next t
  | .ok (s1, ws) => .next (s1.modMe (fun x => { settled x with
      rpt := some { base := x.pc, frame := ws, count := c.toNat + 1, sd := d.toInt, sa := a.toInt, sb := b.toInt
                    iter := 0, slot := 0 } }))

/-- A limit of WAITC holds (R43). -/
def limitHolds (limit : BitVec 6) (count : Nat) : Bool := decide (limit = 63) || decide (count ≤ limit.toNat)
/-- WAITC (R193). -/
def execWaitc (l st c t : BitVec 6) (s : State) : Out :=
  if limitHolds l s.me.ld && limitHolds st s.me.st && limitHolds c s.me.cp && limitHolds t s.me.tl then .next (retire s)
  else .next (blockOn s .nothing 0)

end Sys2Proof.Machine
end

