-- ==== Sys2Proof/Machine/Sched.lean ====
section
/-!
DEFINITION. Which step the package takes next (log entry 2), which instruction a context comes to issue (R73, R92, R36,
R41), and the passing of cycles (R5, R96, R98).
-/
namespace Sys2Proof.Machine

/-! ### The instruction that a context comes to issue -/

/-- The word of a frame with its staggers applied (R41): d and a in every arithmetic form, b in F3 and FV forms alone. -/
def staggered (w : IWord) (i : Nat) (sd sa sb : Int) : IWord :=
  let put (x : BitVec 5) (st : Int) : BitVec 5 := BitVec.ofInt 5 (x.toInt + i * st)
  let op := fMajor w
  let b := if op = 0x01 ∨ op = 0x0C ∨ (0x28 ≤ op ∧ op ≤ 0x2E) then put (fB w) sb else fB w
  op ++ put (fD w) sd ++ put (fA w) sa ++ b ++ fFn w

/-- The instruction of a word, or the step that traps ILLEGAL (R72). -/
noncomputable def instrOf (key : Nat) (w : IWord) : Instr :=
  match decode w with
  | .ok i => i
  | .error _ => .illegalInstruction key

/-- A deferred fault that interrupts the wait in progress (R187, R226): of a counter that WAITC waits on, a store fault under END,
YIELD or MIGR, which wait for ST, and any fault under FENCE or the wait of a release. -/
noncomputable def interruptsWait (c : Ctx) : Bool :=
  match c.await, decodeWord c.ir with
  | .fence _, _ => !c.deferred.isEmpty
  | _, some (.fence _ _) => !c.deferred.isEmpty
  | _, some (.waitc l st _ _) => c.deferred.any (fun d =>
      if d.access.load then decide (l ≠ 63) && decide (l.toNat < c.ld) else decide (st ≠ 63) && decide (st.toNat ≤ c.st))
  | _, some .endAct => c.deferred.any (fun d => !d.access.load)
  | _, some .yield => c.deferred.any (fun d => !d.access.load)
  | _, some (.migr _) => c.deferred.any (fun d => !d.access.load)
  | _, _ => false

/-- The context's next instruction (R73): a trap that has come due, the instruction that waits, the next replayed word,
or the word at the PC. The state after it holds the word and its length. A deferred fault ranks after BUDGET and WAITTIME and
before the fetch of the next word: R73 gives it no place (log entry 44). -/
noncomputable def nextInstr (s : State) (key : Nat) : State × Instr :=
  let c := s.ctx key
  if c.budgetLeft = 0 then (s, .budgetExpiry key)
  else if c.waiting && c.blocking && decide (c.waitLimit.toNat < c.waited) then (s, .waittimeExpiry key)
  else if !c.deferred.isEmpty && (!c.waiting || interruptsWait c) then (s, .deferredFault key)
  else if c.waiting then (s, match c.ext with | some i => .ext i | none => instrOf key c.ir)
  else match c.rpt with
    | some r =>
      let w := staggered (r.frame.getD r.slot 0) r.iter r.sd r.sa r.sb
      (s.setCtx key { c with ir := w, ilen := 4, ext := none, fetched := true }, instrOf key w)
    | none =>
      match s.fetch key c.pc with
      | (_, .error _) => (s, .instructionFetchFault key)
      | (s1, .ok w) => (s1.modCtx key (fun c => { c with ir := w, ilen := 4, ext := none, fetched := true }), instrOf key w)

/-! ### Round robin (R92) -/

/-- The contexts of a core that hold an activation, in the order of R92. -/
def issueOrder (s : State) (core : Nat) : List Nat :=
  ((List.range 8).map (fun j => core * 8 + ((s.core core).rr + 1 + j) % 8)).filter
    (fun k => decide ((s.ctx k).phase = .run))

/-- The state in which context k issues: it is the context at work, and the one that issued last. -/
def atContext (s : State) (k : Nat) : State :=
  { s.modCore (coreOf k) (fun c => { c with rr := ctxOf k }) with sched := { s.sched with cur := k } }

/-- The wait of context k goes on: what it waits for now is kept (R179, R356), and no context has issued. -/
def stillWaits (s s2 : State) (k : Nat) : State :=
  { s2.modCore (coreOf k) (fun c => { c with rr := (s.core (coreOf k)).rr }) with sched := { s2.sched with cur := s.sched.cur } }
/-- One issue of a core (R92): the first ready context after the one that issued last. A context whose wait goes on is
not ready: the next one is tried. -/
noncomputable def issueFrom (ex : Instr → State → Host.Outcome State Fault Refusal) (s : State) :
    List Nat → Host.Outcome State Fault Refusal
  | [] => .next s
  | k :: t =>
    let p := nextInstr (atContext s k) k
    match ex p.2 p.1 with
    | .next s2 => if (s.ctx k).waiting && (s2.ctx k).waiting then issueFrom ex (stillWaits s s2 k) t else .next s2
    | o => o

/-! ### Cycles (R5, R96, R98) -/

/-- The channel can be selected (R96): its ATOMIC messages are for context 6 alone (R90). -/
def State.runnable (s : State) (core c : Nat) : Bool :=
  let h := s.chan core c
  h.allot && h.enable && !h.atomh && !h.spill && (s.core core).inbox.any (fun x => x.chan == c && !x.busy && !(x.msg.kind == 4))

/-- Cycles pass: BUDGETLEFT falls in every context that holds an activation (R98), waits grow longer, runnable channels
age (R96). -/
def tick (s : State) (n : Nat) : State :=
  { s with
    now := s.now + n
    ctxs := s.ctxs.map (fun p =>
      if p.2.phase = .run then
        (p.1, { p.2 with budgetLeft := BitVec.ofNat 32 (p.2.budgetLeft.toNat - n)
                         waited := if p.2.waiting then p.2.waited + n else p.2.waited })
      else p)
    chans := s.chans.map (fun p =>
      (p.1, { p.2 with age := if s.runnable (p.1 / 64) (p.1 % 64) then Nat.min 1023 (p.2.age + n) else 0 })) }

end Sys2Proof.Machine
end

