-- ==== Sys2Proof/Machine/Traps.lean ====
section
/-!
DEFINITION. TRAP, and the traps that come due at an instruction boundary (R350, R72, R73, R98, R187, R347, R356).
-/
namespace Sys2Proof.Machine

/-- TRAP (R350). -/
def execTrap (c : BitVec 12) (s : State) : Out :=
  .next (s.takeTrap s.sched.cur (trapHere s.me cTRAPI 0 0 c))

/-- The state with a context at work. -/
def atKey (s : State) (key : Nat) : State := { s with sched := { s.sched with cur := key } }

/-- The word at a context's place, for the record of a trap between instructions; 0 where it cannot be fetched. -/
def wordThere (s : State) (key : Nat) : IWord :=
  let c := s.ctx key
  if c.waiting then fetchedWord c
  else match c.rpt with
    | some _ => fetchedWord c
    | none => match (s.fetch key c.pc).2 with
      | .ok w => w
      | .error _ => 0

/-- ILLEGAL_INSTRUCTION (R72, R73): the word fetched for issue is assigned to no row or breaks its row's limits. A word
of a branch or jump major meets the check of its slots first, and one of RPT's major the check of its frame. -/
def execIllegalInstruction (key : Nat) (s : State) : Out :=
  let c := s.ctx key
  if c.phase = .run ∧ c.fetched = true ∧ c.waiting = false then
    let s0 := atKey s key
    let op := fMajor c.ir
    if 0x20 ≤ op ∧ op ≤ 0x23 then
      match checkSlots s0 with
      | (_, some t) => .next t
      | (s1, none) => .next (trapNow s1 cILLEGAL)
    else if op = 0x24 then
      match captureFrame s0 ((c.ir.extractLsb' 22 4).toNat + 1) with
      | .error t => .next t
      | .ok (s1, _) => .next (trapNow s1 cILLEGAL)
    else .next (trapNow s0 cILLEGAL)
  else .next s

/-- INSTRUCTION_FETCH_FAULT (R73). -/
def execInstructionFetchFault (key : Nat) (s : State) : Out :=
  let c := s.ctx key
  if c.phase = .run ∧ c.waiting = false ∧ c.rpt = none then
    let s0 := atKey s key
    match s0.fetch key c.pc with
    | (s1, .error cause) => .next (trapFetch s1 c.pc c.pc cause)
    | (_, .ok _) => .next s
  else .next s

/-- BUDGET_EXPIRY (R98): the activation traps at its next boundary, and an instruction that waits is abandoned. -/
def execBudgetExpiry (key : Nat) (s : State) : Out :=
  let c := s.ctx key
  if c.phase = .run ∧ c.budgetLeft = 0 then
    .next (s.takeTrap key { trapHere c cBUDGET 0 0 0 with word := wordThere s key })
  else .next s

/-- WAITTIME_EXPIRY (R356): TOKEN is the token awaited, if any (R342). -/
def execWaittimeExpiry (key : Nat) (s : State) : Out :=
  let c := s.ctx key
  if c.phase = .run ∧ c.waiting = true ∧ c.blocking = true ∧ c.waitLimit.toNat < c.waited ∧ c.budgetLeft ≠ 0 then
    .next (s.takeTrap key (trapHere c cWAITTIME 0 c.awaitTok 0))
  else .next s

/-- DEFERRED_FAULT (R187): the first report to arrive is the one that traps; PC and word are those of the access. -/
def execDeferredFault (key : Nat) (s : State) : Out :=
  let c := s.ctx key
  match c.phase, c.deferred with
  | .run, d :: _ =>
    if c.budgetLeft = 0 then .next s
    else .next (s.takeTrap key
      { cause := d.cause, pc := d.access.pc, word := d.access.word, faddr := d.addr, token := 0, tcode := 0
        defer := true, late := false, rpt := none })
  | _, _ => .next s

/-- A draining context whose last store has come back is free (R343). -/
def drained (s : State) (key : Nat) : State :=
  s.modCtx key (fun c => if c.phase = .drain ∧ c.st = 0 then freed c else c)

/-- The record of a late store fault (R347): the trap's own record with the store's cause, address, PC and word. -/
def lateRecord (s : State) (c : Ctx) (p : Pend) (cause : BitVec 8) (addr : Word) : List Word :=
  let w (i : Nat) : Word := c.trapRec.extractLsb' (64 * i) 64
  [ ((w 0 &&& ~~~0x58FF#64) ||| 0x2800#64) ||| cause.setWidth 64,
    p.pc.setWidth 64,
    p.word.setWidth 64,
    w 3, addr, (w 5 &&& 0xFFFFFFFF00000000#64), s.time, w 7 ]

/-- LATE_STORE_FAULT (R347): a store of a trapped activation comes back with a fault. An activation that TKILL ended has no
record (R352; log entry 20). -/
def execLateStoreFault (key id : Nat) (s : State) : Out :=
  let c := s.ctx key
  match c.phase, c.pend.find? (fun p => p.id == id) with
  | .drain, some p =>
    match p.reply with
    | some (.fault cause addr) =>
      let s1 := s.modCtx key (fun c => { c with st := c.st - 1, pend := c.pend.filter (fun q => !(q.id == id)) })
      .next (drained (if c.trapRec = 0 then s1 else s1.reportTrap key (lateRecord s c p cause addr)) key)
    | _ => .next s
  | _, _ => .next s

end Sys2Proof.Machine
end

