-- ==== Sys2Proof/Machine/Mem.lean ====
section
/-!
DEFINITION. The memory instructions (R185 to R192, R225, R226) and the steps by which their accesses end (R174, R177,
R180, R184, R186, R198, R203).
-/
namespace Sys2Proof.Machine

/-! ### Plain loads and stores (R51, R186) -/

/-- The effective address (R186): the offset counts elements of z bytes. -/
def memEa (s : State) (b : Reg) (off : BitVec 52) (z : Nat) : Nat :=
  ((rdG s.me b).extractLsb' 0 52 + off * BitVec.ofNat 52 z).toNat
/-- A load of a general register. -/
def loadG (t b : Reg) (sw : Fld3) (off : BitVec 52) (z : Nat) (signed : Bool) (s : State) : Out :=
  issueLoad s (memEa s b off z) z sw.toNat false (.g t signed) 0
/-- A store of a general register's low bytes. -/
def storeG (t b : Reg) (sw : Fld3) (off : BitVec 52) (z : Nat) (s : State) : Out :=
  issueStore s (memEa s b off z) sw.toNat false (leBytes z (rdG s.me t).toNat)
/-- VLD at an offset in lines. -/
def loadV (t b : Reg) (sw : Fld3) (off : BitVec 52) (s : State) : Out :=
  issueLoad s (memEa s b off 64) 64 sw.toNat true (.v t) 0
/-- VST at an offset in lines. -/
def storeV (t b : Reg) (sw : Fld3) (off : BitVec 52) (s : State) : Out :=
  issueStore s (memEa s b off 64) sw.toNat true (leBytes 64 (rdV s.me t).toNat)

/-- LD.B (R186). -/
def execLdB (t b : Reg) (sw : Fld3) (o : BitVec 13) (s : State) : Out := loadG t b sw (o.signExtend 52) 1 true s
/-- LD.BN (R186). -/
def execLdBn (t b : Reg) (sw : Fld3) (o : BitVec 13) (s : State) : Out := loadG t b sw (o.signExtend 52) 1 false s
/-- LD.H (R186). -/
def execLdH (t b : Reg) (sw : Fld3) (o : BitVec 13) (s : State) : Out := loadG t b sw (o.signExtend 52) 2 true s
/-- LD.HN (R186). -/
def execLdHn (t b : Reg) (sw : Fld3) (o : BitVec 13) (s : State) : Out := loadG t b sw (o.signExtend 52) 2 false s
/-- LD.W (R186). -/
def execLdW (t b : Reg) (sw : Fld3) (o : BitVec 13) (s : State) : Out := loadG t b sw (o.signExtend 52) 4 true s
/-- LD.WN (R186). -/
def execLdWn (t b : Reg) (sw : Fld3) (o : BitVec 13) (s : State) : Out := loadG t b sw (o.signExtend 52) 4 false s
/-- LD.D (R186). -/
def execLdD (t b : Reg) (sw : Fld3) (o : BitVec 13) (s : State) : Out := loadG t b sw (o.signExtend 52) 8 false s
/-- ST.B (R186). -/
def execStB (t b : Reg) (sw : Fld3) (o : BitVec 13) (s : State) : Out := storeG t b sw (o.signExtend 52) 1 s
/-- ST.H (R186). -/
def execStH (t b : Reg) (sw : Fld3) (o : BitVec 13) (s : State) : Out := storeG t b sw (o.signExtend 52) 2 s
/-- ST.W (R186). -/
def execStW (t b : Reg) (sw : Fld3) (o : BitVec 13) (s : State) : Out := storeG t b sw (o.signExtend 52) 4 s
/-- ST.D (R186). -/
def execStD (t b : Reg) (sw : Fld3) (o : BitVec 13) (s : State) : Out := storeG t b sw (o.signExtend 52) 8 s
/-- VLD (R186). -/
def execVld (t b : Reg) (sw : Fld3) (o : BitVec 13) (s : State) : Out := loadV t b sw (o.signExtend 52) s
/-- VST (R186). -/
def execVst (t b : Reg) (sw : Fld3) (o : BitVec 13) (s : State) : Out := storeV t b sw (o.signExtend 52) s

/-! ### LD.ACQ, ST.REL, FENCE (R225, R226) -/

/-- An earlier load has not yet written its register (R226). -/
def loadsOut (c : Ctx) : Bool := c.pend.any (fun p => p.load && !(decide (p.route = .unit)))
/-- Nothing is owed for an operation: it has been performed, and no fault of it is on its way to the context (R187, R226). -/
def Pend.performed (p : Pend) : Bool := p.ready && (match p.reply with | some (.fault _ _) => false | _ => true)
/-- An earlier store, atomic or send is not yet performed at the scope (R218): at CORE scope only bytes on their way to a
bank count (log entry 29). A store that has been refused holds the wait until its fault traps there (R226). -/
def storesOut (c : Ctx) (scope : Nat) : Bool :=
  if scope = 0 then c.pend.any (fun p => !p.cells.isEmpty)
  else c.pend.any (fun p => !(decide (p.route = .unit)) && (!p.load || decide (p.route = .atomic)) && !p.performed)

/-- LD.ACQ (R226): the tag is ignored; at scopes wider than CORE it bypasses the L1, and the L1 is emptied of the ASID
when the register is written. -/
def execLdAcq (d a : Reg) (sc : BitVec 2) (n : BitVec 1) (z : BitVec 2) (s : State) : Out :=
  issueLoad s (memEa s a 0 1) (2 ^ z.toNat) 0 false (.g d (n == 0)) (if sc = 0 then 1 else 2)

/-- The wait of a release (R226): earlier loads and stores first; at scopes wider than CORE the store buffer is sent to L2
and its acceptance awaited. -/
def released (sc : Nat) (s : State) (k : State → Out) : Out :=
  let core := s.myCore
  let (s1, upTo) := match s.me.await with
    | .fence n => (s, n)
    | _ => if sc = 0 then (s, 0) else
      let s' := s.drainWhere core (fun _ => true)
      (s', s'.sched.nextId)
  if loadsOut s1.me || storesOut s1.me sc || s1.mem.l2q.any (fun e => e.core == core && decide (e.id < upTo)) then
    .next (blockOn s1 (.fence upTo) 0)
  else k s1

/-- ST.REL (R226). -/
def execStRel (a b : Reg) (sc z : BitVec 2) (s : State) : Out :=
  let zz := 2 ^ z.toNat
  let ea := memEa s a 0 1
  match s.accessCheck s.sched.cur ea zz 0 false with
  | .error c => .next (trapAt s c (BitVec.ofNat 64 ea))
  | .ok () => released sc.toNat s (fun s1 => storeCells s1 ea ((accessAddrs ea zz 0).zip (leBytes zz (rdG s.me b).toNat)) retire)

/-- FENCE (R226): K names LL, LS, SL, SS from bit 0. -/
def execFence (sc : BitVec 2) (k : BitVec 4) (s : State) : Out :=
  let afterLoads := k.getLsbD 0 || k.getLsbD 1
  let afterStores := k.getLsbD 2 || k.getLsbD 3
  if (afterLoads && loadsOut s.me) || (afterStores && storesOut s.me sc.toNat) then .next (blockOn s .nothing 0)
  else if sc ≠ 0 ∧ afterLoads = true then
    .next (retire (s.modCore s.myCore (fun c => c.l1Inval c.asid true 0 0)))
  else .next (retire s)

/-! ### Formatted vectors (R189) -/

/-- Checks of the bytes of an access in order (R186): the first address of the part that fails is what the trap names. -/
def State.partsCheck (s : State) (key : Nat) : List (List Nat) → Except (BitVec 8 × Nat) Unit
  | [] => .ok ()
  | p :: t =>
    match regionsCheck p with
    | .error c => .error (c, p.headD 0)
    | .ok () => match s.spCheck key p with
      | .error c => .error (c, p.headD 0)
      | .ok () => s.partsCheck key t
/-- A run of n byte addresses. -/
def runAt (a n : Nat) : List Nat := (List.range n).map (fun i => (a + i) % 2 ^ 52)
/-- Container bytes of a floating kind (R189). -/
def floatBytes (kind : Nat) : Nat := if kind = 0 then 64 else if kind = 1 ∨ kind = 4 then 4 else 2
/-- Bytes of the active lanes of a container (R189). -/
def activeBytes (z : Nat) (mask : Word) : List Nat :=
  (List.range 64).filter (fun i => mask.getLsbD (i / z))
/-- The code bytes and scale bytes of 16 elements of a narrow kind (R126, R189). -/
def narrowParts (e : BitVec 256) (kind ea : Nat) : List (List Nat) :=
  [runAt ea (2 * kindWidth kind (ftWidth e)),
   if ftBlog e = 0 then [] else runAt (scaleAddr e ea 0) (16 / 2 ^ ftBlog e)]
/-- The decode table is out of order (R130). -/
def Core.outOfOrder (c : Core) : Bool := !dtOrdered c.dt c.dmode

/-- VLDF (R189). -/
def execVldf (v a : Reg) (m : Fld3) (s : State) : Out :=
  let p := rdG s.me a
  let core := s.core s.myCore
  let kind := tagKind p
  let ea := tagVa p
  let e := core.ftEntry (tagFmt p)
  let mask := rdM s.me m
  if tagRefused e p || (decide (5 ≤ kind) && decide (4 < tagBlog p)) || (kind == 0 && m != 0) then .next (trapAt s cFMT p)
  else
    let parts := if kind < 5 then [((activeBytes (floatBytes kind) (if kind = 0 then BitVec.allOnes 64 else mask)).map (ea + ·))]
      else narrowParts e kind ea
    let addrs := parts.flatten
    let z := if kind < 5 then floatBytes kind else 1
    match regionCheck ea with
    | .error c => .next (trapAt s c (BitVec.ofNat 64 ea))
    | .ok () =>
      if ea % z ≠ 0 then .next (trapAt s cMISALIGN (BitVec.ofNat 64 ea))
      else match s.partsCheck s.sched.cur parts with
        | .error (c, w) => .next (trapAt s c (BitVec.ofNat 64 w))
        | .ok () =>
          if s.accessWaits s.sched.cur true addrs then .next (blockOn s .nothing 0)
          else
            let dst : Dst := if kind = 0 then .v v else if kind < 5 then .lanes v z mask
              else .conv v kind e mask s.me.frm s.me.seed core.dt core.dmode
            let draws := takeDraws ((List.range 16).map (fun i => decide (5 ≤ kind) && s.me.frm == 4 && mask.getLsbD i)) s.me.seed
            .next (retireWith (pushLoad s ea addrs dst 0) (fun c => { c with seed := draws.2 }))

/-- The FP32 lanes of a vector, as values. -/
def fp32Lanes (v : VWord) (n : Nat) : List FVal := (List.range n).map (fun i => unpack (fmtOf 0) (lane v 32 i))
/-- Little-endian words of four bytes as FP32 values. -/
def fp32Bytes : List Byte → List FVal
  | a :: b :: c :: d :: t => unpack (fmtOf 0) (leNat [a, b, c, d]) :: fp32Bytes t
  | _ => []
/-- The addresses of the divisors of n elements, in channel order (R127). -/
def divisorAddrs (e : BitVec 256) (n : Nat) : List Nat :=
  if ftSmen e then runAt (ftSptr e) (4 * Nat.min n (ftSlen e)) else []
/-- Elements divided by their channels' divisors, where the entry smooths (R127). -/
def smoothBy (e : BitVec 256) (xs : List FVal) (bytes : List Byte) : List FVal × BitVec 5 :=
  if ftSmen e then
    let ds := fp32Bytes bytes
    smoothAll xs ((List.range xs.length).map (fun i => ds.getD (i % ftSlen e) (.fin false 0 0)))
  else (xs, 0)

/-- VSTF (R189): one store of codes and scale bytes; flags are raised and draws taken at issue. -/
def execVstf (v a : Reg) (m : Fld3) (s : State) : Out :=
  let p := rdG s.me a
  let core := s.core s.myCore
  let kind := tagKind p
  let ea := tagVa p
  let e := core.ftEntry (tagFmt p)
  if tagRefused e p || (decide (5 ≤ kind) && decide (4 < tagBlog p)) || (kind == 0 && m != 0) then .next (trapAt s cFMT p)
  else if kind = 5 ∧ core.outOfOrder = true then .next (trapNow s cDTORDER)
  else if 5 ≤ kind ∧ m ≠ 0 then .next (trapAt s cFMT p)
  else
    let z := if kind < 5 then floatBytes kind else 1
    let act := activeBytes z (if kind = 0 then BitVec.allOnes 64 else rdM s.me m)
    let parts := if kind < 5 then [act.map (ea + ·)] else narrowParts e kind ea
    match regionCheck ea with
    | .error c => .next (trapAt s c (BitVec.ofNat 64 ea))
    | .ok () =>
      if ea % z ≠ 0 then .next (trapAt s cMISALIGN (BitVec.ofNat 64 ea))
      else match s.partsCheck s.sched.cur parts with
        | .error (c, w) => .next (trapAt s c (BitVec.ofNat 64 w))
        | .ok () =>
          if kind < 5 then
            let all := leBytes 64 (rdV s.me v).toNat
            storeCells s ea (act.map (fun i => (ea + i, all.getD i 0))) retire
          else readNow s false (if 5 ≤ kind then divisorAddrs e 16 else []) (fun s1 ds =>
            let (xs, f1) := smoothBy e (fp32Lanes (rdV s1.me v) 16) ds
            let blog := ftBlog e
            let (rs, seed) := takeDraws ((quantDraws kind blog xs (fun _ => true)).map (fun b => b && s1.me.frm == 4)) s1.me.seed
            let w := kindWidth kind (ftWidth e)
            let (c, scales) := quantise core.dt core.dmode kind w blog s1.me.frm.toNat (xs.zip rs)
            let bytes := leBytes (2 * w) (streamOf w c.codes) ++ scales.map (BitVec.ofNat 8)
            storeCells s1 ea (parts.flatten.zip bytes)
              (fun t => retireWith t (fun x => { orFlags x (f1 ||| c.flags) with seed := seed })))

/-! ### Hints (R190, R191) and L1 maintenance (R192) -/

/-- The hint is dropped and counted, saturating (R143, R191). -/
def dropHint (s : State) : State :=
  s.modCore s.myCore (fun c => { c with hintDrop := if c.hintDrop = BitVec.allOnes 32 then c.hintDrop else c.hintDrop + 1 })
/-- The line of an address that a hint names: its PA, or none where the hint is dropped (R191). -/
def hintLine (s : State) (va : Nat) : State × Option Nat :=
  let asid := (s.core s.myCore).asid
  if 0xC ≤ regionOf va then (s, none)
  else match s.translate (clusterOf s.myCore) asid va .rd (s.svc s.sched.cur) with
    | (s1, .error _) => (s1, none)
    | (s1, .ok (pa, _)) => (s1, if s1.paPoisoned asid pa then none else some pa)

/-- PREF (R190). -/
def execPref (a : Reg) (l : BitVec 2) (s0 : State) : Out :=
  let s := s0.refresh
  let va := tagVa (rdG s.me a)
  if Config.hintQueueFull s0.sched.fresh then .next (retire (dropHint s))
  else match hintLine s va with
  | (s1, none) => .next (retire (dropHint s1))
  | (s1, some _) =>
    if l = 0 then
      match s1.readLine s1.sched.cur false (lineOf va) with
      | some (s2, _) => .next (retire s2)
      | none => .next (retire s1)
    else .next (retire s1)

/-- Marks kept at a level that a further one shares its limit with (R190). -/
def pinsBeside (s : State) (level line : Nat) : Nat :=
  if level = 0 then ((s.core s.myCore).pins.filter (fun p => l1Set p.2 == l1Set line)).length
  else (s.mem.pins.filter (fun p => p.1 == level &&
    (if level = 1 then sliceOf (p.2.2 * 64 % 2 ^ 40) == sliceOf (line * 64 % 2 ^ 40)
     else towerOf (p.2.2 * 64 % 2 ^ 40) == towerOf (line * 64 % 2 ^ 40)))).length
/-- The most lines that may be marked together at a level (R190). -/
def pinLimit (level : Nat) : Nat := if level = 0 then 4 else if level = 1 then 8192 else 2 ^ 24
/-- One line marked or unmarked; the Boolean is a drop. -/
def pinLine (s : State) (pin : Bool) (level va : Nat) : State × Bool :=
  let asid := (s.core s.myCore).asid
  match hintLine s va with
  | (s1, none) => (s1, true)
  | (s1, some pa) =>
    let line := if level = 0 then lineOf va else lineOf pa
    let set (on : Bool) : State :=
      if level = 0 then s1.modCore s1.myCore (fun c =>
        let rest := c.pins.filter (fun p => !(p == (asid, line)))
        { c with pins := if on then (asid, line) :: rest else rest })
      else s1.modMem (fun m =>
        let rest := m.pins.filter (fun p => !(p == (level, asid, line)))
        { m with pins := if on then (level, asid, line) :: rest else rest })
    if !pin then (set false, false)
    else
      let s2 := set false
      if pinsBeside s2 level line < pinLimit level then (set true, false) else (s2, true)
/-- A run of lines marked or unmarked. -/
def pinLines (pin : Bool) (level : Nat) : Nat → Nat → State → Bool → State × Bool
  | 0, _, s, bad => (s, bad)
  | n + 1, va, s, bad =>
    let (s1, b) := pinLine s pin level va
    pinLines pin level n (va + 64) s1 (bad || b)
/-- PREF.RES (R190): the first line decides whether the hint as a whole is dropped (log entry 31). -/
def prefRes (pin : Bool) (a b : Reg) (l : BitVec 2) (s0 : State) : Out :=
  let s := s0.refresh
  let va := tagVa (rdG s.me a)
  let len := (rdG s.me b).toNat
  if len = 0 ∨ 2 ^ 30 < len ∨ Config.hintQueueFull s0.sched.fresh = true then .next (retire (dropHint s))
  else match hintLine s va with
    | (s1, none) => .next (retire (dropHint s1))
    | (s1, some _) =>
      let n := lineOf (va + len - 1) - lineOf va + 1
      let (s2, bad) := pinLines pin l.toNat n (lineOf va * 64) s1 false
      .next (retire (if bad then dropHint s2 else s2))
/-- PREF.RES.PIN (R190). -/
def execPrefResPin (a b : Reg) (l : BitVec 2) (s : State) : Out := prefRes true a b l s
/-- PREF.RES.UNPIN (R190). -/
def execPrefResUnpin (a b : Reg) (l : BitVec 2) (s : State) : Out := prefRes false a b l s

/-- L1INV (R192). -/
def execL1inv (a b : Reg) (s : State) : Out :=
  let lo := tagVa (rdG s.me a)
  let len := (rdG s.me b).toNat
  .next (retire (s.modCore s.myCore (fun c => c.l1Inval c.asid (b == 0) lo len)))
/-- L1WB (R192). -/
def execL1wb (a b : Reg) (s : State) : Out :=
  let lo := tagVa (rdG s.me a)
  let len := (rdG s.me b).toNat
  .next (retire (s.drainWhere s.myCore (fun e =>
    b == 0 || (decide (0 < len) && decide (e.line * 64 < lo + len) && decide (lo < e.line * 64 + 64)))))

/-! ### How accesses end -/

/-- The packet belongs to a killed task (R353). -/
def State.deadTag (s : State) (asid tag : BitVec 16) : Bool := s.deadTags.any (fun d => d.asid == asid && d.tag == tag)

/-- A load's bytes enter its destination (R51, R180, R189). -/
def deliver (c : Ctx) (dst : Dst) (b : List Byte) : Ctx :=
  let x := leNat b
  match dst with
  | .none => c
  | .g t signed => wrG c t (if signed then BitVec.ofInt 64 (signedOf (8 * b.length) x) else BitVec.ofNat 64 x)
  | .v t => wrV c t (BitVec.ofNat 512 x)
  | .lanes t z mask =>
    wrV c t (ofLanes 8 ((List.range 64).foldl (fun (acc : List Nat × List Byte) i =>
      if mask.getLsbD (i / z) then (acc.1 ++ [(acc.2.headD 0).toNat], acc.2.drop 1) else (acc.1 ++ [lane (rdV c t) 8 i], acc.2))
      ([], b)).1)
  | .conv t kind e mask frm seed dt mode =>
    let w := kindWidth kind (ftWidth e)
    let codes := leNat (b.take (2 * w))
    let scales := b.drop (2 * w)
    let r := eachLane (fun i sd =>
        let v := codeValue dt mode kind w (streamGet w codes i)
        let y := if ftBlog e = 0 then v else scaled v (scales.getD (i / 2 ^ ftBlog e) 0).toNat
        drawRound (fmtOf 0) frm.toNat sd y) mask (rdV c t) 32 (List.range 16) seed
    wrV (orFlags c r.flags) t (ofLanes 32 r.lanes)
  | .old t _ => wrG c t (BitVec.ofNat 64 x)

/-- A context without one of its outstanding operations. -/
def without (c : Ctx) (id : Nat) : Ctx := { c with pend := c.pend.filter (fun p => !(p.id == id)) }

/-- An outstanding load of the core's own banks or of DRAM reads, unless it waits at its source or for its line (log entry 11). -/
def State.readPend (s : State) (key : Nat) (p : Pend) : State :=
  if p.route = .bank ∨ p.route = .dram then
    match s.readBytes key p.id (p.acq == 2) p.addrs with
    | none => s
    | some (s1, .ok b) => s1.answer key p.id (.bytes b)
    | some (s1, .error cause) => s1.answer key p.id (.fault cause p.ea)
  else s

/-- A load's reply in its own context (R180, R187): a load that has not read yet reads now; one whose data is here writes its register and
lowers LD, or its fault reaches the context (log entry 11). -/
def loadReply (key id : Nat) (s : State) : Out :=
  let c := s.ctx key
  match c.pend.find? (fun p => p.id == id && p.load) with
  | none => .next s
  | some p =>
    if p.route = .atomic then .next s
    else if p.ready then
      match p.reply with
      | some (.bytes b) =>
        let s1 := s.setCtx key { deliver (without c id) p.dst b with ld := c.ld - 1 }
        .next (if p.acq = 2 then s1.modCore (coreOf key) (fun x => x.l1Inval x.asid true 0 0) else s1)
      | some (.fault cause addr) =>
        .next (s.setCtx key { without c id with deferred := c.deferred ++ [{ cause := cause, addr := addr, access := p }] })
      | _ => .next (s.setCtx key { without c id with ld := c.ld - 1 })
    else .next (s.readPend key p)

/-- The bytes of an outstanding store of the core's own banks are written there, or refused (R177, R186). -/
def State.storePend (s : State) (key : Nat) (p : Pend) : State :=
  let c := s.ctx key
  let addrs := p.cells.map (·.1)
  let s1 := s.setCtx key { c with pend := c.pend.map (fun q => if q.id == p.id then { q with cells := [] } else q) }
  if s.sourceBlocked key p.id true addrs then s
  else if s.spRefused (s.core (coreOf key)).asid (s.svc key) addrs then s1.answer key p.id (.fault cREGION p.ea)
  else if s.spWriteRefused p.cells then s1.answer key p.id (.fault cPOISON p.ea)
  else (s1.modMem (fun m => m.writeSp p.cells)).answer key p.id .done

/-- STORE_ACK (R177, R186, R187): bytes of the core's own banks are written there; a store that is performed lowers ST,
and its fault reaches the context. -/
def execStoreAck (key id : Nat) (s : State) : Out :=
  let c := s.ctx key
  match c.pend.find? (fun p => p.id == id && !p.load && p.counted) with
  | none => .next s
  | some p =>
    if p.route = .atomic then .next s
    else if !p.cells.isEmpty then .next (s.storePend key p)
    else if p.ready then
      match p.reply with
      | some (.fault cause addr) =>
        if c.phase = .run then
          .next (s.setCtx key { without c id with st := c.st - 1
                                                  deferred := c.deferred ++ [{ cause := cause, addr := addr, access := p }] })
        else .next s
      | _ => .next (drained (s.setCtx key { without c id with st := c.st - 1 }) key)
    else .next s

/-- The flight of a number, taken out. -/
def State.dropFlight (s : State) (id : Nat) : State := { s with flights := s.flights.filter (fun f => !(f.id == id)) }
/-- The packet of a killed task is discarded rather than performed: unpredictable (R353; log entry 20). -/
def State.packetLost (s : State) (asid tag : BitVec 16) : Bool :=
  s.deadTag asid tag && !Config.killedPacketLands s.sched.fresh

/-- REMOTE_LOAD (R186): the checks of the owner, and the answer. -/
def execRemoteLoad (id : Nat) (s : State) : Out :=
  match s.flights.find? (fun f => f.id == id) with
  | some f =>
    match f.body with
    | .rload _ addrs asid svc =>
      let s1 := (s.dropFlight id).refresh
      let ea := s.faultAddr f.key f.op
      if s.sourceBlocked f.key f.op false addrs then .next s
      else if s.packetLost asid f.tag then .next (s1.answer f.key f.op .nothing)
      else if s.spRefused asid svc addrs then .next (s1.answer f.key f.op (.fault cREGION ea))
      else if addrs.any s.spPoisoned then .next (s1.answer f.key f.op (.fault cPOISON ea))
      else .next (s1.answer f.key f.op (.bytes (addrs.map (memGet s.mem.cells))))
    | _ => .next s
  | none => .next s

/-- REMOTE_STORE (R186): the checks of the owner, the write, and the acknowledgement. -/
def execRemoteStore (id : Nat) (s : State) : Out :=
  match s.flights.find? (fun f => f.id == id) with
  | some f =>
    match f.body with
    | .rstore _ cells asid svc =>
      let s1 := (s.dropFlight id).refresh
      let ea := s.faultAddr f.key f.op
      let addrs := cells.map (·.1)
      if s.sourceBlocked f.key f.op true addrs then .next s
      else if s.packetLost asid f.tag then .next (s1.answer f.key f.op .nothing)
      else if s.spRefused asid svc addrs then .next (s1.answer f.key f.op (.fault cREGION ea))
      else if s.spWriteRefused cells then .next (s1.answer f.key f.op (.fault cPOISON ea))
      else .next ((s1.modMem (fun m => m.writeSp cells)).answer f.key f.op .done)
    | _ => .next s
  | none => .next s

/-- STORE_BUFFER_DRAIN (R184, R199): an entry leaves the store buffer. -/
def execStoreBufferDrain (core n : Nat) (s : State) : Out :=
  match (s.core core).sb[n]? with
  | some e => .next (s.drainEntry core e)
  | none => .next s

/-- L2_STORE_ACCEPT (R203). -/
def execL2StoreAccept (id : Nat) (s : State) : Out :=
  match s.mem.l2q.find? (fun e => e.id == id) with
  | some e => .next (if s.acceptReady e then s.accept e else s)
  | none => .next s

/-- TRANSLATION_WALK (R198, R200): a walk ahead of its access enters the cluster's cache; a walk that faults enters
nothing, and the access that needs it reports the fault. -/
def execTranslationWalk (cluster : Nat) (asid : BitVec 16) (va : BitVec 52) (s : State) : Out :=
  if cluster < 256 ∧ (s.tlbFind cluster asid va.toNat).isNone then
    let s1 := s.readyWalk asid va.toNat
    match s1.walk asid va.toNat with
    | .ok (leaf, level, _) =>
      .next ((s1.refresh).modMem (fun m => m.tlbAdd s1.sched.fresh
        { cluster := cluster, asid := asid, page := va.toNat / 2 ^ levelBits level, size := level, leaf := leaf }))
    | .error _ => .next s1
  else .next s

/-! ### What 4,096 cycles bound (R111, R184) -/

/-- A store of the core's own banks is written there no later than 4,096 cycles after it issued, the context's earlier loads of the
same bytes reading first (R111, R186). -/
def State.storeDue (s : State) (key : Nat) (p : Pend) : State :=
  let early := (s.ctx key).pend.filter (fun q => q.load && !q.ready && decide (q.id < p.id) && overlapsSp q.addrs p.addrs)
  (early.foldl (fun s q => s.readPend key q) s).storePend key p
/-- The stores of a context's own banks that have been out for 4,096 cycles at the cycle given, in order of issue. -/
def Ctx.storesDue (c : Ctx) (at_ : Nat) : List Pend := c.pend.filter (fun p => !p.load && !p.cells.isEmpty && decide (p.born + 4096 ≤ at_))
/-- What is due by a cycle happens before it (R111, R184): such stores are written, and store-buffer entries as old go to L2. -/
def State.storesSettle (s : State) (at_ : Nat) : State :=
  let s1 := s.ctxs.foldl (fun s p => (p.2.storesDue at_).foldl (fun s q => s.storeDue p.1 q) s) s
  s1.cores.foldl (fun s p => s.drainWhere p.1 (fun e => decide (e.born + 4096 ≤ at_))) s1
/-- A region's banks zeroed and returned, its entry free (R174). -/
def State.clearRegion (s : State) (core n : Nat) : State :=
  let r := s.region core n
  let lo := spAddr core (r.first * 4096)
  let len := r.nbank * 4096
  (s.modMem (fun m => { m with
    cells := memClear m.cells lo len
    poison := m.poison.filter (fun l => !(decide (lo ≤ l * 64) && decide (l * 64 < lo + len))) })).setRegion core n Region.initial
/-- REGION_RECLAIM (R174): once no scoreboard entry overlaps the region it is live no more; then its banks are zeroed and
free. -/
def execRegionReclaim (core n : Nat) (s : State) : Out :=
  let r := s.region core n
  let lo := r.first * 4096
  let hi := (r.first + r.nbank) * 4096
  let held := (s.core core).guards.any (fun g =>
    decide (g.lo < spAddr core hi) && decide (spAddr core lo < g.hi))
  if r.reclaim = 1 ∧ held = false then .next (s.setRegion core n { r with reclaim := 2 })
  else if r.reclaim = 2 then .next (s.clearRegion core n)
  else .next s

end Sys2Proof.Machine
end

