-- ==== Sys2Proof/Machine/Net.lean ====
section
/-!
DEFINITION. Packets to other packages enter the retry buffer (R330, R331), and the errors that no activation owns are
recorded (R363 to R366).
-/
namespace Sys2Proof.Machine

/-- Held packets go out under the entry's binding of now (R339). -/
def State.releaseHeld (s : State) (entry : Nat) : State :=
  let mine := s.fabric.held.filter (fun r => r.index == entry)
  let s1 := s.modFab (fun f => { f with held := f.held.filter (fun r => !(r.index == entry)) })
  mine.foldl (fun s r => s.fabSend r.asid entry true none r.key r.op r.body) s1

/-- The record of what a millisecond folded, where it folded something (R366). -/
def State.foldReport (s : State) (f : Fold) : State :=
  if f.count = 0 then s else s.rasReport
    { source := f.source, sev := 0, unit := f.unit, addr := f.addr, extent := f.extent, count := f.count, time := f.time, detail := f.detail }
/-- The milliseconds of a SOURCE and UNIT that are over close, each with its record (R366). -/
def State.closeFolds (s : State) (source unit : Nat) : State :=
  let old (f : Fold) : Bool := f.source == source && f.unit == unit && decide (f.born.toNat + 1000000 ≤ s.time.toNat)
  (s.dev.folds.filter old).foldl (fun s f => s.foldReport f) (s.modDev (fun d => { d with folds := d.folds.filter (fun f => !old f) }))
/-- A corrected event (R366): the first of its SOURCE and UNIT reports at once and opens a millisecond in which further
ones only count. -/
def State.rasCorrected (s0 : State) (r : RasInfo) : State :=
  let s := s0.closeFolds r.source r.unit
  let mine (f : Fold) : Bool := f.source == r.source && f.unit == r.unit && decide (s.time.toNat < f.born.toNat + 1000000)
  if s.dev.folds.any mine then
    s.modDev (fun d => { d with folds := d.folds.map (fun f =>
      if !mine f then f
      else if f.count = 0 then { f with count := 1, time := r.time, addr := r.addr, extent := r.extent, detail := r.detail }
      else { f with count := f.count + 1 }) })
  else (s.rasReport r).modDev (fun d => { d with
    folds := d.folds ++ [{ source := r.source, unit := r.unit, count := 0, time := r.time, born := s.time, addr := r.addr, extent := r.extent, detail := r.detail }] })

end Sys2Proof.Machine
end

