-- ==== Sys2Proof/Machine/Atom.lean ====
section
/-!
DEFINITION. Atomics (R227 to R232): the request at its core, the operation at the owner or the home slice, the reply.
-/
namespace Sys2Proof.Machine

/-- Bytes of a size code (R228). -/
def atomBytes (z : Nat) : Nat := if z = 0 then 4 else if z = 1 then 8 else 2

/-- The new value of an atomic of n bytes and the flags (R229, R230). -/
def atomNew (op n old x c : Nat) : Nat × BitVec 5 :=
  let b := 8 * n
  match op with
  | 0 => ((old + x) % 2 ^ b, 0)
  | 1 => (old &&& x, 0)
  | 2 => (old ||| x, 0)
  | 3 => (old ^^^ x, 0)
  | 4 => (x, 0)
  | 5 => (if old = c then x else old, 0)
  | 6 => (if signedOf b x < signedOf b old then x else old, 0)
  | 7 => (if signedOf b old < signedOf b x then x else old, 0)
  | 8 => (if x < old then x else old, 0)
  | 9 => (if old < x then x else old, 0)
  | _ =>
    let f := fmtOf (if n = 4 then 0 else 1)
    let (v, f1) := sumExact 0 [unpack f old, unpack f x]
    let (r, f2) := roundTo f 0 0 v
    (r, f1 ||| f2)

/-- An atomic put on its way (R227, R229): LD rises with RET, ST without. A scratchpad atomic becomes an ATOMIC message to
the owner, which waits at its source behind earlier accesses; a DRAM atomic goes to its home. -/
def pushAtomic (s : State) (op z : Nat) (d : Reg) (ret : Bool) (p x c : Word) (ea : Nat) (addrs : List Nat) : State :=
  let key := s.sched.cur
  let core := coreOf key
  let cx := s.ctx key
  let id := s.sched.nextId
  let asid := (s.core core).asid
  let svc := s.svc key
  let n := atomBytes z
  let pd : Pend := { id := id, load := ret, route := .atomic, dst := if ret then .old d n else .none, addrs := addrs
                     cells := [], parts := 1, reply := none, acq := 0, counted := true
                     pc := cx.pc, word := cx.ir, ea := BitVec.ofNat 64 ea, serial := (s.core core).serial, born := s.now }
  let s1 := s.bump.setCtx key { cx with ld := if ret then cx.ld + 1 else cx.ld, st := if ret then cx.st else cx.st + 1
                                        pend := cx.pend ++ [pd] }
  if isSp ea then
    if addrs.any spMalformed || (!svc && s.ownerRefused asid (spOwner ea)) then
      s1.answer key id (.fault cREGION (BitVec.ofNat 64 ea))
    else
      let w0 := header 4 (BitVec.ofNat 6 op) cx.taskTag (BitVec.ofNat 12 (spOwner ea)) (BitVec.ofNat 12 core) (s.core core).serial
      let w4 := BitVec.ofNat 64 (op + 2 ^ 5 * z + 2 ^ 7 * (if ret then 1 else 0))
      let m : Msg := { words := #v[w0, p, x, c, w4, 0, 0, 0], asid := asid, pkg := s.pkgOf asid
                       ackKey := key, ackId := id, acq := false, newTask := false }
      if s.sourceBlocked key id true addrs then (s1.takeSerial core).launchPkt core cx.taskTag key id (.held m addrs)
      else (s1.takeSerial core).inject core m
  else s1.launchPkt core cx.taskTag key id (.atom op z ea x c asid svc)

/-- ATOM (R229): the checks at issue, the waits of R226 and R179, and the request. -/
def atomOp (op : Nat) (d a b : Reg) (z : BitVec 2) (ret : Bool) (s : State) : Out :=
  let key := s.sched.cur
  let core := coreOf key
  let n := atomBytes z.toNat
  let p := rdG s.me a
  let ea := tagVa p
  let addrs := runAt ea n
  let local_ := isSp ea && !isRemote core ea
  match regionCheck ea with
  | .error c => .next (trapAt s c (BitVec.ofNat 64 ea))
  | .ok () =>
    if ea % n ≠ 0 then .next (trapAt s cMISALIGN (BitVec.ofNat 64 ea))
    else match (if local_ then s.spCheck key addrs else .ok ()) with
      | .error c => .next (trapAt s c (BitVec.ofNat 64 ea))
      | .ok () =>
        if acqHeld s.me || (if ret then decide (63 ≤ s.me.ld) else decide (63 ≤ s.me.st)) then .next (blockOn s .nothing 0)
        else
          let x := BitVec.ofNat 64 ((rdG s.me b).toNat % 2 ^ (8 * n))
          let c := if op = 5 then BitVec.ofNat 64 ((rdG s.me d).toNat % 2 ^ (8 * n)) else 0
          match s.settleLoads addrs (s.corePends core) with
          | none => .next (holdBack s)
          | some s1 =>
            let s2 := if isSp ea then s1 else
              (s1.drainWhere core (fun e => e.line == lineOf ea && e.asid == (s1.core core).asid &&
                  e.cells.any (fun y => addrs.contains y.1))).modCore core
                (fun y => y.l1Inval y.asid false (lineOf ea * 64) 64)
            .next (retire (pushAtomic s2 op z.toNat d ret p x c ea addrs))

/-- ATOM.ADD (R229). -/
def execAtomAdd (d a b : Reg) (z : BitVec 2) (r : BitVec 1) (s : State) : Out := atomOp 0 d a b z (r == 1) s
/-- ATOM.AND (R229). -/
def execAtomAnd (d a b : Reg) (z : BitVec 2) (r : BitVec 1) (s : State) : Out := atomOp 1 d a b z (r == 1) s
/-- ATOM.OR (R229). -/
def execAtomOr (d a b : Reg) (z : BitVec 2) (r : BitVec 1) (s : State) : Out := atomOp 2 d a b z (r == 1) s
/-- ATOM.XOR (R229). -/
def execAtomXor (d a b : Reg) (z : BitVec 2) (r : BitVec 1) (s : State) : Out := atomOp 3 d a b z (r == 1) s
/-- ATOM.SWAP (R229). -/
def execAtomSwap (d a b : Reg) (z : BitVec 2) (r : BitVec 1) (s : State) : Out := atomOp 4 d a b z (r == 1) s
/-- ATOM.CAS (R229): always with RET. -/
def execAtomCas (d a b : Reg) (z : BitVec 2) (s : State) : Out := atomOp 5 d a b z true s
/-- ATOM.MIN (R229). -/
def execAtomMin (d a b : Reg) (z : BitVec 2) (r : BitVec 1) (s : State) : Out := atomOp 6 d a b z (r == 1) s
/-- ATOM.MAX (R229). -/
def execAtomMax (d a b : Reg) (z : BitVec 2) (r : BitVec 1) (s : State) : Out := atomOp 7 d a b z (r == 1) s
/-- ATOM.MINN (R229). -/
def execAtomMinn (d a b : Reg) (z : BitVec 2) (r : BitVec 1) (s : State) : Out := atomOp 8 d a b z (r == 1) s
/-- ATOM.MAXN (R229). -/
def execAtomMaxn (d a b : Reg) (z : BitVec 2) (r : BitVec 1) (s : State) : Out := atomOp 9 d a b z (r == 1) s
/-- ATOM.FADD (R230). -/
def execAtomFadd (d a b : Reg) (z : BitVec 2) (r : BitVec 1) (s : State) : Out := atomOp 10 d a b z (r == 1) s

/-! ### At the owner -/

/-- ATOMIC messages that context 6 may take now (R90, R227, R232): built-in ones, and handled ones of enabled channels. -/
def State.atomTakeable (s : State) (core : Nat) : List Slot :=
  (s.core core).inbox.filter (fun x => x.msg.kind == 4 && !x.busy &&
    (let h := s.chan core x.chan
     !h.spill && (!h.atomh || h.enable)))
/-- The message of the least arrival number. -/
def leastSlot : List Slot → Option Slot
  | [] => none
  | x :: t => match leastSlot t with
    | some y => if y.id < x.id then some y else some x
    | none => some x
/-- The heads of the channels: the first message of each (R94). -/
def headsOf (l : List Slot) : List Slot := l.filter (fun x => (l.find? (fun y => y.chan == x.chan)).map (·.id) == some x.id)
/-- The earliest to arrive of the heads of the channels (R90, R97). -/
def earliest (l : List Slot) : Option Slot := leastSlot (headsOf l)
/-- The next ATOMIC message of a core whose context 6 is free (R90). -/
def State.nextAtomic (s : State) (core : Nat) : Option Slot :=
  if (s.ctx (core * 8 + 6)).phase = .free then earliest (s.atomTakeable core) else none
/-- A slot of an inbox freed. -/
def State.freeSlot (s : State) (core id : Nat) : State :=
  s.modCore core (fun c => { c with inbox := c.inbox.filter (fun x => !(x.id == id)) })
/-- Flags of an atomic without RET enter a core's AFLAGS (R231). -/
def State.orAflags (s : State) (core : Nat) (f : BitVec 5) : State :=
  s.modCore core (fun c => { c with aflags := c.aflags ||| f })

/-- A built-in atomic on a scratchpad (R227, R229). -/
def spAtomic (s : State) (core : Nat) (x : Slot) : State :=
  let w (i : Fin 8) := x.msg.words[i]
  let ea := tagVa (w 1)
  let n := atomBytes ((w 4).extractLsb' 5 2).toNat
  let ret := (w 4).getLsbD 7
  let addrs := runAt ea n
  let key := x.msg.ackKey
  let id := x.msg.ackId
  let far := BitVec.ofNat 64 ea
  let s1 := s.freeSlot core x.id
  if s.spRefused x.msg.asid (isService (coreOf key)) addrs then s1.answer key id (.fault cREGION far)
  else if addrs.any s.spPoisoned then s1.answer key id (.fault cPOISON far)
  else
    let old := leNat (addrs.map (memGet s.mem.cells))
    let (new, fl) := atomNew x.msg.chan n old (w 2).toNat (w 3).toNat
    let s2 := s1.modMem (fun m => m.writeSp (cellsAt ea (leBytes n new)))
    if ret then s2.answer key id (.old (BitVec.ofNat 64 old) fl)
    else (s2.orAflags core fl).answer key id .done

/-- An atomic on a DRAM address (R227): at its home slice here once the line is HOME, or on its way to another member. -/
def dramAtomic (s : State) (f : Flight) (op z ea : Nat) (x c : Word) (asid : BitVec 16) (svc : Bool) : State :=
  let n := atomBytes z
  let far := BitVec.ofNat 64 ea
  let core := f.src
  if s.sourceBlocked f.key f.op true (runAt ea n) then s
  else
    let s0 := s.dropFlight f.id
    match s0.translate (clusterOf core) asid ea .wr svc with
    | (s1, .error e) => s1.answer f.key f.op (.fault e far)
    | (s1, .ok (pa, _)) =>
      if s.mem.l2q.any (fun e => e.core == core && e.cells.any (fun y => decide (pa ≤ y.1) && decide (y.1 < pa + n))) then s
      else if s.homed asid pa then
        let a := pa % 2 ^ 40
        if s1.dramPoisoned a then s1.answer f.key f.op (.fault cPOISON far)
        else if (s1.lmeta (lineOf a)).state ≠ 0 then s
        else
          let old := leNat (memBytes s1.mem.cells a n)
          let (new, fl) := atomNew op n old x.toNat c.toNat
          (s1.modMem (fun m => m.writeDram (cellsAt a (leBytes n new)))).answer f.key f.op (.old (BitVec.ofNat 64 old) fl)
      else match s1.memberEntry asid (pa / 2 ^ 40) with
        | some k => s1.fabSend asid k true none f.key f.op (.atomic pa op z x c)
        | none => s1.answer f.key f.op (.fault cXLATE far)

/-- BUILTIN_ATOMIC (R229): the next built-in atomic of an inbox, or an atomic on its way, by its number: a DRAM atomic, or one to a
scratchpad that leaves its source once it waits for nothing there. -/
def execBuiltinAtomic (id : Nat) (s : State) : Out :=
  match s.flights.find? (fun f => f.id == id) with
  | some f =>
    match f.body with
    | .atom op z ea x c asid svc =>
      if s.packetLost asid f.tag then .next (((s.dropFlight id).refresh).answer f.key f.op .nothing)
      else .next (dramAtomic s f op z ea x c asid svc)
    | .held m addrs => .next (if s.sourceBlocked f.key f.op true addrs then s else (s.dropFlight id).inject f.src m)
    | _ => .next s
  | none =>
    match s.cores.find? (fun p => p.2.inbox.any (fun x => x.id == id)) with
    | some (core, _) =>
      match s.nextAtomic core with
      | some x => if x.id = id ∧ (s.chan core x.chan).atomh = false then .next (spAtomic s core x) else .next s
      | none => .next s
    | none => .next s

/-- ATOMIC_REPLY (R229, R231): the old value enters its register with the flags, or the acknowledgement lowers ST. -/
def execAtomicReply (key id : Nat) (s : State) : Out :=
  let c := s.ctx key
  match c.pend.find? (fun p => p.id == id && decide (p.route = .atomic) && p.ready) with
  | none => .next s
  | some p =>
    match p.reply with
    | some (.fault cause addr) =>
      let d : Deferred := { cause := cause, addr := addr, access := p }
      if p.load then .next (s.setCtx key { without c id with deferred := c.deferred ++ [d] })
      else if c.phase = .run then .next (s.setCtx key { without c id with st := c.st - 1, deferred := c.deferred ++ [d] })
      else .next s
    | some (.old v fl) =>
      if p.load then
        let n := match p.dst with | .old _ n => n | _ => 8
        .next (s.setCtx key { orFlags (deliver (without c id) p.dst (leBytes n v.toNat)) fl with ld := c.ld - 1 })
      else .next (drained ((s.orAflags (coreOf key) fl).setCtx key { without c id with st := c.st - 1 }) key)
    | _ =>
      if p.load then .next (s.setCtx key { without c id with ld := c.ld - 1 })
      else .next (drained (s.setCtx key { without c id with st := c.st - 1 }) key)

end Sys2Proof.Machine
end

