-- ==== Sys2Proof/Machine/Msg.lean ====
section
/-!
DEFINITION. Messages, the inbox, the channels and the MSG group (R88 to R112): how activations begin and end.
-/
namespace Sys2Proof.Machine

/-! ### Checks of a destination and of a channel (R101, R440) -/

/-- A channel is refused for a message other than ATOMIC, checked at the issuer (R440). -/
def State.chanBad (s : State) (key c : Nat) : Bool := !s.svc key && s.chanRefused (coreOf key) c
/-- trap(SENDBAD) at a destination core (R342). -/
def sendBad (s : State) (core : Nat) : Out := .next (trapAt s cSENDBAD (BitVec.ofNat 64 core))
/-- trap(CHANBAD) at a channel (R342). -/
def chanBadAt (s : State) (c : Nat) : Out := .next (trapAt s cCHANBAD (BitVec.ofNat 64 c))

/-- A message counts as a store to its destination until it enters the channel queue (R94, R218): the operation that
waits for it, counted in ST for SPAWN alone. -/
def pushSend (s : State) (counted : Bool) (parts : Nat) : State × Nat :=
  let key := s.sched.cur
  let id := s.sched.nextId
  let c := s.ctx key
  let p : Pend := { id := id, load := false, route := .send, dst := .none, addrs := [], cells := [], parts := parts
                    reply := if parts = 0 then some .done else none, acq := 0, counted := counted, pc := c.pc, word := c.ir, ea := 0, serial := 0 }
  (s.bump.setCtx key { c with st := if counted then c.st + 1 else c.st
                              pend := if parts = 0 && !counted then c.pend else c.pend ++ [p] }, id)

/-- A message of the issuing context sent at once. -/
def sendNow (s : State) (m : Msg) : State :=
  let (s1, id) := pushSend s false 1
  s1.inject s.myCore { m with ackKey := s.sched.cur, ackId := id }

/-! ### SEND and SEND.C (R101) -/

/-- An ATOMIC message looped back by Collie, with the operation at its SRC that awaits the reply: the one of that SERIAL
(R97, R229). -/
def State.originOf (s : State) (m : Msg) : Msg :=
  let src := (m.words[0].extractLsb' 14 12).toNat
  match (s.corePends src).find? (fun q => decide (q.2.route = .atomic) && q.2.serial == m.words[0].extractLsb' 0 14) with
  | some (key, p) => { m with ackKey := key, ackId := p.id }
  | none => m

/-- KINDs that take an inbox slot (R93). -/
def slotKind (k : Nat) : Bool := k == 0 || k == 1 || k == 4 || k == 7 || k == 9 || k == 10 || k == 11
/-- SEND and SEND.C (R101): the checks, and the message with TAG, SRC and SERIAL filled in, except for a loop-back send of
context 7 (R97). A loop-back send of a KIND that takes no slot and is not reserved is refused with SENDBAD (log entry 44). -/
def sendOp (delayed : Bool) (s : State) : Out :=
  let c := s.me
  let core := s.myCore
  let w0 := c.w[0]
  let k := (w0.extractLsb' 60 4).toNat
  let ch := (w0.extractLsb' 54 6).toNat
  let t := (w0.extractLsb' 26 12).toNat
  let loop := ctxOf s.sched.cur == 7 && t == core
  if loop = false ∧ k ≠ 0 ∧ k ≠ 1 ∧ k ≠ 11 then sendBad s t
  else if loop = true ∧ slotKind k = false ∧ k < 12 then sendBad s t
  else if s.destRefused s.sched.cur t then sendBad s t
  else if !s.svc s.sched.cur && (!(s.chan core ch).allot || ((s.chan core ch).atomh && k != 4)) then chanBadAt s ch
  else if delayed = true ∧ c.buffered.length = 8 then sendBad s t
  else if acqHeld c then .next (blockOn s .nothing 0)
  else
    let m0 := if loop then w0
      else header (BitVec.ofNat 4 k) (BitVec.ofNat 6 ch) c.taskTag (BitVec.ofNat 12 t) (BitVec.ofNat 12 core) (s.core core).serial
    let m1 : Msg := { mkMsg (c.w.set 0 m0) (s.core core).asid (s.pkgOf (s.core core).asid) with acq := loop && k == 11 }
    let m := if loop && k == 4 then s.originOf m1 else m1
    let s1 := if loop then s else s.takeSerial core
    if delayed then .next (retireWith s1 (fun c => { c with buffered := c.buffered ++ [m] }))
    else if loop && k == 4 then .next (retire (s1.inject core m))
    else .next (retire (sendNow s1 m))
/-- SEND (R101). -/
def execSend (s : State) : Out := sendOp false s
/-- SEND.C (R101): injected at END, YIELD or MIGR. -/
def execSendC (s : State) : Out := sendOp true s

/-! ### START and SPAWN (R102, R103) -/

/-- Word 4 of a START (R102): the issuer's tag, core and foster channel. -/
def parentWord (tag : BitVec 16) (core foster : Nat) : Word :=
  BitVec.ofNat 64 (tag.toNat + 2 ^ 16 * core + 2 ^ 28 * foster)

/-- START (R102), with its checks in the order in which R102 names them (R73). -/
def execStart (a b : Reg) (s : State) : Out :=
  let c := s.me
  let key := s.sched.cur
  let core := s.myCore
  let x := rdG c a
  let pc := rdG c b
  let t := (x.extractLsb' 0 12).toNat
  let ch := (x.extractLsb' 12 6).toNat
  let tag := x.extractLsb' 18 16
  let fos := (x.extractLsb' 34 6).toNat
  if s.chanBad key fos then chanBadAt s fos
  else if x.extractLsb' 40 24 ≠ 0 then sendBad s t
  else if pc.extractLsb' 0 2 ≠ 0 then .next (trapAt s cMISALIGN pc)
  else if s.destRefused key t then sendBad s t
  else if s.chanBad key ch then chanBadAt s ch
  else if acqHeld c then .next (blockOn s .nothing 0)
  else
    let w0 := header 0 (BitVec.ofNat 6 ch) (if tag = 0 then c.taskTag else tag) (BitVec.ofNat 12 t) (BitVec.ofNat 12 core)
      (s.core core).serial
    let m := mkMsg #v[w0, pc, c.w[2], c.w[3], parentWord c.taskTag core fos, 0, 0, 0] (s.core core).asid (s.pkgOf (s.core core).asid)
    .next (retire (sendNow (s.takeSerial core) { m with newTask := tag != 0 && tag != c.taskTag }))

/-- Where one unit of a level starts (R103, R382): the map entry of another package, or none for this one, and the leader. -/
structure UnitPlace where
  entry : Option Nat
  leader : Nat
  deriving DecidableEq, Repr

/-- Job cores of a unit, in increasing order (R103). -/
def Job.coresOf (j : Job) (domain u : Nat) : List Nat :=
  if domain = 0 then (if j.holds u then [u] else [])
  else if domain = 1 then
    ((List.range 16).map (fun i => u / 64 * 1024 + (u / 8 % 8 * 4 + i / 4) * 32 + u % 8 * 4 + i % 4)).filter j.holds
  else if domain = 2 then
    ((List.range 64).map (fun i => u / 16 * 1024 + (u / 4 % 4 * 8 + i / 8) * 32 + u % 4 * 8 + i % 8)).filter j.holds
  else ((List.range 1024).map (fun i => u * 1024 + i)).filter j.holds
/-- The lowest job core of the package. -/
def Job.lowestCore (j : Job) : Nat := ((List.range 4).flatMap (fun u => j.coresOf 3 u)).headD 0
/-- The units of a level, in order (R103, R382, R315): none where one cannot be reached. The leader of a unit in another
package is its lowest job core, which that package finds (log entry 32); of a group's member, the member's own core. -/
def State.levelUnits (s : State) (j : Job) (l : Nat) : List UnitPlace :=
  let dom := j.level l 0 0 3
  let own := j.fld 0 32 12
  let place (k : Nat) : UnitPlace := { entry := if k = own then none else some (j.fld 11 0 12 + k)
                                       leader := if k = own then j.lowestCore else 0 }
  if dom < 4 then
    ((List.range (unitCount dom)).filter (j.unitHeld dom)).map (fun u => { entry := none, leader := (j.coresOf dom u).headD 0 })
  else if dom = 5 then
    (((List.range 32).filterMap (fun m => (List.range (j.fld 11 12 13)).find? (fun k => match s.famOf j k with
        | some e => e.coh && e.member.toNat == m
        | none => false)))).map place
  else if dom = 6 then
    (s.group (j.level l 2 32 8)).members.map (fun m => { place m.pkg with leader := m.core })
  else (List.range (j.fld 11 12 13)).map place

/-- One START of a fan-out: within the package a message, to another package an ordered packet (R330). -/
def spawnOne (s : State) (j : Job) (place : UnitPlace) (w0 : Nat → Word) (rest : List Word) (newTask : Bool) (key id : Nat) : State :=
  let words : Vector Word 8 := #v[w0 place.leader, rest.getD 0 0, rest.getD 1 0, rest.getD 2 0, rest.getD 3 0, 0, 0, 0]
  let m : Msg := { mkMsg words j.asid (s.pkgOf j.asid) with ackKey := key, ackId := id, newTask := newTask }
  match place.entry with
  | none => s.inject (coreOf key) m
  | some e => if (s.fam e).valid then s.fabSend j.asid e true none key id (.msg m none) else s.answer key id (.fault cXLATE 0)

/-- The STARTs of a fan-out, unit by unit. -/
def spawnAll (s : State) (j : Job) (core ch : Nat) (tag : BitVec 16) (entry arg parent : Word) (newTask : Bool) (key id : Nat) :
    Nat → List UnitPlace → State
  | _, [] => s
  | i, u :: t =>
    let serial := (s.core core).serial
    let w0 (leader : Nat) := header 0 (BitVec.ofNat 6 ch) tag (BitVec.ofNat 12 leader) (BitVec.ofNat 12 core) serial
    spawnAll (spawnOne (s.takeSerial core) j u w0 [entry, arg, BitVec.ofNat 64 i, parent] newTask key id) j core ch tag entry
      arg parent newTask key id (i + 1) t

/-- SPAWN (R103): counted once in ST until every START has entered its queue (R382). Of a bad operand and a refused foster channel, whose
order R103 leaves open, the operand is reported (log entry 51). -/
def execSpawn (a b : Reg) (s : State) : Out :=
  let c := s.me
  let key := s.sched.cur
  let core := s.myCore
  let x := rdG c a
  let l := (x.extractLsb' 0 3).toNat
  let tag := x.extractLsb' 3 16
  let fos := (x.extractLsb' 19 6).toNat
  match s.jobOn core with
  | none => sendBad s 0
  | some j =>
    let n := j.level l 0 16 13
    let units := s.levelUnits j l
    if x.extractLsb' 25 39 ≠ 0 ∨ l = 0 ∨ j.nlevel < l ∨ units.length < n then sendBad s 0
    else if s.chanBad key fos then chanBadAt s fos
    else if acqHeld c || decide (63 ≤ c.st) then .next (blockOn s .nothing 0)
    else
      let ch := j.level l 0 5 6
      let (s1, id) := pushSend s true n
      let entry : Word := ((s.chan core ch).entry ++ (0 : BitVec 2)).setWidth 64
      .next (retire (spawnAll s1 j core ch (if tag = 0 then c.taskTag else tag) entry (rdG c b)
        (parentWord c.taskTag core fos) (tag != 0 && tag != c.taskTag) key id 0 (units.take n)))

/-! ### The end of an activation (R104, R105) -/

/-- Buffered messages injected in order. -/
def injectAll (s : State) (core : Nat) : List Msg → State
  | [] => s
  | m :: t => injectAll (s.inject core m) core t
/-- The reply of a handled atomic at its handler's END (R232). A spill activation of an ATOMIC answers nothing: the atomic has not run
(R97). -/
def State.handlerReply (s : State) (key : Nat) : State :=
  let c := s.ctx key
  match (s.core (coreOf key)).inbox.find? (fun x => some x.id == c.slot) with
  | some x =>
    if x.msg.kind = 4 ∧ ctxOf key = 6 then
      if x.msg.words[4].getLsbD 7 then s.answer x.msg.ackKey x.msg.ackId (.old (rdG c 1) c.fflags)
      else (s.orAflags (coreOf key) c.fflags).answer x.msg.ackKey x.msg.ackId .done
    else s
  | none => s
/-- The triggering message's slot freed. -/
def State.freeMySlot (s : State) (key : Nat) : State :=
  match (s.ctx key).slot with
  | some id => s.freeSlot (coreOf key) id
  | none => s
/-- The context freed. -/
def State.freeCtx (s : State) (key : Nat) : State := s.modCtx key freed

/-- END (R104, R232). -/
def execEndAct (s : State) : Out :=
  let key := s.sched.cur
  if s.me.st ≠ 0 then .next (holdBack s)
  else .next (((injectAll s s.myCore s.me.buffered).handlerReply key).freeMySlot key |>.freeCtx key)
/-- YIELD (R104): the message goes to the tail of its queue. A spill activation that yields leaves its message in its slot,
which counts in COLLIEFULL (R97; log entry 33). -/
def execYield (s : State) : Out :=
  let key := s.sched.cur
  let core := s.myCore
  if s.me.st ≠ 0 then .next (holdBack s)
  else
    let s1 := injectAll s core s.me.buffered
    match s.me.slot with
    | some id =>
      .next ((s1.modCore core (fun c =>
        { c with inbox := requeueTail c.inbox id
                 collieFull := if ctxOf key = 7 ∧ c.collieFull ≠ BitVec.allOnes 32 then c.collieFull + 1 else c.collieFull })).freeCtx key)
    | none => .next (s1.freeCtx key)

/-- The load writes one of g1 to g6 (R105). -/
def owedAtMigr (p : Pend) : Bool :=
  p.load && (match p.dst with
    | .g t _ => decide (1 ≤ t.toNat) && decide (t.toNat ≤ 6)
    | .old t _ => decide (1 ≤ t.toNat) && decide (t.toNat ≤ 6)
    | _ => false)
/-- MIGR (R105): the CONT carries g1 to g6, the flags and the rounding mode; replies still owed to them are forwarded. -/
def execMigr (a : Reg) (s : State) : Out :=
  let key := s.sched.cur
  let core := s.myCore
  let c := s.me
  let x := rdG c a
  let t := spOwner (tagVa x)
  if 6 ≤ ctxOf key ∨ regionOf (tagVa x) ≠ 0xC ∨ s.destRefused key t = true then .next (trapAt s cMIGRBAD x)
  else if c.st ≠ 0 then .next (holdBack s)
  else
    let owed := (c.pend.filter owedAtMigr) ++ ((c.deferred.filter (fun d => owedAtMigr d.access)).map (fun d =>
      { d.access with parts := 0, reply := some (.fault d.cause d.addr) }))
    let n := owed.length
    if n ≠ 0 ∧ 8 ≤ (s.core core).fwds.length then .next (holdBack s)
    else
      let serial := (s.core core).serial
      let w0 := header 7 (BitVec.ofNat 6 c.chan) c.taskTag (BitVec.ofNat 12 t) (BitVec.ofNat 12 core) serial
      let w1 : Word := c.frm ++ c.fflags ++ BitVec.ofNat 6 n ++ ((c.pc + 4).extractLsb' 2 50)
      let m := mkMsg #v[w0, w1, rdG c 1, rdG c 2, rdG c 3, rdG c 4, rdG c 5, rdG c 6] (s.core core).asid (s.pkgOf (s.core core).asid)
      let s0 := (s.takeSerial core).modCore t (fun y => { y with late := y.late.filter (fun p => !(p.1 == core && p.2.1 == serial)) })
      let s1 := s0.modCore core (fun y => if n = 0 then y else
        { y with fwds := y.fwds ++ [{ ctx := ctxOf key, tag := c.taskTag, dest := t, serial := serial, owed := owed, born := s.now }] })
      .next (((injectAll (s1.inject core m) core c.buffered).freeMySlot key).freeCtx key)

/-! ### ALIGN (R107) -/

/-- A context on another core of the cluster lags behind (R107). -/
def State.lagging (s : State) (key : Nat) : Bool :=
  let core := coreOf key
  let here := (s.ctx key).pc.toNat
  s.ctxs.any (fun p =>
    let c := coreOf p.1
    decide (p.2.phase = .run) && !(c == core) && clusterOf c == clusterOf core && (s.core c).asid == (s.core core).asid &&
      decide (p.2.pc.toNat < here) && decide (here ≤ p.2.pc.toNat + 1024))
/-- ALIGN (R107). -/
def execAlign (s : State) : Out :=
  if s.lagging s.sched.cur && decide (s.me.waited < 256) then .next (holdBack s) else .next (retire s)
/-- ALIGN_RELEASE (R107). An activation without budget left takes its trap instead (R98). -/
def execAlignRelease (key : Nat) (s : State) : Out :=
  let c := s.ctx key
  if c.phase = .run ∧ c.waiting = true ∧ c.budgetLeft ≠ 0 ∧ c.ir = 0x980001C0#32 ∧ (s.lagging key = false ∨ 256 ≤ c.waited) then
    .next (s.modCtx key (fun c => advance (settled c)))
  else .next s

/-! ### CHEN, CHDIS, CHPRI (R108) -/

/-- The action on a channel: 0 CHEN, 1 CHDIS, 2 CHPRI. -/
def State.chanAct (s : State) (core c act : Nat) (prio : BitVec 2) (fromCollie : Bool) : State :=
  if act = 0 then s.enableChannel core c fromCollie
  else if act = 1 then s.modChan core c (fun h => { h with enable := false })
  else s.modChan core c (fun h => { h with prio := prio })
/-- The three channel instructions (R108). -/
def chanOp (act : Nat) (x : Word) (prio : BitVec 2) (s : State) : Out :=
  let key := s.sched.cur
  let core := s.myCore
  let c := (x.extractLsb' 0 6).toNat
  let t := if x.getLsbD 18 then (x.extractLsb' 6 12).toNat else core
  if s.svc key = false ∧ (s.chan core c).allot = false then chanBadAt s c
  else if x.getLsbD 18 && s.destRefused key t then sendBad s t
  else if t = core then .next (retire (s.chanAct core c act prio (ctxOf key == 7)))
  else .next (retire (s.launchPkt core s.me.taskTag 0 0 (.chanCtl t c act prio (s.core core).asid)))
/-- CHEN (R108, R349). -/
def execChen (a : Reg) (s : State) : Out := chanOp 0 (rdG s.me a) 0 s
/-- CHDIS (R108). -/
def execChdis (a : Reg) (s : State) : Out := chanOp 1 (rdG s.me a) 0 s
/-- CHPRI (R108). -/
def execChpri (a b : Reg) (s : State) : Out := chanOp 2 (rdG s.me a) ((rdG s.me b).extractLsb' 0 2) s
/-- CHEN, CHDIS or CHPRI in the channel table that a job switch saved for a core (R359). -/
def State.savedChanAct (s : State) (core c act : Nat) (prio : BitVec 2) (asid : BitVec 16) : State :=
  { s with saved := s.saved.map (fun x =>
      if x.out && x.asid == asid && x.cores.any (fun p => p.1 == core) then
        let h := tabGet x.chans (core * 64 + c) Chan.initial
        { x with chans := tabSet x.chans (core * 64 + c) (if act = 2 then { h with prio := prio } else { h with enable := act == 0 }) }
      else x) }
/-- CHANNEL_CONTROL_PACKET (R108): in arrival order from each source. One of a job that is not on the core acts on that job's own
table, and on no table where it has none (R24; log entry 45). A CHEN that came from context 7 of another core leaves SPILL here: R97 names context 7
of the channel's own core (log entry 51). -/
def execChannelControlPacket (id : Nat) (s : State) : Out :=
  match s.flights.find? (fun f => f.id == id) with
  | some f =>
    match f.body with
    | .chanCtl t c act prio asid =>
      if s.flights.any (fun g => decide (g.id < id) && g.src == f.src && (match g.body with
          | .chanCtl t' _ _ _ _ => t' == t
          | _ => false)) then .next s
      else if isService f.src || isService t || ((s.core t).hasJob && (s.core t).asid == asid) then
        .next ((s.dropFlight id).chanAct t c act prio false)
      else .next ((s.dropFlight id).savedChanAct t c act prio asid)
    | _ => .next s
  | none => .next s

/-! ### RALLOC and RFREE (R109, R110, R172, R174) -/

/-- Banks of a group: the first and the number (R172). -/
def bankGroup (g : Nat) : Nat × Nat := if g = 1 then (0, 128) else if g = 2 then (128, 64) else (0, 192)
/-- A bank that a region of the core holds; one that is being cleared counts as free (R174). -/
def State.bankUsed (s : State) (core b : Nat) : Bool :=
  (List.range 32).any (fun n => let r := s.region core n; decide (r.reclaim < 2) && decide (r.first ≤ b) && decide (b < r.first + r.nbank))
/-- First fit (R172): the lowest run of free banks long enough. -/
def State.firstFit (s : State) (core group len : Nat) : Option Nat :=
  let (lo, n) := bankGroup group
  (List.range (n + 1 - len)).find? (fun i => (List.range len).all (fun j => !s.bankUsed core (lo + i + j))) |>.map (· + lo)
/-- RALLOC (R109). It takes the lowest-numbered entry that is unused or being cleared: the spec names no choice (log entry 51). -/
def execRalloc (d a b : Reg) (s : State) : Out :=
  let core := s.myCore
  let size := (rdG s.me a).toNat
  let attr := (rdG s.me b).toNat
  if size % 4096 ≠ 0 ∨ size = 0 ∨ 786432 < size ∨ 2 < attr then .next (trapAt s cREGION (rdG s.me a))
  else
    let len := size / 4096
    match (List.range 32).find? (fun n => let r := s.region core n; r.nbank == 0 || decide (2 ≤ r.reclaim)) with
    | none => setG s d (1#64 <<< 63 ||| 1)
    | some n =>
      match s.firstFit core attr len with
      | none => setG s d (1#64 <<< 63 ||| 2)
      | some first =>
        let clearing := (List.range 32).any (fun k => let r := s.region core k
          decide (2 ≤ r.reclaim) && (k == n || (decide (r.first < first + len) && decide (first < r.first + r.nbank))))
        if clearing then .next (holdBack s)
        else setG (s.setRegion core n { first := first, nbank := len, origin := .ralloc, task := s.me.taskTag
                                        asid := (s.core core).asid, reclaim := 0 }) d
          (BitVec.ofNat 64 (n * 2 ^ 20 + first * 4096))
/-- RFREE (R110): it waits for the range scoreboard; the clearing of the banks goes on by itself (R174). A region whose reclaim still
waits is live, and freed so. -/
def execRfree (a : Reg) (s : State) : Out :=
  let core := s.myCore
  let x := rdG s.me a
  let n := (x.extractLsb' 20 5).toNat
  let off := (x.extractLsb' 0 20).toNat
  let r := s.region core n
  if r.nbank = 0 ∨ 2 ≤ r.reclaim ∨ r.first * 4096 ≠ off ∨ r.asid ≠ (s.core core).asid ∨ r.origin = .launch then
    .next (trapAt s cREGION x)
  else if (s.core core).guards.any (fun g =>
      decide (g.lo < spAddr core (off + r.nbank * 4096)) && decide (spAddr core off < g.hi)) then .next (holdBack s)
  else .next (retire (s.setRegion core n { r with reclaim := 2 }))

/-! ### The beginning of an activation (R90, R91, R96, R97) -/

/-- The handler's PC (R95). -/
def Chan.pc (h : Chan) : BitVec 52 := h.entry ++ (0 : BitVec 2)
/-- The job on the core is switched out or being switched, so that nothing is selected (R358). -/
def State.selectionHeld (s : State) (core : Nat) : Bool :=
  match s.switch with
  | some w => w.parts.getLsbD (partitionOf core) && !isService core
  | none => false
/-- The parent tag recorded for a task (R91); 0 on a core that holds no record of it (log entry 44). -/
def State.parentOf (s : State) (core : Nat) (tag : BitVec 16) : BitVec 16 :=
  (((s.core core).tasks.find? (fun t => t.tag == tag)).map (·.parent)).getD 0
/-- The budget of an activation (R380): on a service core it is the one that service firmware set (log entry 10). -/
def State.budgetOf (s : State) (core c : Nat) : Nat :=
  if isService core then (Config.serviceBudget core c s.sched.nextId).toNat else match s.jobOn core with
    | some j => j.budgetFor core c
    | none => 0

/-- The registers at the start of an activation (R91): a CONT brings its own, and the replies that came before it. -/
def startCtx (s : State) (core c : Nat) (words : Vector Word 8) (msgid : Word) (pc : BitVec 52) (slot : Option Nat) : Ctx :=
  let tag := words[0].extractLsb' 38 16
  let b := BitVec.ofNat 32 (s.budgetOf core c)
  { Ctx.initial with
    phase := .run, pc := pc, q := words, taskTag := tag, parent := s.parentOf core tag, msgid := msgid, chan := c
    budget := b, budgetLeft := b, waitLimit := b, act := s.sched.nextId, slot := slot
    seed := msgid ||| 1#64 <<< 63 }
/-- What a CONT brings (R91). -/
def contCtx (c : Ctx) (words : Vector Word 8) : Ctx :=
  { c with
    g := ((((((c.g.set 1 words[2]).set 2 words[3]).set 3 words[4]).set 4 words[5]).set 5 words[6]).set 6 words[7])
    ld := (words[1].extractLsb' 50 6).toNat
    fflags := words[1].extractLsb' 56 5, frm := words[1].extractLsb' 61 3 }
/-- A forwarded reply enters the continuing activation (R106). -/
def takeForwarded (c : Ctx) (p : Pend) : Ctx :=
  match p.reply with
  | some (.bytes b) => { deliver c p.dst b with ld := c.ld - 1 }
  | some (.old v fl) =>
    let n := match p.dst with | .old _ n => n | _ => 8
    { orFlags (deliver c p.dst (leBytes n v.toNat)) fl with ld := c.ld - 1 }
  | some (.fault cause addr) => { c with deferred := c.deferred ++ [{ cause := cause, addr := addr, access := p }] }
  | _ => { c with ld := c.ld - 1 }

/-- SRC of a message (R101). -/
def Msg.src (m : Msg) : Nat := (m.words[0].extractLsb' 14 12).toNat
/-- SERIAL of a message (R101). -/
def Msg.serial (m : Msg) : BitVec 14 := m.words[0].extractLsb' 0 14
/-- The replies that wait with a CONT, in the order in which they came (R106). -/
def Core.lateFor (c : Core) (m : Msg) : List Pend :=
  (c.late.filter (fun p => p.1 == m.src && p.2.1 == m.serial)).map (·.2.2)
/-- A CONT has started (R106): what waited with it is its own, and its forwarding entry goes on to the activation of this number.
A CONT that starts again after a trap or a YIELD finds the entry taken: its first activation has ended. -/
def State.contStarted (s : State) (core : Nat) (m : Msg) (act : Nat) : State :=
  let s1 := s.modCore core (fun y => { y with late := y.late.filter (fun p => !(p.1 == m.src && p.2.1 == m.serial)) })
  s1.modCore m.src (fun y => { y with fwds := y.fwds.map (fun f =>
    if f.dest = core ∧ f.serial = m.serial ∧ f.heir = none then { f with heir := some act } else f) })
/-- An activation of a message begins on a context (R91). -/
def State.activate (s : State) (key : Nat) (x : Slot) (pc : BitVec 52) : State :=
  let core := coreOf key
  let c0 := startCtx s core x.chan x.msg.words x.msgid pc (some x.id)
  let c := if x.msg.kind = 7 then ((s.core core).lateFor x.msg).foldl takeForwarded (contCtx c0 x.msg.words) else c0
  let s1 := s.bump.modCore core (fun y =>
      let y' := { y with inbox := y.inbox.map (fun z => if z.id == x.id then { z with busy := true } else z) }
      if x.msg.acq then y'.l1Inval y'.asid true 0 0 else y')
  (if x.msg.kind = 7 then s1.contStarted core x.msg c.act else s1).setCtx key c

/-- The PC at which a message starts (R91): of word 1 of a START, bits [51:2] (log entry 44). -/
def State.startPc (s : State) (core : Nat) (x : Slot) : BitVec 52 :=
  if x.msg.kind = 0 then (x.msg.words[1].extractLsb' 2 50) ++ (0 : BitVec 2)
  else if x.msg.kind = 7 then (x.msg.words[1].extractLsb' 0 50) ++ (0 : BitVec 2)
  else (s.chan core x.chan).pc

/-- The first channel after LAST in cyclic order (R96). -/
def firstAfter (last : Nat) (pool : List Nat) : Option Nat :=
  ((List.range 64).map (fun i => (last + 1 + i) % 64)).find? (fun c => pool.contains c)
/-- The channel that the core would select (R96). -/
def State.selected (s : State) (core : Nat) : Option Nat :=
  let cand := (List.range 64).filter (s.runnable core)
  let aged := cand.filter (fun c => decide (512 ≤ (s.chan core c).age))
  let pool := if aged.isEmpty then
      let top := maxOf (cand.map (fun c => (s.chan core c).prio.toNat))
      cand.filter (fun c => (s.chan core c).prio.toNat == top)
    else
      let top := maxOf (aged.map (fun c => (s.chan core c).age))
      aged.filter (fun c => (s.chan core c).age == top)
  firstAfter (s.core core).last pool
/-- The lowest-numbered free general context (R96). -/
def State.freeGeneral (s : State) (core : Nat) : Option Nat :=
  ((List.range 6).map (fun j => core * 8 + j)).find? (fun k => decide ((s.ctx k).phase = .free))

/-- CHANNEL_SELECTION (R96). -/
def execChannelSelection (core : Nat) (s : State) : Out :=
  if s.selectionHeld core then .next s
  else match s.freeGeneral core, s.selected core with
    | some key, some c =>
      match (s.core core).inbox.find? (fun x => x.chan == c && !x.busy && !(x.msg.kind == 4)) with
      | some x =>
        let s1 := (s.modCore core (fun y => { y with last := c })).modChan core c (fun h => { h with age := 0 })
        .next (s1.activate key x (s.startPc core x))
      | none => .next s
    | _, _ => .next s

/-- Waiting messages of spilled channels (R97). -/
def State.spillWaiting (s : State) (core : Nat) : List Slot :=
  (s.core core).inbox.filter (fun x => !x.busy && (s.chan core x.chan).spill)
/-- The Collie entry of the job on a core (R97, R378). -/
def State.colliePc (s : State) (core : Nat) : BitVec 52 :=
  match s.jobOn core with
  | some j => (j.word 8).extractLsb' 0 52
  | none => 0
/-- SPILL_ACTIVATION (R97). -/
def execSpillActivation (core : Nat) (s : State) : Out :=
  let key := core * 8 + 7
  if s.selectionHeld core || !decide ((s.ctx key).phase = .free) || (s.jobOn core).isNone then .next s
  else match earliest (s.spillWaiting core) with
    | some x =>
      let s1 := s.bump.modCore core (fun y =>
        { y with inbox := y.inbox.map (fun z => if z.id == x.id then { z with busy := true } else z) })
      .next (s1.setCtx key (startCtx s core x.chan x.msg.words x.msgid (s.colliePc core) (some x.id)))
    | none => .next s
/-- REPLAY_ACTIVATION (R97, R348): no message, CHAN the lowest spilled channel; MSGID is 0 (log entry 44). -/
def execReplayActivation (core : Nat) (s : State) : Out :=
  let key := core * 8 + 7
  if s.selectionHeld core || !decide ((s.ctx key).phase = .free) || (s.jobOn core).isNone ||
      decide (192 < (s.core core).inbox.length) then .next s
  else match (List.range 64).find? (fun c => (s.chan core c).spill) with
    | some c => .next (s.bump.setCtx key (startCtx s core c (Vector.replicate 8 0) 0 (s.colliePc core) none))
    | none => .next s
/-- ATOMIC_HANDLER_ACTIVATION (R232). -/
def execAtomicHandlerActivation (core : Nat) (s : State) : Out :=
  if s.selectionHeld core then .next s
  else match s.nextAtomic core with
    | some x =>
      if (s.chan core x.chan).atomh then
        let s1 := s.activate (core * 8 + 6) x (s.chan core x.chan).pc
        .next (s1.modCtx (core * 8 + 6) (fun c => { c with atomKey := x.msg.ackKey, atomId := x.msg.ackId }))
      else .next s
    | none => .next s

/-! ### Arrival (R93, R97, R353, R362) -/

/-- The victim of a full inbox (R97): most waiting messages, then the lowest PRIO, then the lowest number. -/
def State.spillVictim (s : State) (core : Nat) : Option Nat :=
  let count (c : Nat) : Nat := ((s.core core).inbox.filter (fun x => x.chan == c && !x.busy)).length
  let open_ := (List.range 64).filter (fun c => !(s.chan core c).spill && decide (0 < count c))
  let top := maxOf (open_.map count)
  let most := open_.filter (fun c => count c == top)
  (most.find? (fun c => most.all (fun d => decide ((s.chan core c).prio.toNat ≤ (s.chan core d).prio.toNat))))
/-- With every slot occupied and no waiting message of a spilled channel, a victim's SPILL is set (R97). While such messages wait, no
further victim is chosen (log entry 44). A service core sets SPILL too, though no spill activation can follow there (log entry 51). -/
def State.overflow (s : State) (core : Nat) : State :=
  if (s.core core).inbox.length < 256 || !(s.spillWaiting core).isEmpty then s
  else match s.spillVictim core with
    | some c => s.modChan core c (fun h => { h with spill := true })
    | none => s
/-- The generation after one (R233): from 8,191 to 1. -/
def nextGen (g : BitVec 13) : BitVec 13 := if g = 8191 then 1 else g + 1
/-- A terminal operation of the job and generation stands in the slot. -/
def Op.awaitsNotice (o : Op) (gen : Nat) (asid : BitVec 16) : Bool :=
  o.gen.toNat == gen && o.asid == asid && (decide (o.state = .done) || decide (o.state = .faulted) || decide (o.state = .cancelled))
/-- A token slot freed by the notice that names it, if the slot still holds that operation (R241): on its core, or in what a job
switch saved of it (R247, R359). -/
def State.retireSlot (s : State) (k gen : Nat) (asid : BitVec 16) : State :=
  if (s.op (k / 128) (k % 128)).awaitsNotice gen asid then
    s.setOp (k / 128) (k % 128) { Op.initial with gen := nextGen (s.op (k / 128) (k % 128)).gen }
  else { s with saved := s.saved.map (fun x =>
    let o := tabGet x.ops k Op.initial
    if x.out && o.awaitsNotice gen asid then { x with ops := tabSet x.ops k { Op.initial with gen := nextGen o.gen } } else x) }
/-- A message is done with at its destination or on its way: its sender's operation is answered, and, if it has entered its queue, the
slot that it retires is freed (R218, R241, R353). -/
def State.settleMail (s : State) (m : Mail) (r : Reply) : State :=
  let s1 := match m.retires with
    | some (k, gen) => if r = .done then s.retireSlot k gen m.msg.asid else s
    | none => s
  if m.msg.kind = 4 ∧ r = .done then s1 else s1.answer m.msg.ackKey m.msg.ackId r
/-- A task itself while it has no dead-tag entry, else its nearest ancestor that had none at its TKILL (R245, R355). -/
def liveTask (dead : List DeadTag) (asid : BitVec 16) : Nat → BitVec 16 → BitVec 16
  | 0, t => t
  | n + 1, t => match dead.find? (fun d => d.asid == asid && d.tag == t) with
    | some d => liveTask dead asid n d.heir
    | none => t
/-- A task that a START creates is recorded where it arrives (R89, R102), under its parent or the parent's nearest live ancestor. -/
def recordTask (dead : List DeadTag) (c : Core) (m : Msg) : Core :=
  let w := m.words[4]
  if m.newTask && m.kind == 0 && !(m.tag == 0) && !c.tasks.any (fun t => t.tag == m.tag) then
    { c with tasks := c.tasks ++ [{ tag := m.tag, parent := w.extractLsb' 0 16, pkg := m.pkg.toNat, creator := (w.extractLsb' 16 12).toNat
                                    foster := (w.extractLsb' 28 6).toNat
                                    heir := liveTask dead m.asid dead.length (w.extractLsb' 0 16) }] }
  else c
/-- A message in an inbox slot, by its arrival number (R93). -/
def slotOfMsg (id : Nat) (m : Msg) : Slot := { id := id, msg := m, chan := m.chan, msgid := m.msgid, busy := false }
/-- A message filed in its channel queue (R93), numbered in order of arrival. -/
def State.file (s : State) (core : Nat) (m : Msg) : State :=
  s.bump.modCore core (fun c => recordTask s.deadTags { c with inbox := c.inbox ++ [slotOfMsg s.sched.nextId m] } m)
/-- A message filed in the saved inbox of its job for a core (R362); a task that it creates is recorded there (R102). -/
def State.fileSaved (s : State) (core : Nat) (m : Msg) : State :=
  { s.bump with
    savedInbox := s.savedInbox ++ [(core, slotOfMsg s.sched.nextId m)]
    saved := s.saved.map (fun x => if x.out && x.asid == m.asid && x.cores.any (fun p => p.1 == core) then
      { x with cores := tabSet x.cores core (recordTask s.deadTags (tabGet x.cores core Core.initial) m) } else x) }

/-- Messages that the saved inbox image of a job holds for a core (R362). -/
def State.savedMessages (s : State) (core : Nat) (asid : BitVec 16) : Nat :=
  (s.savedInbox.filter (fun p => p.1 == core && p.2.msg.asid == asid)).length +
  ((s.saved.filter (fun x => x.out && x.asid == asid)).map (fun x => (tabGet x.cores core Core.initial).inbox.length)).foldl (· + ·) 0

/-- The message meets a dead-tag entry that discards it (R353). -/
def Msg.tagged (m : Msg) (d : DeadTag) : Bool :=
  m.asid == d.asid && m.tag == d.tag && (m.kind == 0 || m.kind == 1 || m.kind == 7 || m.kind == 9 || m.kind == 11)
/-- MESSAGE_ARRIVAL (R93): messages from one core to another arrive in the order sent (R94). -/
def execMessageArrival (id : Nat) (s : State) : Out :=
  match s.mail.find? (fun m => m.id == id) with
  | none => .next s
  | some m =>
    if s.mail.any (fun x => decide (x.id < id) && x.src == m.src && x.dest == m.dest) then .next s
    else
      let core := m.dest
      let k := m.msg.kind
      let s1 := { s with mail := s.mail.filter (fun x => !(x.id == id)) }
      if 12 ≤ k then
        .next ((s1.modCore core (fun c => { c with dropKind := if c.dropKind = BitVec.allOnes 32 then c.dropKind else c.dropKind + 1 })).settleMail m .done)
      else if !slotKind k then .next (s1.settleMail m .done)
      else if s.deadTag m.msg.asid m.msg.tag && (k == 0 || k == 1 || k == 7 || k == 9 || k == 11) then .next (s1.settleMail m .nothing)
      else if k = 4 ∧ s.packetLost m.msg.asid m.msg.tag = true then .next ((s1.refresh).settleMail m .nothing)
      else if !isService core && !((s.core core).hasJob && (s.core core).asid == m.msg.asid) then
        if !s.jobLive m.msg.asid then .next (s1.settleMail m .nothing)
        else if 256 ≤ s.savedMessages core m.msg.asid then .next s
        else .next ((s1.fileSaved core m.msg).settleMail m .done)
      else if 256 ≤ (s.core core).inbox.length then .next (s.overflow core)
      else .next (((s1.file core m.msg).overflow core).settleMail m .done)

/-! ### Forwarded replies (R106) -/

/-- Replies forwarded (R106): the continuing activation takes them; before it has started they wait with its CONT, wherever that is;
after it has ended, by END, a trap or YIELD, they are discarded. -/
def State.forward (s : State) (core : Nat) (f : Fwd) (ps : List Pend) : State :=
  match f.heir with
  | none => s.modCore f.dest (fun c => { c with late := c.late ++ ps.map (fun p => (core, f.serial, p)) })
  | some a => match (List.range 8).find? (fun j => decide ((s.ctx (f.dest * 8 + j)).phase = .run) && (s.ctx (f.dest * 8 + j)).act == a) with
    | some j => s.modCtx (f.dest * 8 + j) (fun c => ps.foldl takeForwarded c)
    | none => s
/-- A load of a migrated context that has not read yet reads, or its reply goes on; one that comes 4,096 cycles after the entry was claimed
is discarded (R106). -/
def forwardReply (s : State) (core id : Nat) (f : Fwd) (p : Pend) : State :=
  if f.born + 4096 ≤ s.now then s
  else if p.ready then
    (s.forward core f [p]).modCore core (fun c => { c with fwds := (c.fwds.map (fun g =>
      { g with owed := g.owed.filter (fun q => !(q.id == id)) })).filter (fun g => !g.owed.isEmpty) })
  else s.readPend (core * 8 + f.ctx) p
/-- LOAD_REPLY (R180, R187, R106): to the context that issued the load, or through its forwarding entry. -/
def execLoadReply (key id : Nat) (s : State) : Out :=
  if (s.ctx key).pend.any (fun p => p.id == id) then loadReply key id s
  else
    let core := coreOf key
    match (s.core core).fwds.find? (fun f => f.owed.any (fun p => p.id == id)) with
    | some f =>
      match f.owed.find? (fun p => p.id == id) with
      | some p => .next (forwardReply s core id f p)
      | none => .next s
    | none => .next s
/-- A forwarding entry expires (R106): the replies still owed are taken off LD, and FWDLATE counts. -/
def State.forwardExpired (s : State) (core : Nat) (f : Fwd) : State :=
  (s.forward core f (f.owed.map (fun p => { p with reply := some .nothing, parts := 0 }))).modCore core (fun c =>
    { c with fwds := c.fwds.filter (fun g => !(g == f))
             fwdLate := if c.fwdLate = BitVec.allOnes 32 then c.fwdLate else c.fwdLate + 1 })
/-- FORWARDING_ENTRY_EXPIRY (R106): 4,096 cycles after it was claimed. -/
def execForwardingEntryExpiry (core n : Nat) (s : State) : Out :=
  match (s.core core).fwds[n]? with
  | some f => .next (if s.now < f.born + 4096 then s else s.forwardExpired core f)
  | none => .next s

/-! ### What 4,096 cycles bound (R106, R111, R184) -/

/-- What is due by a cycle happens before it: stores and store-buffer entries that old go on (R111, R184), and forwarding entries expire
(R106). -/
def State.settleDue (s : State) (at_ : Nat) : State :=
  let s1 := s.storesSettle at_
  s1.cores.foldl (fun s p => (p.2.fwds.filter (fun f => decide (f.born + 4096 ≤ at_))).foldl (fun s f => s.forwardExpired p.1 f) s) s1
/-- Cycles pass, and what they bound happens in time. -/
def passTime (s : State) (n : Nat) : State := tick (s.settleDue (s.now + n)) n

end Sys2Proof.Machine
end

