-- ==== Sys2Proof/Machine/Tok.lean ====
section
/-!
DEFINITION. Child operations and their token slots (R233 to R246): issue, completion records and notices, and the TOK
group (R252 to R255). An operation whose unit has decided its outcome stays RUNNING with that outcome in its record until
OP_TERMINAL makes it terminal (R243).
-/
namespace Sys2Proof.Machine

/-! ### Operand records (R236) -/

/-- Bits of a record as a number. -/
def recFld (r : BitVec 512) (lo len : Nat) : Nat := (r.extractLsb' lo len).toNat
/-- Bits of a record as a signed number. -/
def recInt (r : BitVec 512) (lo len : Nat) : Int := (r.extractLsb' lo len).toInt
/-- A word of a record. -/
def recWord (r : BitVec 512) (i : Nat) : Word := r.extractLsb' (64 * i) 64
/-- NCHAN (R236). -/
def hdrChan (r : BitVec 512) : Nat := recFld r 12 6
/-- NOTHER (R236). -/
def hdrOther (r : BitVec 512) : Bool := r.getLsbD 18
/-- RSM (R236). -/
def hdrRsm (r : BitVec 512) : Bool := r.getLsbD 19
/-- CRADDR (R236). -/
def hdrCraddr (r : BitVec 512) : Nat := recFld r 192 52

/-- CLASS (R242): 0 CPY, 1 MAT, 2 COLL, 3 FAB. -/
def Form.cls : Form → Nat
  | .cpy | .cpyX | .cpySp | .cpyR | .cpyF => 0
  | .mmx | .mmxA | .phld | .phdec | .phswp | .phres | .phdrop | .tcopy | .tcopyBp | .tcopyAcc => 1
  | .gjoin | .gleave | .cred | .cbcast | .cgath | .crscat | .ca2a => 2
  | .circ | .circT | .famwr | .pgate | .pwake => 3
/-- A PH form (R291). -/
def Form.isPh : Form → Bool
  | .phld | .phdec | .phswp | .phres | .phdrop => true
  | _ => false
/-- A form that is chunked as a copy is (R248, R287). -/
def Form.isCopy (f : Form) : Bool := f.cls == 0 || decide (f = .tcopy)

/-- A form whose record reports the bytes it wrote (R242, R303). -/
def Form.counts : Form → Bool
  | .tcopy | .tcopyBp | .tcopyAcc => true
  | f => f.cls == 0
/-- The header breaks R9 or R236, or names a barrier with a RES bit set (R305), or counts bytes for a form that cannot
(R284, R336). -/
def headerBad (f : Form) (bar : Bool) (r : BitVec 512) : Bool :=
  decide (recFld r 20 44 ≠ 0) || decide (recFld r 244 12 ≠ 0) || decide (hdrCraddr r % 32 ≠ 0) ||
  (hdrRsm r && decide (f.cls ≠ 0)) ||
  (bar && (decide (recFld r 86 10 ≠ 0) || decide (recFld r 114 14 ≠ 0) || f.isPh || decide (f.cls = 3)))

/-! ### Tokens (R233, R234) -/

/-- The token of a slot. -/
def tokenOf (core slot : Nat) (gen : BitVec 13) : BitVec 32 := BitVec.ofNat 12 core ++ BitVec.ofNat 7 slot ++ gen
/-- A malformed token. -/
def tokMalformed (core : Nat) (t : Word) : Bool :=
  decide (t.extractLsb' 32 32 ≠ 0) || (decide (t ≠ 0) && decide ((t.extractLsb' 20 12).toNat ≠ core))
/-- The slot that a token names. -/
def tokSlot (t : Word) : Nat := (t.extractLsb' 13 7).toNat
/-- A stale token. -/
def tokStale (o : Op) (t : Word) : Bool := decide (o.state = .free) || !(o.gen == t.extractLsb' 0 13)
/-- A terminal state (R235). -/
def TokState.terminal : TokState → Bool
  | .done | .faulted | .cancelled => true
  | _ => false
/-- The code of a state (R235). -/
def TokState.code : TokState → Nat
  | .free => 0
  | .pending => 1
  | .queued => 2
  | .running => 3
  | .suspended => 4
  | .done => 5
  | .faulted => 6
  | .cancelled => 7
/-- The operation has an outcome to show (R242): it is terminal, or suspended with a cause. -/
def Op.shows (o : Op) : Bool := o.state.terminal || (decide (o.state = .suspended) && decide (o.cause ≠ 0))
/-- The completion record as it stands (R242, R254). -/
def opRecord (core slot : Nat) (o : Op) : List Word :=
  [ (if o.shows then o.status ++ o.cause else 0) ++ BitVec.ofNat 4 o.form.cls ++ o.unit ++ (0 : BitVec 32),
    (tokenOf core slot o.gen).setWidth 64,
    o.word2,
    if o.shows then o.word3 else 0 ]
/-- What TSTAT and TWAIT return (R253). -/
def opStatus (core slot : Nat) (o : Op) : Word :=
  ((opRecord core slot o).headD 0) ||| BitVec.ofNat 64 o.state.code
/-- The operation wrote another package (R222). -/
def Op.farWrites (o : Op) : Bool := o.dest.isSome

/-! ### Where a waiting matrix command may move (R269, R277) -/

/-- The engine of a tile-store address (R266). -/
def tileEngine (a : Nat) : Nat := a / 2 ^ 44 % 16
/-- PLN. -/
def mmPln (r : BitVec 512) : Nat := recFld r 256 52
/-- TAG. -/
def mmTag (r : BitVec 512) : BitVec 32 := r.extractLsb' 448 32
/-- A resident entry. -/
def Engine.entry (e : Engine) (k : Nat) : Resent := tabGet e.resent k Resent.initial
/-- Entries that match a tag and an ASID (R269). -/
def Engine.matching (e : Engine) (tag : BitVec 32) (asid : BitVec 16) : List Nat :=
  (List.range 8).filter (fun k => (e.entry k).valid && (e.entry k).tag == tag && (e.entry k).asid == asid)
/-- One of several matching entries, a free choice (R269). -/
def pickEntry (fresh : Nat) (ks : List Nat) : Option Nat := ks[Config.imageChoice fresh % ks.length]?
/-- The lane of a form: 0 matrix, 1 phase, 2 transfer. -/
def Form.lane : Form → Nat
  | .mmx | .mmxA | .phswp => 0
  | .phld | .phdec | .phres | .phdrop => 1
  | _ => 2
/-- Commands in an engine's inbox, with their slots. -/
def State.inboxOf (s : State) (e : Nat) : Tab Op :=
  s.ops.filter (fun p => p.2.inbox && decide (p.2.state = .queued) && p.2.form.cls == 1 && p.2.unit.toNat == e)
/-- Neighbours N, E, S and W of an engine (R17). -/
def neighbours (e : Nat) : List Nat :=
  (if 4 ≤ e then [e - 4] else []) ++ (if e % 4 < 3 then [e + 1] else []) ++
  (if e < 12 then [e + 4] else []) ++ (if 0 < e % 4 then [e - 1] else [])
/-- The engine that a command's record names (R283). -/
def Op.homeEngine (o : Op) : Nat := tileEngine (mmPln o.record)
/-- The command's image (R299): its TAG, or that of the front entry of its home engine. -/
def State.imageTag (s : State) (o : Op) : Option (BitVec 32) :=
  let x := s.engine o.homeEngine
  if mmTag o.record ≠ 0 then some (mmTag o.record)
  else if x.frontV then some (x.entry x.frontIx.toNat).tag else none
/-- The entry of an engine that holds the command's image (R269). -/
def State.imageEntry (s : State) (o : Op) (e : Nat) : Option Nat :=
  match s.imageTag o with
  | some t => pickEntry s.sched.fresh ((s.engine e).matching t o.asid)
  | none => none
/-- The matrix lane of an engine is empty and idle (R277). -/
def State.laneIdle (s : State) (f : Nat) : Bool := (s.engine f).matrix.isNone && !(s.inboxOf f).any (fun p => p.2.form.lane == 0)
/-- The command may move to the neighbour f but for the wait (R277): it may migrate and has not, both controls allow it, the
engine is allotted, its matrix lane is empty and idle, and the image is there or the record permits a reload. -/
def State.mayMove (s : State) (o : Op) (f : Nat) : Bool :=
  let e := o.unit.toNat
  (decide (o.form = .mmx) || decide (o.form = .mmxA)) && o.record.getLsbD 504 && e == o.homeEngine &&
  (s.engine e).migOut && (s.engine f).migIn &&
  (match s.job o.asid with | some j => (j.word 2).getLsbD f | none => o.svc) && s.laneIdle f &&
  ((s.imageEntry o f).isSome || o.record.getLsbD 505)
/-- The first neighbour that qualifies takes the command (R277). -/
def State.moveTo (s : State) (o : Op) : Option Nat := (neighbours o.unit.toNat).find? (s.mayMove o)
/-- The estimated wait of e exceeds MIGWAIT.WAIT (R277; log entry 14). An engine without an ACTIVE deck gives its command away when the
command would start (`State.startMmx`). -/
def State.waitsLong (s : State) (e : Nat) : Bool :=
  -- with the lane free and no other matrix command waiting there is no wait
  let free := (s.engine e).matrix.isNone && decide (((s.inboxOf e).filter (fun p => p.2.form.lane == 0)).length ≤ 1)
  !free && decide ((s.engine e).migWait ≠ BitVec.allOnes 32) && decide ((s.engine e).migWait.toNat < (Config.engineWait s.sched.fresh).toNat)
/-- The check of R277 for the waiting command of a slot (core x 128 + slot). -/
def State.checkMove (s : State) (k : Nat) : State :=
  let o := s.op (k / 128) (k % 128)
  s.refresh.setOp (k / 128) (k % 128) { o with migTo := if s.waitsLong o.unit.toNat then s.moveTo o else none }
/-- The engines check their waiting matrix commands again as neighbours' matrix lanes have become idle since a state (R277). -/
def State.checkMoves (s before : State) : State :=
  let idle := (List.range 16).filter (fun f => s.laneIdle f && !before.laneIdle f)
  (s.ops.filter (fun p => p.2.inbox && decide (p.2.state = .queued) && p.2.form.cls == 1 && p.2.form.lane == 0 &&
    (neighbours p.2.unit.toNat).any idle.contains)).foldl (fun s p => s.checkMove p.1) s

/-! ### Completion (R243) -/

/-- A count of dropped hints of a core raised (R143, R243). -/
def State.hintDropped (s : State) (core : Nat) : State :=
  s.modCore core (fun c => { c with hintDrop := if c.hintDrop = BitVec.allOnes 32 then c.hintDrop else c.hintDrop + 1 })
/-- 32 bytes of a job's memory written by the Kamlan: a scratchpad of the job, or a translated page. None where it faults. -/
def State.jobWrite32 (s : State) (core : Nat) (asid : BitVec 16) (svc : Bool) (va : Nat) (bytes : List Byte) : State × Bool :=
  if isSp va then
    let cells := cellsAt va bytes
    if s.spRefused asid svc (cells.map (·.1)) || s.spWriteRefused cells then (s, false)
    else (s.modMem (fun m => m.writeSp cells), true)
  else match s.jobCells core asid svc va bytes.length .wr with
    | (s1, .error _) => (s1, false)
    | (s1, .ok pa) => (s1.writePa asid (cellsAt pa bytes), true)
/-- The bytes of a completion record. -/
def recordBytes (core slot : Nat) (o : Op) : List Byte := (opRecord core slot o).flatMap (fun w => leBytes 8 w.toNat)
/-- Step 2: the record is written to CRADDR; a fault discards it and counts in HINTDROP. -/
def State.recordOut (s : State) (core slot : Nat) : State :=
  let o := s.op core slot
  let a := hdrCraddr o.record
  if a = 0 then s
  else match s.jobWrite32 core o.asid o.svc a (recordBytes core slot o) with
    | (s1, true) => s1
    | (s1, false) => s1.hintDropped core
/-- The key of the barrier that a name means (R304). -/
def barKey (name : Word) : Nat := (name.extractLsb' 10 12).toNat * 1024 + (name.extractLsb' 0 10).toNat
/-- Where a CPY.R writes (R261). -/
inductive FarDest where
  /-- This package: PKG is its own index. -/
  | own
  /-- The package that a map entry binds, by the entry's absolute index and the package bound. -/
  | far (entry phys : Nat)
  /-- No package: the entry binds none. -/
  | unbound
  deriving DecidableEq, Repr
/-- The destination package of an operation: its own for every form but CPY.R, whose binding is taken once (R330). -/
def State.farDest (s : State) (o : Op) : FarDest :=
  if o.form ≠ .cpyR then .own
  else match s.job o.asid with
    | none => .unbound
    | some j =>
      let pkg := recFld o.record 416 12
      if pkg = j.fld 0 32 12 then .own
      else match o.dest with
        | some phys => .far (j.fld 11 0 12 + pkg) phys
        | none => match s.famOf j pkg with
          | some e => .far (j.fld 11 0 12 + pkg) e.phys.toNat
          | none => .unbound
/-- Bytes, and perhaps an error, sent to the operation's barrier (R251). -/
def State.countBytes (s : State) (core : Nat) (o : Op) (n : Nat) (err : Bool) : State :=
  if !o.bar || (decide (n = 0) && !err) then s
  else
    let name := recWord o.record 1
    match s.farDest o with
    | .far entry phys => s.fabSend o.asid entry false (some phys) core o.seq (.barrier name n err)
    | .unbound => s
    | .own => s.launchPkt core o.task 0 0 (.barrier (barKey name) (if n = 0 then .error else .bytes n err) o.asid)
/-- The core and channel of the job root's notices (R245): the trap channel of the launch record. -/
def State.rootNotice (s : State) (asid : BitVec 16) : Nat × Nat :=
  match s.job asid with
  | some j => (j.fld 10 0 12, j.fld 10 12 6)
  | none => (0, 0)
/-- The message with another core and channel in its word 0 (R101). -/
def Msg.sentTo (m : Msg) (place : Nat × Nat) : Msg :=
  let w := m.words[0]
  { m with words := m.words.set 0 (header (w.extractLsb' 60 4) (BitVec.ofNat 6 place.2) m.tag (BitVec.ofNat 12 place.1) (w.extractLsb' 14 12) (w.extractLsb' 0 14)) }
/-- A notice to a core of a package of the job (R245, R354): to another package as an ordered packet (R330). Where that package's index
is bound no more, it goes to the job root's trap channel, so that it is not lost (R27; log entry 51). -/
def State.notifyPkg (s : State) (core pkg dest chan : Nat) (tag asid : BitVec 16) (ws : List Word) (r : Option (Nat × Nat)) : State :=
  if pkg = (s.pkgOf asid).toNat then s.notifyFrom core dest chan tag asid ws true r
  else
    let w0 := header 11 (BitVec.ofNat 6 chan) tag (BitVec.ofNat 12 dest) (BitVec.ofNat 12 core) (s.core core).serial
    let m := mkMsg #v[w0, ws.getD 0 0, ws.getD 1 0, ws.getD 2 0, ws.getD 3 0, ws.getD 4 0, ws.getD 5 0, ws.getD 6 0] asid (s.pkgOf asid)
    match s.job asid with
    | none => s
    | some j => match s.famOf j pkg with
      | none => (s.takeSerial core).injectRetiring core ({ m with acq := true }.sentTo (s.rootNotice asid)) r
      | some _ => (s.takeSerial core).fabSend asid (j.fld 11 0 12 + pkg) true none 0 0 (.msg { m with acq := true } r)
/-- The NOTIFY of an operation (R244, R245); its entry into the queue retires a detached one that is terminal. -/
def State.opNotice (s : State) (core slot : Nat) : State :=
  let o := s.op core slot
  let ws := opRecord core slot o
  let r := if o.det && o.state.terminal then some (core * 128 + slot, o.gen.toNat) else none
  match o.foster with
  | some (heir, fpkg, fcore, fchan) =>
    s.notifyPkg core fpkg fcore fchan heir o.asid
      (ws ++ [BitVec.ofNat 64 (o.task.toNat + 2 ^ 16 * heir.toNat + 2 ^ 32)]) r
  | none =>
    if o.ntf then
      s.notifyFrom core (if hdrOther o.record then recFld o.record 0 12 else core) (hdrChan o.record) o.task o.asid ws true r
    else s
/-- TWAITs that wait on the slot are released with its terminal record (R253). -/
def State.wakeWaiters (s : State) (core slot : Nat) : State :=
  let o := s.op core slot
  (List.range 8).foldl (fun s j =>
    s.modCtx (core * 8 + j) (fun c =>
      if c.await = .token core slot o.gen.toNat then { c with wake := some (.twait (opStatus core slot o) o.farWrites) } else c)) s
/-- The class counter of the issuing activation lowered, while it runs (R177, R178). -/
def State.lowerCounter (s : State) (o : Op) : State :=
  s.modCtx o.key (fun c =>
    if c.act = o.act then
      (if o.form.cls = 0 then { c with cp := c.cp - 1 } else if o.form.cls = 1 then { c with tl := c.tl - 1 } else c)
    else c)
/-- The engine lane that runs an operation is given up (R271). -/
def State.leaveLanes (s : State) (core slot : Nat) : State :=
  let asid := (s.op core slot).asid
  let keep (l : Option Lane) : Option Lane := match l with
    | some x => if x.op = core * 128 + slot ∧ x.asid = asid then none else some x
    | none => none
  s.modPh (fun p => { p with engines := p.engines.map (fun e =>
    (e.1, { e.2 with matrix := keep e.2.matrix, phase := keep e.2.phase, transfer := keep e.2.transfer })) })
/-- The operation is QUEUED from now on (R271). -/
def State.queueOp (s : State) (core slot : Nat) (o : Op) : State :=
  s.bump.setOp core slot { o with state := .queued, inbox := false, arrived := s.sched.nextId }
/-- Steps 1 to 5 of one operation (R243). The end of a MAT operation can leave a matrix lane idle (R277). -/
def State.endOp (s : State) (core slot : Nat) (st : TokState) (status cause : BitVec 8) (word2 : Word) : State :=
  let o := s.op core slot
  let o1 := { o with state := st, status := status, cause := cause, word2 := word2, word3 := s.time, after := none
                     cancel := 0, beats := [], look := [], inbox := false, heldBytes := 0 }
  let s1 := ((s.leaveLanes core slot).setOp core slot o1).recordOut core slot
  let s2 := s1.countBytes core o1 o.heldBytes (!(decide (st = .done) && decide (status = 1)))
  let s3 := s2.modCore core (fun c => { c with guards := c.guards.filter (fun g => !(g.slot == slot)) })
  let s4 := if o.det then s3 else s3.lowerCounter o1
  let s5 := (s4.wakeWaiters core slot).opNotice core slot
  if o.form.cls = 1 then s5.checkMoves s else s5
/-- PORT. -/
def fabPort (r : BitVec 512) : Nat := recFld r 256 6
/-- PPORT. -/
def fabPport (r : BitVec 512) : Nat := recFld r 262 6
/-- INDEX. -/
def fabIndex (r : BitVec 512) : Nat := recFld r 256 12
/-- Word 2 of a CIRC or CIRC.T record (R337). -/
def circWord (port phys pport reason attempts skew : Nat) : Word :=
  BitVec.ofNat 64 (port + 2 ^ 6 * phys + 2 ^ 18 * pport + 2 ^ 24 * reason + 2 ^ 28 * attempts + 2 ^ 32 * skew)
/-- Word 2 of a FAMWR record (R339). -/
def famWord (o : Op) (phys : Nat) (valid : Bool) (n : Nat) : Word :=
  BitVec.ofNat 64 (fabIndex o.record + 2 ^ 12 * phys + (if valid then 2 ^ 24 else 0) + (if o.record.getLsbD 281 then 2 ^ 25 else 0) + 2 ^ 26 * n)
/-- Word 2 of a FAMWR that leaves its entry as it is. -/
def State.famUnchanged (s : State) (o : Op) : Word :=
  match (s.job o.asid).bind (fun j => if fabIndex o.record < j.fld 11 12 13 then some (s.fam (j.fld 11 0 12 + fabIndex o.record)) else none) with
  | some e => famWord o e.phys.toNat e.valid 0
  | none => famWord o 0 false 0
/-- Word 2 of an operation that is cancelled where it stands (R242, R303, R337, R339): the bytes performed by a copy; the ports of
a CIRC; the entry of a FAMWR; else zero. -/
def State.cancelWord (s : State) (o : Op) : Word :=
  if o.form.counts then BitVec.ofNat 64 o.bytes
  else match o.form with
    | .circ => circWord (fabPort o.record) 0 (fabPport o.record) 0 0 0
    | .circT => circWord (fabPort o.record) 0 0 0 0 0
    | .famwr => s.famUnchanged o
    | _ => 0
/-- The first PENDING operation of a core whose after-token is terminal, with that token's slot (R239). -/
def State.freedDependent (s : State) (core : Nat) : Option (Nat × Nat) :=
  (List.range 128).findSome? (fun n =>
    let o := s.op core n
    match o.after with
    | some (a, gen) =>
      if o.state = .pending ∧ (s.op core a).gen.toNat = gen ∧ (s.op core a).state.terminal = true then some (n, a) else none
    | none => none)
/-- Dependents released one after another: QUEUED after DONE, else CANCELLED with cause 0x40 (R239). -/
def State.releaseDependents (s : State) (core : Nat) : Nat → State
  | 0 => s
  | n + 1 =>
    match s.freedDependent core with
    | none => s
    | some (d, a) =>
      (if (s.op core a).state = .done then s.queueOp core d { s.op core d with after := none }
       else s.endOp core d .cancelled 0x11 0x40 (s.cancelWord (s.op core d))).releaseDependents core n
/-- A slot freed (R241). -/
def State.retireOp (s : State) (core slot : Nat) : State :=
  s.setOp core slot { Op.initial with gen := nextGen (s.op core slot).gen }
/-- Attached operations of a killed task are retired as soon as they are terminal (R245). -/
def State.retireKilled (s : State) (core : Nat) : State :=
  (List.range 128).foldl (fun s n =>
    let o := s.op core n
    if o.state.terminal && o.killed then s.retireOp core n else s) s
/-- An operation becomes terminal, and with it what hangs on it (R239, R243, R245). -/
def State.finishOp (s : State) (core slot : Nat) (st : TokState) (status cause : BitVec 8) (word2 : Word) : State :=
  ((s.endOp core slot st status cause word2).releaseDependents core 128).retireKilled core
/-- An operation becomes SUSPENDED with a cause (R240, R243). -/
def State.suspendOp (s : State) (core slot : Nat) (cause : BitVec 8) (word2 : Word) : State :=
  let s1 := (s.leaveLanes core slot).modOp core slot (fun o =>
    { o with state := .suspended, inbox := false, status := 0x08, cause := cause, word2 := word2, word3 := s.time, look := [] })
  (s1.recordOut core slot).opNotice core slot
/-- The unit has decided the outcome of a RUNNING operation, which OP_TERMINAL makes terminal. -/
def State.decideOp (s : State) (core slot : Nat) (status cause : BitVec 8) (word2 : Word) : State :=
  s.modOp core slot (fun o => { o with status := status, cause := cause, word2 := word2, beats := [], look := [] })
/-- A cancellation (R240, R250): at once, or, of a RUNNING operation, at its unit, as long as some of its work is still to come. One
that is pending there keeps its cause when another comes: the spec says nothing of two (log entry 51). -/
def State.cancelOp (s : State) (core slot : Nat) (cause : BitVec 8) : State :=
  let o := s.op core slot
  match o.state with
  | .pending | .queued | .suspended => s.finishOp core slot .cancelled 0x11 cause (s.cancelWord o)
  | .running => if (o.status = 0 ∨ o.status = 0x08 ∨ (o.status = 0x10 ∧ (o.beats ≠ [] ∨ o.unacked ≠ 0))) ∧ o.cancel = 0 then s.modOp core slot (fun o => { o with cancel := cause }) else s
  | _ => s

/-! ### Issue (R237) -/

/-- A barrier name is refused in this package (R305): by the job's own allotment, whether or not it runs on the owner now. -/
def State.barRefused (s : State) (key : Nat) (name : Word) : Bool :=
  let owner := (name.extractLsb' 10 12).toNat
  decide (name.extractLsb' 22 10 ≠ 0) || decide (name.extractLsb' 50 14 ≠ 0) ||
  (match s.jobOn (coreOf key) with
    | some j => !j.holds owner || decide (j.nbOn owner ≤ (name.extractLsb' 0 10).toNat)
    | none => true)
/-- A range of the core's own scratchpad that a record names, from its base address: REGION where it is not wholly in the
job's live regions, else the bounds of its scoreboard entry (R173, R181, R256). Nothing for a range elsewhere. -/
def State.ownRange (s : State) (key : Nat) (base : Nat) (lo hi : Int) : Except (BitVec 8 × Word) (List (Nat × Nat)) :=
  let core := coreOf key
  let a := lo.toNat
  let e := hi.toNat
  if !(isSp base && spOwner base == core) || decide (hi ≤ lo) then .ok []
  else if lo < (spAddr core 0 : Nat) ∨ ((spAddr core spSize : Nat) : Int) < hi ∨
      (s.svc key = false ∧ (List.range (spOff (e - 1) / 4096 + 1 - spOff a / 4096)).any (fun i =>
        !s.inRegion (s.core core).asid (spAddr core ((spOff a / 4096 + i) * 4096))) = true) then
    .error (cREGION, BitVec.ofNat 64 base)
  else .ok [(a, e)]
/-- Several ranges: base, lowest byte, byte after the highest. -/
def State.ownRanges (s : State) (key : Nat) : List (Nat × Int × Int) → Except (BitVec 8 × Word) (List (Nat × Nat))
  | [] => .ok []
  | (b, lo, hi) :: t =>
    match s.ownRange key b lo hi with
    | .error e => .error e
    | .ok r => match s.ownRanges key t with
      | .error e => .error e
      | .ok rs => .ok (r ++ rs)
/-- What a form brings to the issue of its operation. -/
structure FormRules where
  form : Form
  /-- The body breaks its map or its limits (ENGBAD). -/
  bad : State → BitVec 512 → Bool
  /-- The checks of the form, and the ranges that take scoreboard entries. -/
  check : State → BitVec 512 → Except (BitVec 8 × Word) (List (Nat × Nat))
  /-- The executing unit (R242). -/
  unit : State → BitVec 512 → BitVec 12
  /-- The format-table entries captured: of the source and of the destination (R135). -/
  entries : Core → BitVec 512 → BitVec 256 × BitVec 256
/-- The lowest-numbered FREE slot (R237). -/
def State.freeSlotNo (s : State) (core : Nat) : Option Nat :=
  (List.range 128).find? (fun n => decide ((s.op core n).state = .free))
/-- trap(cause) with a token (R342). -/
def trapToken (s : State) (t : Word) : Out := .next (s.takeTrap s.sched.cur (trapHere s.me cTOKBAD 0 (t.extractLsb' 0 32) 0))
/-- The operation created (R237). -/
def createOp (r : FormRules) (d : Reg) (det : Bool) (pri : Nat) (ntf bar : Bool) (rec' : BitVec 512) (after : Word)
    (ranges : List (Nat × Nat)) (slot : Nat) (s : State) : Out :=
  let key := s.sched.cur
  let core := s.myCore
  let k := s.core core
  let c := s.me
  let seed := recWord rec' 2
  let es := r.entries k rec'
  let pred := s.op core (tokSlot after)
  let idle := decide (after = 0) || tokStale pred after || decide (pred.state = .done)
  let gen := (s.op core slot).gen
  let o : Op :=
    { Op.initial with
      state := if idle then .queued else .pending, gen := gen, form := r.form, record := rec', asid := k.asid, task := c.taskTag
      pri := pri, det := det, ntf := ntf, bar := bar, key := key, act := c.act, seq := s.sched.nextId, arrived := s.sched.nextId, svc := s.svc key
      frm := c.frm, dt := k.dt, dmode := k.dmode, srcEntry := es.1, dstEntry := es.2
      after := if idle then none else some (tokSlot after, pred.gen.toNat)
      unit := r.unit s rec', rng := if seed = 0 then 1#64 <<< 63 else seed }
  let s1 := (s.bump.setOp core slot o).modCore core (fun x =>
    { x with guards := x.guards ++ ranges.map (fun p => { slot := slot, lo := p.1, hi := p.2 }) })
  let s2 := retireWith s1 (fun c =>
    let c' := wrG c d ((tokenOf core slot gen).setWidth 64)
    if det then c' else if r.form.cls = 0 then { c' with cp := c'.cp + 1 } else if r.form.cls = 1 then { c' with tl := c'.tl + 1 } else c')
  .next (if !idle && (decide (pred.state = .faulted) || decide (pred.state = .cancelled)) then
      s2.finishOp core slot .cancelled 0x11 0x40 (s.cancelWord o)
    else s2)
/-- The issue of a child operation (R237): the record is read, checked and captured. -/
def issueOp (r : FormRules) (d a b : Reg) (x : BitVec 1) (p : BitVec 2) (n k : BitVec 1) (s : State) : Out :=
  let ptr := tagVa (rdG s.me a)
  let bar := k == 1
  let det := x == 1
  if ptr % 32 ≠ 0 then .next (trapAt s cMISALIGN (BitVec.ofNat 64 ptr))
  else readNow s false (runAt ptr 64) (fun s bytes =>
    let rec' : BitVec 512 := BitVec.ofNat 512 (leNat bytes)
    let key := s.sched.cur
    let core := s.myCore
    let after := rdG s.me b
    let name := recWord rec' 1
    if headerBad r.form bar rec' || r.bad s rec' || decide (0xD ≤ regionOf (hdrCraddr rec')) then
      .next (trapAt s cENGBAD (BitVec.ofNat 64 ptr))
    else if tokMalformed core after then trapToken s after
    else if bar && !decide (r.form = .cpyR) && s.barRefused key name then .next (trapAt s cBARBAD name)
    else if n == 1 && s.chanBad key (hdrChan rec') then chanBadAt s (hdrChan rec')
    else if n == 1 && hdrOther rec' && s.destRefused key (recFld rec' 0 12) then sendBad s (recFld rec' 0 12)
    else match r.check s rec' with
      | .error (cause, faddr) => .next (trapAt s cause (if cause = cENGBAD then BitVec.ofNat 64 ptr else faddr))
      | .ok ranges =>
        let full := !det && ((r.form.cls == 0 && decide (63 ≤ s.me.cp)) || (r.form.cls == 1 && decide (63 ≤ s.me.tl)))
        match s.freeSlotNo core with
        | none => .next (blockOn s .nothing 0)
        | some slot =>
          if full || decide (16 < (s.core core).guards.length + ranges.length) then .next (blockOn s .nothing 0)
          else createOp r d det p.toNat (n == 1) bar rec' after ranges slot s)

/-! ### The TOK group (R252 to R255) -/

/-- An observation of completion acquires (R222, R225): the L1 is emptied of the ASID. -/
def State.acquire (s : State) (core : Nat) : State := s.modCore core (fun c => c.l1Inval c.asid true 0 0)
/-- The status of a slot is returned; a terminal one is acquired from, and may be retired (R253). -/
def giveStatus (s : State) (d : Reg) (slot : Nat) (retires : Bool) : Out :=
  let core := s.myCore
  let o := s.op core slot
  let s1 := if o.state.terminal then s.acquire core else s
  let s2 := if o.state.terminal && retires then s1.retireOp core slot else s1
  setG s2 d (opStatus core slot o)
/-- The three forms that read a status (R253). -/
def statusOp (s : State) (d a : Reg) (waits retires : Bool) : Out :=
  let core := s.myCore
  let t := rdG s.me a
  let slot := tokSlot t
  let o := s.op core slot
  if tokMalformed core t then trapToken s t
  else match (if waits then s.me.wake else none) with
    | some (.twait w _) =>
      let s1 := s.acquire core
      setG (if !tokStale o t && o.state.terminal then s1.retireOp core slot else s1) d w
    | _ =>
      if t = 0 then setG s d 8
      else if tokStale o t then setG s d (0xFF#64 <<< 56)
      else if waits && !o.state.terminal then .next (blockOn s (.token core slot o.gen.toNat) (t.extractLsb' 0 32))
      else giveStatus s d slot retires
/-- TWAIT (R253). -/
def execTwait (d a : Reg) (s : State) : Out := statusOp s d a true true
/-- TSTAT (R253). -/
def execTstat (d a : Reg) (s : State) : Out := statusOp s d a false false
/-- TSTAT.R (R253). -/
def execTstatR (d a : Reg) (s : State) : Out := statusOp s d a false true
/-- An instruction on a live token; a stale one or token 0 makes it a no-operation (R254). -/
def onToken (s : State) (a : Reg) (f : State → Nat → State) : Out :=
  let core := s.myCore
  let t := rdG s.me a
  if tokMalformed core t then trapToken s t
  else if t = 0 ∨ tokStale (s.op core (tokSlot t)) t = true then .next (retire s)
  else .next (retire (f s (tokSlot t)))
/-- TCANCEL (R254). -/
def execTcancel (a : Reg) (s : State) : Out := onToken s a (fun s slot => s.cancelOp s.myCore slot 0x41)
/-- TRESUME (R254). -/
def execTresume (a : Reg) (s : State) : Out :=
  onToken s a (fun s slot =>
    let o := s.op s.myCore slot
    if o.state = .suspended ∧ o.cause ≠ 0 then s.queueOp s.myCore slot { o with status := 0, cause := 0 } else s)
/-- TDET (R254). -/
def execTdet (a : Reg) (s : State) : Out :=
  onToken s a (fun s slot =>
    let o := s.op s.myCore slot
    if o.state.terminal || o.det then s
    else (s.setOp s.myCore slot { o with det := true }).lowerCounter o)
/-- TREC (R254): one store of the record. -/
def execTrec (a b : Reg) (s : State) : Out :=
  let core := s.myCore
  let t := rdG s.me a
  let ea := tagVa (rdG s.me b)
  let o := s.op core (tokSlot t)
  let ws : List Word := if t = 0 then [0, 0, 0, 0]
    else if tokStale o t then [0xFF#64 <<< 56, t, 0, 0] else opRecord core (tokSlot t) o
  if tokMalformed core t then trapToken s t
  else if ea % 32 ≠ 0 then .next (trapAt s cMISALIGN (BitVec.ofNat 64 ea))
  else issueStore s ea 0 true (ws.flatMap (fun w => leBytes 8 w.toNat))
/-- TFENCE (R255). -/
def execTfence (c : BitVec 4) (s : State) : Out :=
  let key := s.sched.cur
  let core := s.myCore
  let open_ := (List.range 128).any (fun n =>
    let o := s.op core n
    decide (o.state ≠ .free) && !o.state.terminal && o.key == key && o.act == s.me.act && c.getLsbD o.form.cls)
  if open_ then .next (blockOn s .nothing 0) else .next (retire (s.acquire core))

/-- OP_TERMINAL (R243): a RUNNING operation whose outcome is decided, nothing of it being in flight. -/
def execOpTerminal (core slot : Nat) (s : State) : Out :=
  let o := s.op core slot
  if o.state = .running ∧ o.status ≠ 0 ∧ o.status ≠ 0x08 ∧ o.beats = [] ∧ o.unacked = 0 then
    .next (s.finishOp core slot (if o.status = 0x11 then .cancelled else if o.status = 0x10 then .faulted else .done)
      o.status o.cause o.word2)
  else .next s

end Sys2Proof.Machine
end

