-- ==== Sys2Proof/Machine/Cpy.lean ====
section
/-!
DEFINITION. The copy forms (R256 to R261), TCOPY's share of them (R287), and the copy engines (R248 to R251). A chunk's
bytes are read and converted when the chunk is taken up, and written beat by beat afterwards (log entry 13).
-/
namespace Sys2Proof.Machine

/-! ### How elements lie in memory -/

/-- One side of a copy: elements of `bits` bits, `perRow` of them in a row (0: one row), rows `stride` bytes apart; scale
bytes of blocks of 2^blog elements (R120, R126). -/
structure Side where
  kind : Nat
  bits : Nat
  base : Nat
  perRow : Nat
  stride : Int
  blog : Nat
  scales : Nat
  deriving DecidableEq, Repr
/-- An address modulo 2^52 (R45). -/
def va52 (x : Int) : Nat := (x % (2 ^ 52 : Nat)).toNat
/-- The first byte of element i and the bit at which it starts there. -/
def Side.place (d : Side) (i : Nat) : Int × Nat :=
  let r := if d.perRow = 0 then 0 else i / d.perRow
  let k := if d.perRow = 0 then i else i % d.perRow
  ((d.base : Int) + (r : Int) * d.stride + ((k * d.bits / 8 : Nat) : Int), k * d.bits % 8)
/-- Addresses of the bytes that hold element i. -/
def Side.bytes (d : Side) (i : Nat) : List Nat :=
  let (a, b) := d.place i
  (List.range ((b + d.bits + 7) / 8)).map (fun (k : Nat) => va52 (a + (k : Int)))
/-- The address of the scale of element i's block. -/
def Side.scale (d : Side) (i : Nat) : List Nat := if d.blog = 0 then [] else [va52 ((d.scales + i / 2 ^ d.blog : Nat) : Int)]
/-- Every byte that element i concerns. -/
def Side.all (d : Side) (i : Nat) : List Nat := d.bytes i ++ d.scale i
/-- The lowest byte of n elements and the byte after the highest. -/
def Side.span (d : Side) (n : Nat) : Int × Int :=
  if d.perRow = 0 then ((d.base : Int), (d.base + (n * d.bits + 7) / 8 : Nat))
  else
    let rows := n / d.perRow
    let last := ((rows - 1 : Nat) : Int) * d.stride
    ((d.base : Int) + min 0 last, (d.base : Int) + max 0 last + ((d.perRow * d.bits / 8 : Nat) : Int))
/-- The side of a fat pointer (R45, R126). -/
def sideOf (e : BitVec 256) (p : Word) : Side :=
  let k := tagKind p
  { kind := k
    bits := if k = 1 ∨ k = 4 then 32 else if k = 2 ∨ k = 3 then 16 else if tagFmt p = 0 then kindWidth k 0 else ftW e
    base := tagVa p, perRow := 0, stride := 0, blog := tagBlog p
    scales := if tagBlog p = 0 then 0 else scaleAddr e (tagVa p) 0 }
/-- Rows of eight-byte locations (R257). -/
def rawSide (base rowLen : Nat) (stride : Int) : Side :=
  { kind := 0, bits := 64, base := base, perRow := rowLen / 8, stride := stride, blog := 0, scales := 0 }

/-! ### The records (R257 to R261) -/

/-- What a copy does: its elements, its sides (no source for a pattern), and the masks of CPY.SP. -/
structure Plan where
  n : Nat
  src : Option Side
  dst : Side
  sparse : Option (Nat × Nat)
  deriving DecidableEq, Repr
/-- The fewest elements that fill whole blocks and whole eight-byte locations. Work stops only after a multiple of them, so that every
location is written once and whole, and every element read once (R216, R224, R249; log entry 13). -/
def Side.grain (d : Side) : Nat := 2 ^ d.blog * (64 / Nat.gcd 64 (2 ^ d.blog * d.bits))
/-- The element at which a chunk ends that begins at element p of n: at 4,096 bytes, counted from the origin in destination order, or at
the end of the block and the location that hold the last of them (R249). -/
def Side.chunkEnd (d : Side) (n p : Nat) : Nat :=
  let bits := (p * d.bits / 32768 + 1) * 32768
  Nat.min n ((bits + d.grain * d.bits - 1) / (d.grain * d.bits) * d.grain)
/-- The element before which everything is carried out when element f faults (R249). -/
def Side.faultEnd (d : Side) (f : Nat) : Nat := f / d.grain * d.grain
/-- The plan of an operation (R257 to R261, R287). -/
def Op.plan (o : Op) : Plan :=
  let r := o.record
  match o.form with
  | .cpyF =>
    { n := recFld r 384 48 / 8, src := none, dst := rawSide (recFld r 256 52) 0 0, sparse := none }
  | .cpyR =>
    { n := recFld r 384 32 / 8, src := some (rawSide (recFld r 256 52) 0 0), dst := rawSide (recFld r 320 52) 0 0, sparse := none }
  | .cpyX =>
    { n := recFld r 384 48, src := some (sideOf o.srcEntry (recWord r 4)), dst := sideOf o.dstEntry (recWord r 5), sparse := none }
  | .cpySp =>
    { n := recFld r 448 48, src := some (sideOf o.srcEntry (recWord r 4)), dst := sideOf o.dstEntry (recWord r 5)
      sparse := some (recFld r 384 52, recFld r 496 4) }
  | _ =>
    let len := recFld r 384 32
    { n := len / 8 * recFld r 416 24, src := some (rawSide (recFld r 256 52) len (recInt r 448 32))
      dst := rawSide (recFld r 320 52) len (recInt r 480 32), sparse := none }

/-! ### Issue (R256 to R261) -/

/-- Body addresses in region 0xD or 0xF trap XLATE (R256). -/
def hollow : List Nat → Except (BitVec 8 × Word) Unit
  | [] => .ok ()
  | a :: t => if regionOf a = 0xD ∨ regionOf a = 0xF then .error (cXLATE, BitVec.ofNat 64 a) else hollow t
/-- A side's ranges: its elements and its scale bytes, that of a last partial block with them (R181). -/
def Side.ranges (d : Side) (n : Nat) : List (Nat × Int × Int) :=
  [(d.base, (d.span n).1, (d.span n).2)] ++
  (if d.blog = 0 then [] else [(d.scales, (d.scales : Int), ((d.scales + (n + 2 ^ d.blog - 1) / 2 ^ d.blog : Nat) : Int))])
/-- The divisors' range of an entry that smooths (R127). -/
def divisorRange (e : BitVec 256) (n : Nat) : List (Nat × Int × Int) :=
  if ftSmen e then [(ftSptr e, (ftSptr e : Int), ((ftSptr e + 4 * Nat.min n (ftSlen e) : Nat) : Int))] else []
/-- The body of CPY and TCOPY (R257). -/
def cpyBad (r : BitVec 512) : Bool :=
  decide (recFld r 256 52 % 8 ≠ 0) || decide (recFld r 320 52 % 8 ≠ 0) || decide (recFld r 384 32 % 8 ≠ 0) ||
  decide (recFld r 384 32 = 0) || decide (recFld r 416 24 = 0) || decide (recFld r 440 8 ≠ 0) ||
  decide (recFld r 448 3 ≠ 0) || decide (recFld r 480 3 ≠ 0)
/-- The plan that a record would have. -/
def planOf (f : Form) (r : BitVec 512) (es : BitVec 256 × BitVec 256) : Plan :=
  Op.plan { Op.initial with form := f, record := r, srcEntry := es.1, dstEntry := es.2 }
/-- The cluster that executes a copy (R242). -/
def copyUnit (s : State) (_ : BitVec 512) : BitVec 12 := BitVec.ofNat 12 (clusterOf s.myCore)
/-- No entry. -/
def noEntries (_ : Core) (_ : BitVec 512) : BitVec 256 × BitVec 256 := (0, 0)
/-- The addresses and the ranges of a raw copy checked. -/
def rawCheck (f : Form) (far : Bool) (s : State) (r : BitVec 512) : Except (BitVec 8 × Word) (List (Nat × Nat)) :=
  let p := planOf f r (0, 0)
  let srcs := match p.src with | some d => [d] | none => []
  match hollow ((srcs ++ [p.dst]).map (·.base)) with
  | .error e => .error e
  | .ok () => s.ownRanges s.sched.cur ((if far then srcs else srcs ++ [p.dst]).flatMap (fun d => d.ranges p.n))
/-- CPY (R257). -/
def rulesCpy : FormRules :=
  { form := .cpy, bad := fun _ r => cpyBad r, check := rawCheck .cpy false, unit := copyUnit, entries := noEntries }
/-- CPY.F (R258). -/
def rulesCpyF : FormRules :=
  { form := .cpyF
    bad := fun _ r => decide (recFld r 256 52 % 8 ≠ 0) || decide (recFld r 384 48 % 8 ≠ 0) || decide (recFld r 384 48 = 0) ||
      decide (recFld r 432 80 ≠ 0)
    check := rawCheck .cpyF false, unit := copyUnit, entries := noEntries }
/-- CPY.R (R261): the destination is checked at its package. -/
def rulesCpyR : FormRules :=
  { form := .cpyR
    bad := fun _ r => decide (recFld r 256 52 % 64 ≠ 0) || decide (recFld r 320 52 % 64 ≠ 0) || decide (recFld r 384 32 % 64 ≠ 0) ||
      decide (recFld r 384 32 = 0) || decide (recFld r 428 84 ≠ 0)
    check := rawCheck .cpyR true, unit := copyUnit, entries := noEntries }
/-- The entries that the two pointers name (R135). -/
def pointerEntries (c : Core) (r : BitVec 512) : BitVec 256 × BitVec 256 :=
  (c.ftEntry (tagFmt (recWord r 4)), c.ftEntry (tagFmt (recWord r 5)))
/-- The checks of CPY.X and CPY.SP (R259, R260), in the order in which R237 names them: FMT, DTORDER, XLATE, REGION. -/
def convertCheck (f : Form) (s : State) (r : BitVec 512) : Except (BitVec 8 × Word) (List (Nat × Nat)) :=
  let core := s.core s.myCore
  let sp := recWord r 4
  let dp := recWord r 5
  let es := pointerEntries core r
  let p := planOf f r es
  let a := sideOf es.1 sp
  let d := p.dst
  let kept := match p.sparse with | some (_, n) => (p.n + 11) / 12 * n | none => p.n
  let mask := match p.sparse with | some (m, _) => [(m, (m : Int), ((m + (p.n + 11) / 12 * 2 : Nat) : Int))] | none => []
  if tagRefused es.1 sp || tagKind sp == 0 || decide (p.n % 2 ^ a.blog ≠ 0) then .error (cFMT, sp)
  else if tagRefused es.2 dp || tagKind dp == 0 || decide (p.n % 2 ^ d.blog ≠ 0) || decide (p.n * d.bits % 64 ≠ 0) ||
      decide (tagVa dp % 8 ≠ 0) then .error (cFMT, dp)
  else if tagKind dp = 5 ∧ core.outOfOrder = true then .error (cDTORDER, 0)
  else match hollow ([tagVa sp, tagVa dp] ++ mask.map (·.1)) with
    | .error e => .error e
    | .ok () => s.ownRanges s.sched.cur (a.ranges kept ++ d.ranges p.n ++ mask ++ divisorRange es.2 p.n)
/-- CPY.X (R259). -/
def rulesCpyX : FormRules :=
  { form := .cpyX
    bad := fun _ r => decide (recFld r 384 48 = 0) || decide (5 < recFld r 432 3) || decide (recFld r 435 77 ≠ 0)
    check := convertCheck .cpyX, unit := copyUnit, entries := pointerEntries }
/-- CPY.SP (R260). -/
def rulesCpySp : FormRules :=
  { form := .cpySp
    bad := fun _ r => decide (recFld r 384 1 ≠ 0) || decide (recFld r 436 12 ≠ 0) || decide (recFld r 448 48 = 0) ||
      decide (recFld r 496 4 = 0) || decide (8 < recFld r 496 4) || decide (5 < recFld r 500 3) || decide (recFld r 503 9 ≠ 0)
    check := convertCheck .cpySp, unit := copyUnit, entries := pointerEntries }
/-- CPY (R257). -/
def execCpy (d a b : Reg) (x : BitVec 1) (p : BitVec 2) (n k : BitVec 1) (s : State) : Out := issueOp rulesCpy d a b x p n k s
/-- CPY.X (R259). -/
def execCpyX (d a b : Reg) (x : BitVec 1) (p : BitVec 2) (n k : BitVec 1) (s : State) : Out := issueOp rulesCpyX d a b x p n k s
/-- CPY.SP (R260). -/
def execCpySp (d a b : Reg) (x : BitVec 1) (p : BitVec 2) (n k : BitVec 1) (s : State) : Out := issueOp rulesCpySp d a b x p n k s
/-- CPY.R (R261). -/
def execCpyR (d a b : Reg) (x : BitVec 1) (p : BitVec 2) (n k : BitVec 1) (s : State) : Out := issueOp rulesCpyR d a b x p n k s
/-- CPY.F (R258). -/
def execCpyF (d a b : Reg) (x : BitVec 1) (p : BitVec 2) (n k : BitVec 1) (s : State) : Out := issueOp rulesCpyF d a b x p n k s

/-! ### Places: where a unit finds an address (R249, R266) -/

/-- A tile-store address breaks R266 or lies outside the allotment of the job. Service level is held to the layout alone
(log entry 10). -/
def State.tileRefused (s : State) (asid : BitVec 16) (svc : Bool) (a : Nat) : Bool :=
  let tile := a / 2 ^ 14 % 512
  decide (a / 2 ^ 23 % 2 ^ 19 ≠ 0) || decide (504 ≤ tile) ||
  (!svc && match s.job asid with
    | some j => !(j.word 2).getLsbD (a / 2 ^ 44 % 16) || decide (tile < j.fld 2 16 9) || decide (j.fld 2 16 9 + j.fld 2 25 9 ≤ tile)
    | none => true)
/-- Pages of 64 KiB translated one after another: the PA of each page's first byte. -/
def State.pages (s : State) (cluster : Nat) (asid : BitVec 16) (svc : Bool) (need : Need) :
    List Nat → State × List (Nat × Except (BitVec 8) Nat)
  | [] => (s, [])
  | p :: t =>
    let (s1, r) := s.translate cluster asid (p * 65536) need svc
    let (s2, m) := s1.pages cluster asid svc need t
    (s2, (p, r.map (·.1)) :: m)
/-- The 64 KiB pages of translated addresses. -/
def pagesIn (as : List Nat) : List Nat := ((as.filter (fun a => decide (regionOf a < 0xC))).map (· / 65536)).eraseDups
/-- Where an address is: a PA, a scratchpad address, a tile-store address, or the cause of its refusal. -/
def State.placed (s : State) (asid : BitVec 16) (svc : Bool) (pages : List (Nat × Except (BitVec 8) Nat)) (a : Nat) :
    Except (BitVec 8) Nat :=
  if regionOf a < 0xC then
    match pages.find? (fun p => p.1 == a / 65536) with
    | some (_, .ok pa) => .ok (pa + a % 65536)
    | some (_, .error c) => .error c
    | none => .error cXLATE
  else if regionOf a = 0xC then .ok a
  else if regionOf a = 0xE then (if s.tileRefused asid svc a then .error cPROT else .ok a)
  else .error cXLATE
/-- The place is a PA: window addresses lie above every PA (R45, R194). -/
def isPa (pl : Nat) : Bool := decide (pl < 2 ^ 48)
/-- A read of the place cannot be served now (R206). -/
def State.placeBusy (s : State) (asid : BitVec 16) (pl : Nat) : Bool := isPa pl && !s.lineReadable asid pl
/-- A read of the place is refused: the owner's REGION, or POISON. -/
def State.placeFault (s : State) (asid : BitVec 16) (svc : Bool) (pl : Nat) : Option (BitVec 8) :=
  if isPa pl then (if s.paPoisoned asid pl then some cPOISON else none)
  else if isSp pl && s.spRefused asid svc [pl] then some cREGION
  else if s.spPoisoned pl then some cPOISON
  else none
/-- The byte at a place. -/
def State.placeByte (s : State) (asid : BitVec 16) (pl : Nat) : Byte :=
  if isPa pl then (s.lineBytes asid pl).getD (pl % 64) 0 else memGet s.mem.cells pl
/-- Cells of one line written at their places: none while the memory side must first obtain the line, or the cause for
which they are refused (R203, R208, R210, R211, R249). -/
def State.placeWrite (s : State) (asid : BitVec 16) (svc : Bool) (cells : List Host.Cell) : Option (Except (BitVec 8) State) :=
  let a := (cells.headD (0, 0)).1
  if isPa a then
    if s.paWriteRefused asid cells then some (.error cPOISON)
    else if !s.lineWritable asid a then none
    else some (.ok (s.writePa asid cells))
  else if isSp a && s.spRefused asid svc (cells.map (·.1)) then some (.error cREGION)
  else if s.spWriteRefused cells then some (.error cPOISON)
  else some (.ok (s.modMem (fun m => m.writeSp cells)))
/-- Cells cut into beats, one for each line they touch (R248), with the virtual address of each beat's first byte. -/
def beatsOf (cells : List (Nat × Nat × Byte)) : List Beat :=
  ((cells.map (fun c => lineOf c.2.1)).eraseDups).map (fun l =>
    let mine := cells.filter (fun c => lineOf c.2.1 == l)
    { va := (mine.headD (0, 0, 0)).1, cells := mine.map (·.2) })

/-! ### One chunk (R249) -/

/-- Mask word of a group of twelve and its kept positions, in a place map; none when a byte has no place. -/
def State.maskWord (s : State) (asid : BitVec 16) (place : Nat → Except (BitVec 8) Nat) (addr g : Nat) : Nat :=
  leNat ((List.range 2).map (fun k => match place (va52 ((addr + 2 * g + k : Nat) : Int)) with
    | .ok pl => s.placeByte asid pl
    | .error _ => 0))
/-- The group is well formed: N of twelve, and nothing beyond the operand's end (R128). -/
def groupOk (w n total g : Nat) : Bool :=
  sparseOk w n && (List.range 12).all (fun k => !(w.testBit k) || decide (12 * g + k < total))
/-- The source elements that destination element i reads. -/
def State.sourceElem (s : State) (asid : BitVec 16) (p : Plan) (place : Nat → Except (BitVec 8) Nat) (i : Nat) : Option Nat :=
  match p.sparse with
  | none => some i
  | some (addr, n) =>
    let w := s.maskWord asid place addr (i / 12)
    if groupOk w n p.n (i / 12) && w.testBit (i % 12) then
      some (i / 12 * n + ((sparseKept w).filter (fun k => decide (k < i % 12))).length)
    else none
/-- The source bytes of destination element i. -/
def State.sourceBytes (s : State) (asid : BitVec 16) (p : Plan) (place : Nat → Except (BitVec 8) Nat) (i : Nat) : List Nat :=
  (match p.sparse with | some (addr, _) => [va52 ((addr + 2 * (i / 12) : Nat) : Int), va52 ((addr + 2 * (i / 12) + 1 : Nat) : Int)] | none => []) ++
  (match p.src, s.sourceElem asid p place i with
    | some d, some k => d.all k
    | _, _ => [])
/-- Every address whose page a chunk may touch: destination, source, and the mask words. -/
def Plan.sourcePages (p : Plan) (lo hi : Nat) : List Nat :=
  match p.src with
  | none => []
  | some d =>
    match p.sparse with
    | none => (List.range (hi - lo)).flatMap (fun i => d.all (lo + i))
    | some (addr, n) =>
      (List.range (hi / 12 + 1 - lo / 12)).flatMap (fun g =>
        [va52 ((addr + 2 * (lo / 12 + g) : Nat) : Int), va52 ((addr + 2 * (lo / 12 + g) + 1 : Nat) : Int)] ++
        (List.range n).flatMap (fun k => d.all ((lo / 12 + g) * n + k)))
/-- The lowest of the addresses that have no place, with the cause. -/
def lowestFault (place : Nat → Except (BitVec 8) Nat) (as : List Nat) : Option (Nat × BitVec 8) :=
  as.foldl (fun best a => match place a with
    | .ok _ => best
    | .error c => match best with
      | some (b, _) => if a < b then some (a, c) else best
      | none => some (a, c)) none
/-- The first element from lo on that has a byte without a place: the address and the cause, destination first (R249). -/
def firstFault (wr rd : Nat → Except (BitVec 8) Nat) (dst src : Nat → List Nat) (lo : Nat) : Nat → Option (Nat × Nat × BitVec 8)
  | 0 => none
  | n + 1 =>
    match lowestFault wr (dst lo) with
    | some (a, c) => some (lo, a, c)
    | none => match lowestFault rd (src lo) with
      | some (a, c) => some (lo, a, c)
      | none => firstFault wr rd dst src (lo + 1) n
/-- The first address whose read is refused as it lands, of the elements in order: the element, the address, the cause. -/
def State.firstRefused (s : State) (asid : BitVec 16) (svc : Bool) (place : Nat → Except (BitVec 8) Nat) (src : Nat → List Nat)
    (lo : Nat) : Nat → Option (Nat × Nat × BitVec 8)
  | 0 => none
  | n + 1 =>
    match (src lo).findSome? (fun a => match place a with
        | .ok pl => (s.placeFault asid svc pl).map (fun c => (a, c))
        | .error _ => none) with
    | some (a, c) => some (lo, a, c)
    | none => s.firstRefused asid svc place src (lo + 1) n
/-- The code of element k of a side, from its bytes. -/
def Side.code (d : Side) (byte : Nat → Byte) (k : Nat) : Nat :=
  leNat ((d.bytes k).map byte) / 2 ^ (d.place k).2 % 2 ^ d.bits
/-- The value of an element of a side, and whether its code is subnormal (R113, R120, R121, R129, R133). -/
def Side.value (d : Side) (dt : List (BitVec 19)) (dm : Bool) (byte : Nat → Byte) (k : Nat) : FVal × Bool :=
  let c := d.code byte k
  if d.kind ≤ 4 then (unpack (fmtOf (d.kind - 1)) c, isSubnormal (fmtOf (d.kind - 1)) c)
  else
    let v := codeValue dt dm d.kind d.bits c
    (if d.blog = 0 then v else scaled v ((d.scale k).map byte |>.headD 0).toNat,
      d.kind == 5 && isSubnormal (fmtOf 3) (dtPattern dt dm c).toNat)
/-- Floating results with their flags and cases (R116, R132, R134). -/
def floatCodes (f : FFmt) (mode : Nat) (xs : List (FVal × Nat)) : Coded :=
  let rs := xs.map (fun p =>
    let (v, fl) := roundTo f mode p.2 p.1
    (v, fl, (if p.1.isNan then 1 else 0) + (if p.1.isInf then 2 else 0) + (if fl &&& fOF ≠ 0 then 4 else 0) +
      (if isSubnormal f v then 8 else 0)))
  { codes := rs.map (·.1), flags := rs.foldl (fun a r => a ||| r.2.1) 0, conv := rs.map (·.2.2) }
/-- The map of R134 with one more element. -/
def convNote (conv : Word) (i kind : Nat) : Word :=
  if kind = 0 then conv
  else if conv.extractLsb' 48 5 = 0 then BitVec.ofNat 64 (i % 2 ^ 48 + 2 ^ 48 * kind)
  else conv ||| BitVec.ofNat 64 (2 ^ 48 * kind)
/-- The map of R134 over a run of elements. -/
def convNotes (conv : Word) : List (Nat × Nat) → Word
  | [] => conv
  | (i, k) :: t => convNotes (convNote conv i k) t
/-- What converting a run of elements gave: cells by virtual address, the cases of R134, the generator. -/
structure Run where
  cells : List Host.Cell
  conv : List (Nat × Nat)
  rng : Word
/-- Codes of elements from lo on laid out on a side of one row (R120), with the scales of their blocks (R126): whole locations. -/
def Side.lay (d : Side) (lo : Nat) (codes scales : List Nat) : List Host.Cell :=
  let bytes := leBytes (codes.length * d.bits / 8) (streamOf d.bits codes)
  bytes.zipIdx.map (fun p => (va52 ((d.base + lo * d.bits / 8 + p.2 : Nat) : Int), p.1)) ++ (if d.blog = 0 then [] else
    scales.zipIdx.map (fun p => (va52 ((d.scales + lo / 2 ^ d.blog + p.2 : Nat) : Int), BitVec.ofNat 8 p.1)))
/-- The rounding mode of a converting copy (R259). -/
def Op.mode (o : Op) (lo : Nat) : Nat := if recFld o.record lo 3 = 5 then o.frm.toNat else recFld o.record lo 3
/-- The code of +0 in a kind, which a malformed group and a dropped element take (R128, R260). -/
def zeroCode (dt : List (BitVec 19)) (dm : Bool) (kind w : Nat) : Nat :=
  if kind ≤ 4 then 0 else (codeOne dt dm kind w 0 0 (.fin false 0 0)).1
/-- Elements [lo, lo + n) converted (R259, R260).
Between equal kinds and entries codes are copied unchanged, whether or not the operand is sparse, and the cases of R134 noted all the
same; a container's bits [31:19] are written as zero (R114). A scaled sparse operand has other blocks, and is encoded anew. -/
def State.convertRun (s : State) (o : Op) (p : Plan) (a : Side) (place : Nat → Except (BitVec 8) Nat) (lo n mode : Nat) : Run :=
  let byte (x : Nat) : Byte := match place x with | .ok pl => s.placeByte o.asid pl | .error _ => 0
  let d := p.dst
  let ix := (List.range n).map (lo + ·)
  let (rs, rng) := takeDraws (ix.map (fun _ => true)) o.rng
  let same := a.kind == d.kind && a.blog == d.blog && o.srcEntry == o.dstEntry && (p.sparse.isNone || d.blog == 0)
  let malformed (i : Nat) : Bool := match p.sparse with
    | some (addr, k) => !groupOk (s.maskWord o.asid place addr (i / 12)) k p.n (i / 12)
    | none => false
  let vs := ix.map (fun i => match s.sourceElem o.asid p place i with
    | some k => a.value o.dt o.dmode byte k
    | none => (FVal.fin false 0 0, false))
  let ofSource (v : FVal × Bool) (i : Nat) : Nat := (if v.2 then 8 else 0) ||| (if v.1.isNan then 1 else 0) ||| (if v.1.isInf then 2 else 0) |||
    (if malformed i then 16 else 0)
  if same then
    { cells := d.lay lo
        (ix.map (fun i => match s.sourceElem o.asid p place i with
          | some k => a.code byte k % 2 ^ (if d.kind = 4 then 19 else d.bits)
          | none => zeroCode o.dt o.dmode d.kind d.bits))
        (if d.blog = 0 then [] else (List.range (n / 2 ^ d.blog)).map (fun k => ((a.scale (lo + k * 2 ^ d.blog)).map byte |>.headD 0).toNat))
      conv := ((vs.zip ix).map (fun t => (t.2, ofSource t.1 t.2))).filter (fun t => decide (t.2 ≠ 0)), rng := rng }
  else
    let raw := vs.map (·.1)
    let xs := if ftSmen o.dstEntry then
        (smoothAll raw (ix.map (fun i => unpack (fmtOf 0) (leNat ((List.range 4).map (fun b =>
          byte (va52 ((ftSptr o.dstEntry + 4 * (i % ftSlen o.dstEntry) + b : Nat) : Int)))))))).1
      else raw
    let (q, scales) := if d.kind ≤ 4 then (floatCodes (fmtOf (d.kind - 1)) mode (xs.zip rs), [])
      else quantise o.dt o.dmode d.kind d.bits d.blog mode (xs.zip rs)
    let kinds := (q.conv.zip (vs.zip ix)).map (fun t => (t.2.2, t.1 ||| ofSource t.2.1 t.2.2))
    { cells := d.lay lo q.codes scales, conv := kinds.filter (fun t => decide (t.2 ≠ 0)), rng := rng }
/-- Locations [lo, lo + n) copied (R257): a source location that the copy has overwritten gives its old or its new value,
unpredictably (R224; log entry 13). -/
def State.rawRun (s : State) (o : Op) (p : Plan) (place : Nat → Except (BitVec 8) Nat) (lo n : Nat) : Run :=
  let byte (x : Nat) : Byte := match place x with | .ok pl => s.placeByte o.asid pl | .error _ => 0
  let pat := leBytes 8 (recWord o.record 5).toNat
  let cells := (List.range n).foldl (fun (acc : List Host.Cell) i =>
    let data := match p.src with
      | none => pat
      | some a => (a.bytes (lo + i)).map (fun x =>
          match (if Config.overlapReadsNew (s.sched.fresh + i) then acc.find? (fun c => c.1 == x) else none) with
          | some c => c.2
          | none => byte x)
    acc ++ (p.dst.bytes (lo + i)).zip data) []
  { cells := cells, conv := [], rng := o.rng }
/-- The rounding field of a copy's record. -/
def Op.rndAt (o : Op) : Nat := if o.form = .cpySp then 500 else 432
/-- Elements [lo, lo + n) carried out. -/
def State.carry (s : State) (o : Op) (p : Plan) (place : Nat → Except (BitVec 8) Nat) (lo n : Nat) : Run :=
  match p.src with
  | none => s.rawRun o p place lo n
  | some a => if a.kind = 0 then s.rawRun o p place lo n else s.convertRun o p a place lo n (o.mode o.rndAt)

/-- Bytes of its own banks that the issuing context stored before and that are not there yet (R222): a read of them waits. -/
def State.issuerStoring (s : State) (o : Op) (as : List Nat) : Bool :=
  (s.ctx o.key).pend.any (fun p => decide (p.id < o.seq) && p.cells.any (fun c => as.contains c.1))
/-- A fault found in the look-ahead: it suspends under RSM on a translated page, else it ends the operation; either comes
once the beats below it are performed (R249). -/
def Op.faulted (o : Op) (cause : BitVec 8) (a : Nat) : Op :=
  let resumes := hdrRsm o.record && (cause == cXLATE || cause == cPROT) && decide (regionOf a < 0xC)
  { o with status := if resumes then 0x08 else 0x10, cause := cause, word2 := BitVec.ofNat 64 a }
/-- A copy that has done with its elements is DONE or CONVERR (R242). -/
def Op.outcome (o : Op) : Op :=
  if o.conv = 0 then { o with status := 0x01, cause := 0, word2 := BitVec.ofNat 64 o.bytes }
  else { o with status := 0x02, cause := 0, word2 := o.conv }
/-- After a beat, a chunk or an answer: a copy whose beats are all performed suspends, or has its outcome (R249, R251). One that has been
cancelled does not suspend: its engine ends it (R240, R250). -/
def State.copySettled (s : State) (core slot : Nat) : State :=
  let o := s.op core slot
  if o.state ≠ .running ∨ o.beats ≠ [] ∨ o.unacked ≠ 0 then s
  else if o.status = 0x08 then (if o.cancel = 0 then s.suspendOp core slot o.cause o.word2 else s)
  else if o.status = 0 ∧ o.prog = o.plan.n then s.setOp core slot o.outcome
  else s
/-- Beats that are left when an operation stops are each performed or discarded, unpredictably (R249, R250; log entry 13). -/
def State.dropBeats (s : State) (core slot : Nat) : State :=
  let o := s.op core slot
  let s1 := o.beats.zipIdx.foldl (fun s b =>
    if Config.beatLands (s.sched.fresh + b.2) && o.dest.isNone then
      match s.placeWrite o.asid o.svc b.1.cells with
      | some (.ok t) => (t.countBytes core (t.op core slot) (t.op core slot).heldBytes false).modOp core slot (fun x =>
          { x with bytes := x.bytes + b.1.cells.length, heldBytes := b.1.cells.length })
      | _ => s
    else s) s
  (s1.refreshBy o.beats.length).modOp core slot (fun x => { x with beats := [] })
/-- Another copy of the cluster that waits has a higher PRI, eight run, and this one has the lowest (R248). -/
def State.copyPreempted (s : State) (core slot : Nat) : Bool :=
  let o := s.op core slot
  let cl := clusterOf core
  let mine := (s.ops.filter (fun p => clusterOf (p.1 / 128) == cl && p.2.form.cls == 0))
  let run := mine.filter (fun p => decide (p.2.state = .running))
  decide (8 ≤ run.length) && run.all (fun p => decide (o.pri ≤ p.2.pri)) &&
  mine.any (fun p => decide (p.2.state = .queued) && decide (o.pri < p.2.pri) && !s.selectionHeld (p.1 / 128))
/-- The chunk of a copy taken up: translated ahead, read and cut into beats, up to any fault (R249). -/
def State.takeChunk (s : State) (core slot : Nat) (o : Op) (p : Plan) : State :=
  let lo := o.prog
  let hi := p.dst.chunkEnd p.n lo
  let far := o.dest.isSome
  let dstAddrs := (List.range (hi - lo)).flatMap (fun i => p.dst.all (lo + i))
  let srcAddrs := p.sourcePages lo hi
  let cl := clusterOf core
  let (s1, wp) := if far then (s, []) else s.pages cl o.asid o.svc .wr (pagesIn dstAddrs)
  let (s2, rp) := s1.pages cl o.asid o.svc .rd (pagesIn srcAddrs)
  let wr (a : Nat) : Except (BitVec 8) Nat :=
    if far then (match o.look.find? (fun q => q.1 == a / 65536) with
      | some (_, some c) => if c = 0 then .ok a else .error c
      | _ => .ok a)
    else s2.placed o.asid o.svc wp a
  let rd (a : Nat) : Except (BitVec 8) Nat := s2.placed o.asid o.svc rp a
  let src (i : Nat) : List Nat := s2.sourceBytes o.asid p rd i
  let fault := firstFault wr rd (fun i => p.dst.all i) src lo (hi - lo)
  let f := match fault with | some (i, _, _) => Nat.max lo (p.dst.faultEnd i) | none => hi
  let div (i : Nat) : List Nat := if ftSmen o.dstEntry then runAt (ftSptr o.dstEntry + 4 * (i % ftSlen o.dstEntry)) 4 else []
  let reads (i : Nat) : List Nat := src i ++ div i
  let busy := (List.range (f - lo)).any (fun i => (reads (lo + i)).any (fun a => match rd a with
    | .ok pl => s2.placeBusy o.asid pl
    | .error _ => false))
  if busy || s2.issuerStoring o (srcAddrs ++ (List.range (f - lo)).flatMap (fun i => div (lo + i))) then s
  else
    let refused := s2.firstRefused o.asid o.svc rd reads lo (f - lo)
    let f2 := match refused with | some (i, _, _) => Nat.max lo (p.dst.faultEnd i) | none => f
    let r := s2.carry o p rd lo (f2 - lo)
    let cells := r.cells.map (fun c => (c.1, (match wr c.1 with | .ok pl => pl | .error _ => c.1), c.2))
    let o1 := { o with prog := f2, rng := r.rng, conv := convNotes o.conv r.conv, beats := beatsOf cells, look := [] }
    let s3 := s2.refreshBy (f2 - lo)
    match refused with
    | some (_, a, c) => ((s3.setOp core slot o1).dropBeats core slot).decideOp core slot 0x10 c (BitVec.ofNat 64 a)
    | none => match fault with
      | some (_, a, c) => (s3.setOp core slot (o1.faulted c a)).copySettled core slot
      | none => (s3.setOp core slot o1).copySettled core slot
/-- The destination of a CPY.R to another package asked ahead, page by page (R261). -/
def State.lookAhead (s : State) (core slot : Nat) (o : Op) (p : Plan) (entry phys : Nat) : State :=
  let lo := o.prog
  let hi := p.dst.chunkEnd p.n lo
  let pages := (((List.range (hi - lo)).flatMap (fun i => p.dst.bytes (lo + i))).map (· / 65536)).eraseDups
  let s1 := s.setOp core slot { o with dest := some phys, look := pages.map (fun a => (a, none)), unacked := pages.length }
  pages.foldl (fun s a => s.fabSend o.asid entry false (some phys) 0 0 (.beat core slot (a * 65536) [])) s1
/-- COPY_CHUNK (R249). -/
def execCopyChunk (core slot : Nat) (s : State) : Out :=
  let o := s.op core slot
  if o.state ≠ .running ∨ o.form.isCopy = false ∨ o.status ≠ 0 ∨ o.beats ≠ [] ∨ o.unacked ≠ 0 ∨ o.cancel ≠ 0 then .next s
  else if s.selectionHeld core ∧ o.look = [] then
    .next ((s.leaveLanes core slot).setOp core slot { o with state := .suspended, cause := 0, inbox := false })
  else if o.form.cls = 0 ∧ o.look = [] ∧ s.copyPreempted core slot = true then .next (s.queueOp core slot o)
  else
    let p := o.plan
    match s.farDest o with
    | .unbound => .next (s.setOp core slot { o with bar := false, status := 0x10, cause := cXLATE, word2 := BitVec.ofNat 64 p.dst.base })
    | .far entry phys =>
      if o.look = [] then .next (s.lookAhead core slot o p entry phys)
      else if o.look.any (fun q => q.2 == some cBARBAD) then
        .next (s.setOp core slot { o with bar := false, status := 0x10, cause := cBARBAD, word2 := BitVec.ofNat 64 p.dst.base, look := [] })
      else .next (s.takeChunk core slot o p)
    | .own =>
      if o.form = .cpyR ∧ o.bar = true ∧ s.barRefused o.key (recWord o.record 1) = true then
        .next (s.setOp core slot { o with bar := false, status := 0x10, cause := cBARBAD, word2 := BitVec.ofNat 64 p.dst.base })
      else .next (s.takeChunk core slot o p)

/-! ### Beats (R248, R251) -/

/-- The engine that runs a copy: a cluster's, or an engine's transfer lane. -/
def Op.beatUnit (core : Nat) (o : Op) : Nat := if o.form.cls = 0 then clusterOf core else 256 + o.unit.toNat
/-- The next beat of the unit is this operation's (R248): the highest PRI with a beat ready, round robin among equals, and
before all one that has had none for 4,096 cycles. -/
def State.beatTurn (s : State) (core slot : Nat) : Bool :=
  let o := s.op core slot
  let others := s.ops.filter (fun p => decide (p.2.state = .running) && p.2.form.isCopy && decide (p.2.beats ≠ []) &&
    Op.beatUnit (p.1 / 128) p.2 == o.beatUnit core && p.1 != core * 128 + slot)
  let starved (x : Op) : Bool := decide (x.lastBeat + 4096 ≤ s.now)
  starved o || others.all (fun p => !starved p.2 && (decide (p.2.pri < o.pri) || (p.2.pri == o.pri && decide (o.lastBeat ≤ p.2.lastBeat))))
/-- The count of a performed beat: the one held back before it is sent to the barrier, and this one held (R251). -/
def State.beatDone (s : State) (core slot n : Nat) : State :=
  let o := s.op core slot
  (s.countBytes core o o.heldBytes false).modOp core slot (fun x =>
    { x with bytes := x.bytes + n, heldBytes := n, lastBeat := s.now })
/-- COPY_BEAT (R248 to R251): a beat is performed, or sent to the other package. -/
def execCopyBeat (core slot n : Nat) (s : State) : Out :=
  let o := s.op core slot
  match o.beats[n]? with
  | none => .next s
  | some b =>
    if o.state ≠ .running ∨ o.cancel ≠ 0 ∨ s.beatTurn core slot = false then .next s
    else
      let o1 := { o with beats := o.beats.eraseIdx n }
      match s.farDest o with
      | .far entry phys =>
        .next ((s.setOp core slot { o1 with unacked := o.unacked + 1, lastBeat := s.now }).fabSend o.asid entry false (some phys) 0 0
          (.beat core slot b.va b.cells))
      | _ =>
        match s.placeWrite o.asid o.svc b.cells with
        | none => .next s
        | some (.error c) => .next ((s.dropBeats core slot).decideOp core slot 0x10 c (BitVec.ofNat 64 b.va))
        | some (.ok t) => .next (((t.setOp core slot o1).beatDone core slot b.cells.length).copySettled core slot)
/-- A copy begins to run: one to another package binds that package now (R330), or faults where its index is bound to none (R261). -/
def State.startCopy (s : State) (k : Nat) (o : Op) : State :=
  let o1 := { o with state := .running, lastBeat := s.now }
  s.setOp (k / 128) (k % 128) (match s.farDest o with
    | .far _ phys => { o1 with dest := some phys }
    | .unbound => { o1 with bar := false, status := 0x10, cause := cXLATE, word2 := BitVec.ofNat 64 o.plan.dst.base }
    | .own => o1)
/-- COPY_SCHEDULE (R248): a free running place goes to the QUEUED copy of highest PRI, then earliest issue. -/
def execCopySchedule (cluster : Nat) (s : State) : Out :=
  let mine := s.ops.filter (fun p => clusterOf (p.1 / 128) == cluster && p.2.form.cls == 0)
  let ready := mine.filter (fun p => decide (p.2.state = .queued) && !s.selectionHeld (p.1 / 128))
  let top := maxOf (ready.map (fun p => p.2.pri))
  let best := ready.filter (fun p => p.2.pri == top)
  if 8 ≤ (mine.filter (fun p => decide (p.2.state = .running))).length then .next s
  else match best.find? (fun p => best.all (fun q => decide (p.2.seq ≤ q.2.seq))) with
    | some (k, o) => .next (s.startCopy k o)
    | none => .next s

end Sys2Proof.Machine
end

