-- ==== Sys2Proof/Machine/Optic.lean ====
section
/-!
DEFINITION. The optics of a deck slice (R263): phases, interferometers, meshes and image weights; and the limits that the spec sets to
what Herringbone (R272) and a deck (R280) give. Sines and cosines are held to within 2^-100 (log entry 50).
-/
namespace Sys2Proof.Machine

/-! ### Free values with a limit -/

/-- The first number below n that meets a condition. -/
def firstBelow (ok : Nat → Bool) : Nat → Option Nat
  | 0 => none
  | n + 1 => match firstBelow ok n with
    | some x => some x
    | none => if ok n then some n else none
/-- A free number that keeps to a condition wherever some number below n meets it. -/
def freeWithin (ok : Nat → Bool) (n free : Nat) : Nat := if ok free then free else (firstBelow ok n).getD free

/-! ### Phases and interferometers (R263) -/

/-- π. -/
def piApprox : Rat := 314159265358979323846264338327950288420 / 10 ^ 38
/-- Terms of the series of a sine or a cosine from the term t of order k on. -/
def series (sq : Rat) : Nat → Nat → Rat → Rat
  | 0, _, _ => 0
  | n + 1, k, t => t + series sq n (k + 2) (-(t * sq) / (((k + 1) * (k + 2) : Nat) : Rat))
/-- A field component, or an entry of a transfer matrix. -/
structure Field where
  re : Rat
  im : Rat
  deriving DecidableEq, Repr
/-- A product. -/
def Field.mul (x y : Field) : Field := { re := x.re * y.re - x.im * y.im, im := x.re * y.im + x.im * y.re }
/-- A sum. -/
def Field.add (x y : Field) : Field := { re := x.re + y.re, im := x.im + y.im }
/-- A real multiple. -/
def Field.times (x : Field) (r : Rat) : Field := { re := x.re * r, im := x.im * r }
/-- e^{i π n / 65,536}. -/
def turn (n : Nat) : Field :=
  let x : Rat := piApprox * (n : Rat) / 65536
  { re := series (x * x) 45 0 1, im := series (x * x) 45 1 x }
/-- The phase factor of a code: its phase is c × 2π / 65,536. -/
def phaseOf (c : Nat) : Field := turn (2 * c)
/-- The amplitude of an attenuator. -/
def amplitudeOf (c : Nat) : Rat := (turn c).re
/-- The lower modes of the interferometers of a mesh, in their numbering (Clements, 64 columns). -/
def meshModes : List Nat :=
  (List.range 64).flatMap (fun col => if col % 2 = 0 then (List.range 32).map (2 * ·) else (List.range 31).map (2 * · + 1))
/-- Interferometer k on modes p and p + 1, with θ from code 2k and φ from code 2k + 1 of its mesh. -/
def passMzi (codes : Nat → Nat) (light : List Field) (p k : Nat) : List Field :=
  let half := turn (codes (2 * k))
  let common : Field := Field.mul { re := 0, im := 1 } half
  let x := (light.getD p ⟨0, 0⟩).mul (phaseOf (codes (2 * k + 1)))
  let y := light.getD (p + 1) ⟨0, 0⟩
  (light.set p (common.mul ((x.times half.im).add (y.times half.re)))).set (p + 1)
    (common.mul ((x.times half.re).add (y.times (-half.im))))
/-- Light through a mesh. -/
def passMesh (codes : Nat → Nat) (light : List Field) : List Field :=
  meshModes.zipIdx.foldl (fun v q => passMzi codes v q.1 q.2) light
/-- Light through a slice of 8,192 codes in the order of the table: M_V, D, A, M_U. -/
def passSlice (codes : Nat → Nat) (light : List Field) : List Field :=
  let screened := (passMesh codes light).zipIdx.map (fun q => (q.1.mul (phaseOf (codes (4032 + q.2)))).times (amplitudeOf (codes (4096 + q.2))))
  passMesh (fun n => codes (4160 + n)) screened
/-- Column k of M_U · A · D · M_V. -/
def sliceColumn (codes : Nat → Nat) (k : Nat) : List Field :=
  passSlice codes ((List.range 64).map (fun m => if m = k then ⟨1, 0⟩ else ⟨0, 0⟩))
/-- The image weight of output i and input k of a slice with its Σ scale. -/
def imageWeight (codes : Nat → Nat) (scale : Rat) (i k : Nat) : Rat := scale * ((sliceColumn codes k).getD i ⟨0, 0⟩).re

/-! ### Values as numbers -/

/-- A magnitude. -/
def magOf (x : Rat) : Rat := if x < 0 then -x else x
/-- 2 to a power. -/
def twoTo (e : Int) : Rat := if 0 ≤ e then ((2 ^ e.toNat : Nat) : Rat) else 1 / ((2 ^ (-e).toNat : Nat) : Rat)
/-- A finite value as a number; none for a NaN or an infinity. -/
def FVal.toRat : FVal → Option Rat
  | .fin neg m e => some ((if neg then -(m : Rat) else (m : Rat)) * twoTo e)
  | _ => none
/-- The number that an FP32 pattern stands for, 0 for a NaN or an infinity. -/
def ratOf32 (x : Nat) : Rat := ((unpack (fmtOf 0) x).toRat).getD 0
/-- What the sines and cosines may be off by, as a share of the light. -/
def opticSlack : Rat := 1 / 2 ^ 60
/-- A sum. -/
def ratSum (xs : List Rat) : Rat := xs.foldl (· + ·) 0

/-! ### Herringbone's limits (R272) -/

/-- A symmetric matrix, by its rows, is positive: definite, or semidefinite. One row is eliminated at a time. -/
def isPositive (definite : Bool) : Nat → List (List Rat) → Bool
  | 0, _ => true
  | n + 1, rows =>
    match rows with
    | [] => true
    | row :: rest =>
      let p := row.headD 0
      let tails := rest.map (·.tail)
      if p < 0 then false
      else if p = 0 then !definite && row.all (fun x => decide (x = 0)) && isPositive definite n tails
      else isPositive definite n (rest.map (fun r => r.tail.zipWith (fun a b => a - r.headD 0 / p * b) row.tail))
/-- s² I − XᵀX, for a 64 × 64 block X by rows. -/
def gramGap (xs : List Rat) (s : Rat) : List (List Rat) :=
  let x (i k : Nat) : Rat := xs.getD (64 * i + k) 0
  (List.range 64).map (fun a => (List.range 64).map (fun b =>
    (if a = b then s * s else 0) - ratSum ((List.range 64).map (fun i => x i a * x i b))))
/-- σ ≤ s ≤ σ (1 + 2^-20), for the largest singular value σ of the block: s² I − XᵀX is semidefinite from σ on, and definite only
above it. -/
def scaleKeeps (xs : List Rat) (s : Rat) : Bool :=
  decide (0 ≤ s) && isPositive false 64 (gramGap xs s) && !isPositive true 64 (gramGap xs (s * 2 ^ 20 / (2 ^ 20 + 1)))
/-- Every image weight is within 2^-12 × s of its source weight. -/
def codesKeep (xs : List Rat) (s : Rat) (codes : Nat → Nat) : Bool :=
  (List.range 64).all (fun k =>
    let column := sliceColumn codes k
    (List.range 64).all (fun i =>
      decide (magOf (s * (column.getD i ⟨0, 0⟩).re - xs.getD (64 * i + k) 0) ≤ s * (1 / 2 ^ 12 + opticSlack))))

/-! ### The limit of a sum (R280) -/

/-- |S − y| ≤ 2^-EBC × FS, for the weights and inputs of an output, slice after slice; `scales` are the slices' Σ scales. -/
def sumKeeps (ebc : Nat) (scales ws xs : List Rat) (S : Nat) : Bool :=
  match (unpack (fmtOf 0) S).toRat with
  | none => false
  | some v =>
    let y := ratSum (ws.zipWith (· * ·) xs)
    let top := xs.foldl (fun a x => if a < magOf x then magOf x else a) 0
    let full := ratSum (ws.map magOf) * top
    decide (magOf (v - y) ≤ full / 2 ^ ebc + ratSum (scales.map magOf) * 64 * top * opticSlack)
/-- The input that bit k of the W planes of a line codes, in units of the vector's scale (R120, R264): unsigned, signed or ±1. -/
def inputCode (kind W : Nat) (planes : Nat → Nat) (k : Nat) : Int :=
  let u := (List.range W).foldl (fun (a : Nat) b => a + planes b / 2 ^ k % 2 * 2 ^ b) 0
  if kind = 2 then (if u = 0 then -1 else 1)
  else if kind = 1 ∧ 2 ^ (W - 1) ≤ u then (u : Int) - ((2 ^ W : Nat) : Int) else (u : Int)

end Sys2Proof.Machine
end

