-- ==== Sys2Proof/Machine/Mat.lean ====
section
/-!
DEFINITION. The matrix engines and the MAT group (R262 to R303): issue, the inboxes and lanes, the deck map, the arithmetic
of a pass, resident images and banks, the TCOPY forms, migration, and what stops a command.
-/
namespace Sys2Proof.Machine

/-! ### Records (R284, R285) -/

/-- The address lies in the tile store's window (R266). -/
def isTile (a : Nat) : Bool := regionOf a == 0xE
/-- The slice of a tile-store address (R266). -/
def tileSlice (a : Nat) : Nat := a / 2 ^ 42 % 4
/-- The byte offset in a slice (R285). -/
def tileOff (a : Nat) : Nat := a % 2 ^ 23
/-- A tile-store address from its fields (R266). -/
def tileAddr (engine slice off : Nat) : Nat := 0xE * 2 ^ 48 + engine * 2 ^ 44 + slice * 2 ^ 42 + off
/-- A run of a record breaks R266 or R285: no tile-store address, bits [41:23] set, or an end above tile 503. -/
def runBad (a len : Nat) : Bool :=
  !isTile a || decide (a / 2 ^ 23 % 2 ^ 19 ≠ 0) || decide (0x7E0000 < tileOff a + len)
/-- The engine is not allotted to the issuer's job (R284). Service level is not checked (log entry 10). -/
def State.engineRefused (s : State) (e : Nat) : Bool :=
  match s.jobOn s.myCore with
  | some j => !(decide (e < 16) && (j.word 2).getLsbD e)
  | none => !s.svc s.sched.cur
/-- Tile-store addresses of one record name one engine, and it is allotted. -/
def State.enginesBad (s : State) (as : List Nat) : Bool :=
  as.any (fun a => tileEngine a != tileEngine (as.headD 0) || s.engineRefused (tileEngine a))
/-- The unit of a MAT operation (R286). -/
def unitEngine (a : Nat) : BitVec 12 := BitVec.ofNat 12 (tileEngine a)

/-! ### MMX and MMX.A at issue (R299) -/

/-- ACC. -/
def mmAcc (r : BitVec 512) : Nat := recFld r 320 52
/-- SCL. -/
def mmScl (r : BitVec 512) : Nat := recFld r 384 52
/-- The number of vectors. -/
def mmVecs (r : BitVec 512) : Nat := recFld r 480 12 + 1
/-- W. -/
def mmW (r : BitVec 512) : Nat := recFld r 492 4
/-- The body of MMX breaks its map. -/
def mmxBad (s : State) (r : BitVec 512) : Bool :=
  let n := mmVecs r
  let w := mmW r
  runBad (mmPln r) (64 * n) || decide (tileSlice (mmPln r) ≠ 0) || decide (mmPln r % 64 ≠ 0) ||
  runBad (mmAcc r) (256 * n) || decide (mmAcc r % 256 ≠ 0) || runBad (mmScl r) n ||
  decide (recFld r 436 12 ≠ 0) || decide (recFld r 506 6 ≠ 0) ||
  (match recFld r 496 2 with
    | 0 => decide (w < 1) || decide (8 < w)
    | 1 => decide (w < 2) || decide (8 < w)
    | 2 => decide (w ≠ 1)
    | _ => true) ||
  s.enginesBad [mmPln r, mmAcc r, mmScl r]
/-- MMX and MMX.A (R300). -/
def rulesMmx (f : Form) : FormRules :=
  { form := f, bad := mmxBad, check := fun _ _ => .ok [], unit := fun _ r => unitEngine (mmPln r), entries := noEntries }

/-! ### TCOPY, TCOPY.BP and TCOPY.ACC at issue (R287 to R290) -/

/-- The tile-store addresses among some. -/
def tilesOf (as : List Nat) : List Nat := as.filter isTile
/-- The body of TCOPY (R287). -/
def tcopyBad (s : State) (r : BitVec 512) : Bool :=
  let ts := tilesOf [recFld r 256 52, recFld r 320 52]
  cpyBad r || ts.isEmpty || ts.any (fun a => runBad a 8) || s.enginesBad ts
/-- TCOPY (R287). -/
def rulesTcopy : FormRules :=
  { form := .tcopy, bad := tcopyBad, check := rawCheck .tcopy false
    unit := fun _ r => unitEngine ((tilesOf [recFld r 256 52, recFld r 320 52]).headD 0), entries := noEntries }
/-- Bytes of a container of a float kind (R46). -/
def contBytes (kind : Nat) : Nat := if kind = 2 ∨ kind = 3 then 2 else 4
/-- SRC of TCOPY.BP and its rows of 256 elements (R288). -/
def bpSide (r : BitVec 512) : Side :=
  let p := recWord r 4
  { kind := tagKind p, bits := 8 * contBytes (tagKind p), base := tagVa p, perRow := 256, stride := recInt r 448 32, blog := 0, scales := 0 }
/-- PLN of TCOPY.BP (R288). -/
def bpPln (r : BitVec 512) : Nat := recFld r 320 52
/-- SCL of TCOPY.BP (R288). -/
def bpScl (r : BitVec 512) : Nat := recFld r 384 52
/-- A tag of EKIND 1 to 4, FMTIX 0, BLOG 0. -/
def plainTag (p : Word) : Bool := decide (1 ≤ tagKind p) && decide (tagKind p ≤ 4) && decide (tagFmt p = 0) && decide (tagBlog p = 0)
/-- The body of TCOPY.BP (R288). -/
def bpBad (s : State) (r : BitVec 512) : Bool :=
  let n := recFld r 480 12 + 1
  let c := contBytes (tagKind (recWord r 4))
  decide (tagVa (recWord r 4) % c ≠ 0) || decide (recFld r 448 32 % c ≠ 0) ||
  runBad (bpPln r) (64 * n) || decide (tileSlice (bpPln r) ≠ 0) || decide (bpPln r % 64 ≠ 0) || runBad (bpScl r) n ||
  decide (recFld r 436 12 ≠ 0) || decide (recFld r 492 4 = 0) || decide (5 < recFld r 496 3) || decide (recFld r 499 13 ≠ 0) ||
  (tilesOf [tagVa (recWord r 4)]).any (fun a => runBad a c) ||
  s.enginesBad (bpPln r :: bpScl r :: tilesOf [tagVa (recWord r 4)])
/-- The entry that TCOPY.BP names (R288). -/
def bpEntries (c : Core) (r : BitVec 512) : BitVec 256 × BitVec 256 := (0, c.ftEntry (recFld r 492 4))
/-- The checks of TCOPY.BP (R284, R288). -/
def bpCheck (s : State) (r : BitVec 512) : Except (BitVec 8 × Word) (List (Nat × Nat)) :=
  let e := (s.core s.myCore).ftEntry (recFld r 492 4)
  let d := bpSide r
  match hollow [d.base] with
  | .error x => .error x
  | .ok () =>
    match s.ownRanges s.sched.cur (d.ranges (256 * (recFld r 480 12 + 1)) ++ divisorRange e 256) with
    | .error x => .error x
    | .ok rs =>
      if !plainTag (recWord r 4) || !ftValid e || decide (ftKind e < 6) || decide (8 < ftKind e) then .error (cFMT, recWord r 4)
      else .ok rs
/-- TCOPY.BP (R288). -/
def rulesTcopyBp : FormRules :=
  { form := .tcopyBp, bad := bpBad, check := bpCheck, unit := fun _ r => unitEngine (bpPln r), entries := bpEntries }
/-- SRC of TCOPY.ACC (R290). -/
def accSrc (r : BitVec 512) : Nat := recFld r 256 52
/-- DST of TCOPY.ACC and its rows of 64 elements (R290). -/
def accSide (r : BitVec 512) : Side :=
  let p := recWord r 5
  { kind := tagKind p, bits := 8 * contBytes (tagKind p), base := tagVa p, perRow := 64, stride := recInt r 384 32, blog := 0, scales := 0 }
/-- The number of rows of TCOPY.ACC (R290). -/
def accRows (r : BitVec 512) : Nat := recFld r 416 16 + 1
/-- The body of TCOPY.ACC (R290). -/
def accBad (s : State) (r : BitVec 512) : Bool :=
  runBad (accSrc r) (256 * accRows r) || decide (accSrc r % 256 ≠ 0) || decide (tagVa (recWord r 5) % 8 ≠ 0) ||
  decide (recFld r 384 32 % 8 ≠ 0) || decide (5 < recFld r 432 3) || decide (recFld r 435 77 ≠ 0) || s.enginesBad [accSrc r]
/-- The checks of TCOPY.ACC (R284, R290). -/
def accCheck (s : State) (r : BitVec 512) : Except (BitVec 8 × Word) (List (Nat × Nat)) :=
  let d := accSide r
  if isTile d.base then .error (cENGBAD, 0)
  else match hollow [d.base] with
  | .error x => .error x
  | .ok () =>
    match s.ownRanges s.sched.cur (d.ranges (64 * accRows r)) with
    | .error x => .error x
    | .ok rs => if plainTag (recWord r 5) then .ok rs else .error (cFMT, recWord r 5)
/-- TCOPY.ACC (R290). -/
def rulesTcopyAcc : FormRules :=
  { form := .tcopyAcc, bad := accBad, check := accCheck, unit := fun _ r => unitEngine (accSrc r), entries := noEntries }

/-! ### PH forms at issue (R291 to R296) -/

/-- TAG of a PH record (R291). -/
def phTag (r : BitVec 512) : BitVec 32 := r.extractLsb' 320 32
/-- ENG (R291). -/
def phEng (r : BitVec 512) : Nat := recFld r 352 4
/-- BANK (R291). -/
def phBank (r : BitVec 512) : Bool := r.getLsbD 356
/-- FMTIX (R291). -/
def phFmt (r : BitVec 512) : Nat := recFld r 357 4
/-- Σ scale j of PHLD (R292). -/
def phScale (r : BitVec 512) (j : Nat) : BitVec 32 := r.extractLsb' (384 + 32 * j) 32
/-- IMG or SRC (R292, R293). -/
def phAddr (r : BitVec 512) : Nat := recFld r 256 52
/-- An FP32 pattern that is a NaN or infinite. -/
def nonFinite (x : BitVec 32) : Bool := (unpack (fmtOf 0) x.toNat).isNan || (unpack (fmtOf 0) x.toNat).isInf
/-- The body of a PH form (R291 to R296). -/
def phBad (f : Form) (s : State) (r : BitVec 512) : Bool :=
  decide (recFld r 361 23 ≠ 0) || s.engineRefused (phEng r) ||
  (match f with
    | .phld => decide (phTag r = 0) || decide (phFmt r ≠ 0) || decide (phAddr r % 64 ≠ 0) ||
        (List.range 4).any (fun j => nonFinite (phScale r j))
    | .phdec => decide (phTag r = 0) || decide (phAddr r % 4 ≠ 0) || decide (recFld r 384 32 % 4 ≠ 0) || decide (recFld r 416 96 ≠ 0)
    | f => (decide (phTag r = 0) && decide (f ≠ .phswp)) || phBank r || decide (phFmt r ≠ 0) ||
        decide (recWord r 4 ≠ 0) || decide (recWord r 6 ≠ 0) || decide (recWord r 7 ≠ 0))
/-- Bytes that PHLD or PHDEC reads from its address. -/
def phSpan (f : Form) (r : BitVec 512) : Nat := if f = .phld then 65536 else 63 * recFld r 384 32 + 1024
/-- The entry that PHDEC names (R293). -/
def phEntries (c : Core) (r : BitVec 512) : BitVec 256 × BitVec 256 := (0, if phFmt r = 0 then 0 else c.ftEntry (phFmt r))
/-- The checks of PHLD and PHDEC (R284, R292, R293). -/
def phCheck (f : Form) (s : State) (r : BitVec 512) : Except (BitVec 8 × Word) (List (Nat × Nat)) :=
  let a := phAddr r
  let e := (phEntries (s.core s.myCore) r).2
  match f with
  | .phld | .phdec =>
    if isTile a then .error (cENGBAD, 0)
    else match hollow [a] with
    | .error x => .error x
    | .ok () =>
      match s.ownRanges s.sched.cur ([(a, (a : Int), ((a + phSpan f r : Nat) : Int))] ++ divisorRange e 256) with
      | .error x => .error x
      | .ok rs => if f = .phdec ∧ phFmt r ≠ 0 ∧ ftValid e = false then .error (cFMT, 0) else .ok rs
  | _ => .ok []
/-- A PH form (R291). -/
def rulesPh (f : Form) : FormRules :=
  { form := f, bad := phBad f, check := phCheck f, unit := fun _ r => BitVec.ofNat 12 (phEng r)
    entries := fun c r => if f = .phdec then phEntries c r else (0, 0) }

/-- MMX (R300). -/
def execMmx (d a b : Reg) (x : BitVec 1) (p : BitVec 2) (n k : BitVec 1) (s : State) : Out := issueOp (rulesMmx .mmx) d a b x p n k s
/-- MMX.A (R300). -/
def execMmxA (d a b : Reg) (x : BitVec 1) (p : BitVec 2) (n k : BitVec 1) (s : State) : Out := issueOp (rulesMmx .mmxA) d a b x p n k s
/-- PHLD (R292). -/
def execPhld (d a b : Reg) (x : BitVec 1) (p : BitVec 2) (n k : BitVec 1) (s : State) : Out := issueOp (rulesPh .phld) d a b x p n k s
/-- PHDEC (R293). -/
def execPhdec (d a b : Reg) (x : BitVec 1) (p : BitVec 2) (n k : BitVec 1) (s : State) : Out := issueOp (rulesPh .phdec) d a b x p n k s
/-- PHSWP (R295). -/
def execPhswp (d a b : Reg) (x : BitVec 1) (p : BitVec 2) (n k : BitVec 1) (s : State) : Out := issueOp (rulesPh .phswp) d a b x p n k s
/-- PHRES (R294). -/
def execPhres (d a b : Reg) (x : BitVec 1) (p : BitVec 2) (n k : BitVec 1) (s : State) : Out := issueOp (rulesPh .phres) d a b x p n k s
/-- PHDROP (R296). -/
def execPhdrop (d a b : Reg) (x : BitVec 1) (p : BitVec 2) (n k : BitVec 1) (s : State) : Out := issueOp (rulesPh .phdrop) d a b x p n k s
/-- TCOPY (R287). -/
def execTcopy (d a b : Reg) (x : BitVec 1) (p : BitVec 2) (n k : BitVec 1) (s : State) : Out := issueOp rulesTcopy d a b x p n k s
/-- TCOPY.BP (R289). -/
def execTcopyBp (d a b : Reg) (x : BitVec 1) (p : BitVec 2) (n k : BitVec 1) (s : State) : Out := issueOp rulesTcopyBp d a b x p n k s
/-- TCOPY.ACC (R290). -/
def execTcopyAcc (d a b : Reg) (x : BitVec 1) (p : BitVec 2) (n k : BitVec 1) (s : State) : Out := issueOp rulesTcopyAcc d a b x p n k s

/-! ### Resident images and banks (R263, R268, R269) -/

/-- The entry's image scales. -/
def Resent.scales (r : Resent) : List (BitVec 32) := [r.s0, r.s1, r.s2, r.s3]
/-- The entry that a new image takes (R269). Of several with the same least SWAPSEQ it takes the lowest-numbered: the spec names none (log
entry 51). -/
def Engine.newEntry (e : Engine) (front : Nat) : Nat :=
  match (List.range 8).find? (fun k => !(e.entry k).valid) with
  | some k => k
  | none =>
    let ks := (List.range 8).filter (fun k => k != front)
    (ks.find? (fun k => ks.all (fun i => decide ((e.entry k).swapSeq.toNat ≤ (e.entry i).swapSeq.toNat)))).getD 0
/-- The entry that PHLD or PHDEC takes (R292). -/
def Engine.loadEntry (e : Engine) (fresh : Nat) (tag : BitVec 32) (asid : BitVec 16) : Nat :=
  (pickEntry fresh ((e.matching tag asid).filter (fun k => k != e.frontIx.toNat))).getD (e.newEntry e.frontIx.toNat)
/-- An entry set; a back image whose entry it was has been replaced (R269). -/
def Engine.putEntry (e : Engine) (k : Nat) (r : Resent) : Engine :=
  { e with resent := tabSet e.resent k r, backStale := e.backStale || (e.backV && decide (e.backIx.toNat = k)) }
/-- Code c of slice j of entry k, in the tile store (R269). -/
def State.entryCode (s : State) (e k j c : Nat) : BitVec 16 :=
  BitVec.ofNat 16 (leNat (memBytes s.mem.cells (tileAddr e j ((504 + k) * 16384 + 2 * c)) 2))
/-- Cells of the codes of a slice in entry k. -/
def entryCells (e k j : Nat) (codes : List (BitVec 16)) : List Host.Cell :=
  cellsAt (tileAddr e j ((504 + k) * 16384)) (codes.flatMap (fun c => leBytes 2 c.toNat))
/-- An image placed in entry k: codes of the four slices, and the entry's register. -/
def State.placeImage (s : State) (e k : Nat) (codes : Nat → List (BitVec 16)) (r : Resent) : State :=
  (s.modMem (fun m => (List.range 4).foldl (fun m j => m.writeSp (entryCells e k j (codes j))) m)).modEngine e (fun x => x.putEntry k r)
/-- The first code of a physical bank in the table of codes. -/
def bankBase (deck bank : Nat) : Nat := deck * 16384 + bank * 8192
/-- A bank's codes put into the table of codes, zero codes unlisted. -/
def putCodes (t : Tab (BitVec 16)) (base : Nat) (codes : List (BitVec 16)) : Tab (BitVec 16) :=
  t.filter (fun p => decide (p.1 < base)) ++
  ((codes.zipIdx.filter (fun p => p.1 != 0)).map (fun p => (base + p.2, p.1))) ++
  t.filter (fun p => decide (base + 8192 ≤ p.1))
/-- The physical bank that is an engine's front or back one. -/
def State.bankNo (s : State) (e : Nat) (back : Bool) : Nat :=
  if (tabGet s.photonic.front e false) == back then 0 else 1
/-- Codes of a bank of a deck. -/
def State.bankCodes (s : State) (e j : Nat) (back : Bool) : List (BitVec 16) :=
  (List.range 8192).map (fun c => tabGet s.photonic.codes (bankBase (e * 4 + j) (s.bankNo e back) + c) 0)
/-- The four slices of a bank written. -/
def State.putBank (s : State) (e : Nat) (back : Bool) (codes : Nat → List (BitVec 16)) : State :=
  let b := s.bankNo e back
  s.modPh (fun p => { p with codes := (List.range 4).foldl (fun t j => putCodes t (bankBase (e * 4 + j) b) (codes j)) p.codes })
/-- The back bank loaded from entry k (R268, R292). -/
def State.loadBack (s : State) (e k : Nat) : State :=
  (s.putBank e true (fun j => (List.range 8192).map (s.entryCode e k j))).modEngine e (fun x =>
    { x with backIx := BitVec.ofNat 3 k, backV := true, bnew := true, backCopy := x.entry k, backStale := false })
/-- A bank that holds an image of the job is set to zero and its entries are invalidated, at the end of the job (R269). -/
def State.dropImages (s : State) (e : Nat) (asid : BitVec 16) : State :=
  let x := s.engine e
  let zero (_ : Nat) : List (BitVec 16) := []
  let f := x.frontV && (x.entry x.frontIx.toNat).asid == asid
  let b := x.backV && x.backCopy.asid == asid
  let s1 := if f then s.putBank e false zero else s
  let s2 := if b then s1.putBank e true zero else s1
  s2.modEngine e (fun x => { x with
    frontV := x.frontV && !f, backV := x.backV && !b, bnew := x.bnew && !b
    resent := x.resent.map (fun p => (p.1, if p.2.asid == asid then { p.2 with valid := false } else p.2)) })

/-! ### The deck map (R273 to R275) -/

/-- The state that REQ, the trip and the laser module decide (R402). -/
def State.deckWant (s : State) (d : Nat) : BitVec 2 :=
  let x := s.deck d
  if !s.photonic.laserPresent.getLsbD (d % 4) || x.tripped || x.req == 2 then 2 else if x.req == 1 then 1 else 0
/-- The ACTIVE decks of an engine (R273). -/
def State.activeDecks (s : State) (e : Nat) : List Nat := (List.range 4).filter (fun d => (s.deck (e * 4 + d)).avail == 0)
/-- deck[j] (R274). -/
def deckOf (A : List Nat) (j : Nat) : Nat :=
  if A.contains j then j else ((A.filter (fun d => decide (j < d))).head?).getD (A.headD 0)
/-- pass[j] (R274). -/
def passOf (A : List Nat) (j : Nat) : Nat :=
  if A.contains j then 0
  else 1 + ((List.range j).filter (fun i => !A.contains i && deckOf A i == deckOf A j)).length
/-- ORDER (R274). -/
def orderOf (A : List Nat) : List Nat := A ++ (List.range 4).filter (fun j => !A.contains j)
/-- The bits of a set of decks. -/
def availBits (A : List Nat) : Nat := A.foldl (fun a d => a + 2 ^ d) 0
/-- PASSES (R274). -/
def passesOf (A : List Nat) : Nat := 1 + maxOf ((List.range 4).map (passOf A))
/-- Word 2 with the map (R275). -/
def mapWord (A : List Nat) (ebc ovs engine : Nat) (migrated : Bool) : Word :=
  let dmap := (List.range 4).foldl (fun a j => a + (deckOf A j + 4 * passOf A j) * 2 ^ (4 * j)) 0
  let order := (orderOf A).zipIdx.foldl (fun a p => a + p.1 * 2 ^ (2 * p.2)) 0
  BitVec.ofNat 64 (dmap + order * 2 ^ 16 + A.length * 2 ^ 24 + passesOf A * 2 ^ 27 + ebc * 2 ^ 30 + ovs * 2 ^ 34 +
    engine * 2 ^ 36 + availBits A * 2 ^ 40 + (if migrated then 2 ^ 44 else 0))
/-- Word 2 of a command that never had a map: AVAIL and ENGINE (R275, R300). -/
def placeWord2 (A : List Nat) (engine : Nat) : Word := BitVec.ofNat 64 (engine * 2 ^ 36 + availBits A * 2 ^ 40)
/-- The achieved EBC (R279). -/
def State.achievedEbc (s : State) (e : Nat) (A : List Nat) (ovs : Nat) : Nat :=
  let cs := A.map (fun d => (s.deck (e * 4 + d)).calEbc.toNat)
  Nat.min 15 (cs.foldl Nat.min 15 + ovs)

/-! ### Tile allotment when an operation starts (R285) -/

/-- The first address of a run of tiles that the job may not touch. -/
def State.runMiss (s : State) (o : Op) (a len : Nat) : Option Nat :=
  ((List.range ((tileOff a + len - 1) / 16384 + 1 - tileOff a / 16384)).map (fun i =>
    if i = 0 then a else tileAddr (tileEngine a) (tileSlice a) ((tileOff a / 16384 + i) * 16384))).find? (s.tileRefused o.asid o.svc)
/-- The first address of the operation's ranges that the job may not touch (R285). A plain TCOPY names no range: its allotment is found
chunk by chunk in the look-ahead of R249, as a copy's is (R266, R287, R303; log entry 13). -/
def State.tileMiss (s : State) (o : Op) : Option Nat :=
  let r := o.record
  let planes (a n : Nat) : List (Nat × Nat) := (List.range 4).map (fun j => (tileAddr (tileEngine a) j (tileOff a), 64 * n))
  let runs (xs : List (Nat × Nat)) : Option Nat := xs.findSome? (fun x => s.runMiss o x.1 x.2)
  match o.form with
  | .mmx | .mmxA => runs (planes (mmPln r) (mmVecs r) ++ [(mmAcc r, 256 * mmVecs r), (mmScl r, mmVecs r)])
  | .tcopyBp => runs (planes (bpPln r) (recFld r 480 12 + 1) ++ [(bpScl r, recFld r 480 12 + 1)])
  | .tcopyAcc => runs [(accSrc r, 256 * accRows r)]
  | _ => none

/-! ### The inbox and the lanes (R271) -/

/-- The lanes of an engine by number. -/
def Engine.laneAt (e : Engine) (l : Nat) : Option Lane := if l = 0 then e.matrix else if l = 1 then e.phase else e.transfer
/-- A lane taken. -/
def Engine.takeLane (e : Engine) (l : Nat) (x : Lane) : Engine :=
  if l = 0 then { e with matrix := some x } else if l = 1 then { e with phase := some x } else { e with transfer := some x }
/-- ENGINE_INBOX_ENTRY (R271): a matrix command is checked as it arrives (R277). -/
def execEngineInboxEntry (core slot : Nat) (s : State) : Out :=
  let o := s.op core slot
  let before := s.ops.any (fun p => p.1 / 128 == core && decide (p.2.state = .queued) && !p.2.inbox && p.2.form.cls == 1 &&
    p.2.unit == o.unit && decide (p.2.arrived < o.arrived))
  if o.state ≠ .queued ∨ o.inbox = true ∨ o.form.cls ≠ 1 ∨ before = true ∨ 64 ≤ (s.inboxOf o.unit.toNat).length then .next s
  else
    let s1 := s.bump.setOp core slot { o with inbox := true, arrived := s.sched.nextId }
    .next (if o.form.lane = 0 then s1.checkMove (core * 128 + slot) else s1)

/-- The command waits in the inbox of f, and what neighbours an idle lane it left is checked (R277). -/
def State.migrate (s : State) (core slot f : Nat) : State :=
  (s.bump.modOp core slot (fun o => { o with unit := BitVec.ofNat 12 f, arrived := s.sched.nextId, migTo := none })).checkMoves s
/-- The neighbour that the check of R277 found for a command still takes it. -/
def State.takes (s : State) (o : Op) : Option Nat := o.migTo.filter (s.mayMove o)
/-- MIGRATION (R277): a waiting matrix command moves to the neighbour that the check made as it arrived, or as a neighbour's matrix lane
became idle, has found. One that does not qualify any more takes nothing. -/
def execMigration (engine core slot : Nat) (s : State) : Out :=
  let o := s.op core slot
  if o.state ≠ .queued ∨ o.inbox = false ∨ o.form.lane ≠ 0 ∨ o.form.cls ≠ 1 ∨ o.unit.toNat ≠ engine then .next s
  else match s.takes o with
    | some f => .next (s.migrate core slot f)
    | none => .next (s.setOp core slot { o with migTo := none })

/-! ### A matrix command starts (R274, R278, R300) -/

/-- The image that a command is driven with: its entry, and codes and Σ scales of its four slices, fixed as it starts. -/
structure Image where
  entry : Nat
  codes : List (BitVec 16)
  scales : List (BitVec 32)
/-- Codes of entry k, slice after slice. -/
def State.entryCodes (s : State) (e k : Nat) : List (BitVec 16) :=
  (List.range 4).flatMap (fun j => (List.range 8192).map (s.entryCode e k j))
/-- The front image of the home engine (R268, R274): slices of ACTIVE decks are driven from their front banks, and extra passes from an
entry of the image, of several under its tag a free choice (R269). -/
def State.frontImage (s : State) (e : Nat) (A : List Nat) : Image :=
  let x := s.engine e
  let r := x.entry x.frontIx.toNat
  let k := (pickEntry s.sched.fresh (x.matching r.tag r.asid)).getD x.frontIx.toNat
  { entry := x.frontIx.toNat
    codes := (List.range 4).flatMap (fun j => if A.contains j then s.bankCodes e j false else (List.range 8192).map (s.entryCode e k j))
    scales := (List.range 4).map (fun j => (if A.contains j then r else x.entry k).scales.getD j 0) }
/-- The image for a command on an engine: the front image, or for a migrated one the matching entry, copied first from its
home where there is none (R278); the engine holds it for the command's duration. None where the image is not there. -/
def State.startImage (s : State) (o : Op) (e : Nat) (A : List Nat) : State × Option Image :=
  let x := s.engine e
  if e = o.homeEngine then
    let r := x.entry x.frontIx.toNat
    (s.refresh, if x.frontV && r.asid == o.asid && (mmTag o.record == 0 || mmTag o.record == r.tag) then some (s.frontImage e A) else none)
  else match s.imageEntry o e with
    | some k => (s.refresh, some { entry := k, codes := s.entryCodes e k, scales := (x.entry k).scales })
    | none =>
      match (if o.record.getLsbD 505 then s.imageEntry o o.homeEngine else none) with
      | some h =>
        let r := (s.engine o.homeEngine).entry h
        let k := x.newEntry x.frontIx.toNat
        (s.refresh.placeImage e k (fun j => (List.range 8192).map (s.entryCode o.homeEngine h j)) { r with swapSeq := 0 },
          some { entry := k, codes := s.entryCodes o.homeEngine h, scales := r.scales })
      | none => (s, none)
/-- An MMX or MMX.A starts on an engine (R300). -/
def State.startMmx (s : State) (core slot e : Nat) : State :=
  let o := s.op core slot
  let A := s.activeDecks e
  let run := s.setOp core slot { o with state := .running, inbox := false }
  let fail (c : BitVec 8) : State := (run.decideOp core slot 0x10 c (placeWord2 A e)).checkMoves s
  if A.isEmpty then
    match s.moveTo o with
    | some f => s.refresh.migrate core slot f
    | none => fail cENGBAD
  else
    let (s1, img) := run.startImage o e A
    match img with
    | none => fail cENGBAD
    | some im =>
      if (s.tileMiss o).isSome then fail cPROT
      else
        let ovs := recFld o.record 498 2
        let ebc := s.achievedEbc e A ovs
        let w := mapWord A ebc ovs e (decide (e ≠ o.homeEngine))
        if ebc < recFld o.record 500 4 then (s1.decideOp core slot 0x03 0 w).checkMoves s
        else s1.modEngine e (fun x => x.takeLane 0
          { op := core * 128 + slot, asid := o.asid, avail := BitVec.ofNat 4 (availBits A), word2 := w, scales := im.scales
            waiting := false, entry := im.entry, codes := im.codes })
/-- What waits for the boundary between matrix commands of an engine (R270, R273, R399). -/
def State.boundaryWork (s : State) (e : Nat) : Bool :=
  decide ((s.engine e).trimHeld ≠ []) ||
  (List.range 4).any (fun d => (s.deck (e * 4 + d)).avail != s.deckWant (e * 4 + d) ||
    (List.range 64).any (fun b => (tabGet s.photonic.banks ((e * 4 + d) * 64 + b) Bank.initial).pending))
/-- LANE_DISPATCH (R271): the waiting command of highest PRI, then earliest arrival, starts in a free lane. One that a neighbour takes
(R277) does not start here. -/
def execLaneDispatch (engine lane : Nat) (s : State) : Out :=
  let waiting := (s.inboxOf engine).filter (fun p => p.2.form.lane == lane && !s.selectionHeld (p.1 / 128) && (s.takes p.2).isNone)
  let top := maxOf (waiting.map (fun p => p.2.pri))
  let best := waiting.filter (fun p => p.2.pri == top)
  if ((s.engine engine).laneAt lane).isSome || (lane == 0 && s.boundaryWork engine) then .next s
  else match best.find? (fun p => best.all (fun q => decide (p.2.arrived ≤ q.2.arrived))) with
    | none => .next s
    | some (k, o) =>
      let core := k / 128
      let slot := k % 128
      if o.form = .mmx ∨ o.form = .mmxA then .next (s.startMmx core slot engine)
      else
        let s1 := (s.setOp core slot { o with state := .running, inbox := false, lastBeat := s.now }).modEngine engine (fun x =>
          x.takeLane lane { op := k, asid := o.asid, avail := 0, word2 := 0, scales := [], waiting := false, entry := 0, codes := [] })
        match s.tileMiss o with
        | some a => .next (s1.decideOp core slot 0x10 cPROT (BitVec.ofNat 64 a))
        | none => .next s1
/-- The operation in a lane, if it runs there with its outcome open: its core, slot and record. -/
def State.laneOp (s : State) (e l : Nat) (f : Form → Bool) : Option (Nat × Nat × Op × Lane) :=
  match (s.engine e).laneAt l with
  | none => none
  | some x =>
    let o := s.op (x.op / 128) (x.op % 128)
    if o.state = .running ∧ o.status = 0 ∧ o.asid = x.asid ∧ o.unit.toNat = e ∧ f o.form = true then
      some (x.op / 128, x.op % 128, o, x)
    else none

/-! ### The arithmetic of a pass (R264, R265) -/

/-- The FP32 value of a pattern. -/
def fp32 (x : Nat) : FVal := unpack (fmtOf 0) x
/-- round(x, FP32, RNE). -/
def rne32 (x : FVal) : Nat := (roundTo (fmtOf 0) 0 0 x).1
/-- The digitiser code of a slice's plane in a turn, among the codes of an output (R264). -/
def digitOf (codes j b o : Nat) : Int := (BitVec.ofNat 12 (codes / 2 ^ (12 * ((8 * j + b) * 8 + o)))).toInt
/-- D[b] (R265): the sum of a plane's digitiser codes. -/
def planeSum (codes j b O : Nat) : Int := (List.range O).foldl (fun (a : Int) o => a + digitOf codes j b o) 0
/-- P (R265). -/
def partialOf (codes j W O : Nat) : Int := (List.range W).foldl (fun (a : Int) b => a + planeSum codes j b O * ((2 ^ b : Nat) : Int)) 0
/-- z[j] (R265), from the slice's partial, its scale s[j], the vector's E8, log2 O, and whether every plane is zero. -/
def sliceTerm (P : Int) (sj : BitVec 32) (e ovs : Nat) (allZero : Bool) : Nat :=
  if allZero || (fp32 sj.toNat).isZero then 0
  else rne32 ((mulExact (FVal.ofInt P) (fp32 sj.toNat)).1.scale ((e : Int) - 127 - (ovs : Int)))
/-- S (R265): the terms summed in ORDER. -/
def sumInOrder : List Nat → Nat
  | [] => 0
  | z :: t => t.foldl (fun a y => rne32 (sumExact 0 [fp32 a, fp32 y]).1) z
/-- An output of a vector, from its scale and its sum S (R265, R300). -/
def outputOf (e : Nat) (S : Nat) (old : Option Nat) : Nat :=
  if e = 0xFF then 0x7FC00000
  else
    match old with
    | none => S
    | some a => rne32 (sumExact 0 [fp32 a, fp32 S]).1
/-- The places of a vector of a command: plane lines by slice, the scale byte, the accumulator row. -/
def mmLine (r : BitVec 512) (n j : Nat) : Nat := tileAddr (tileEngine (mmPln r)) j (tileOff (mmPln r) + 64 * n)
/-- The decks of a lane's map. -/
def Lane.decks (l : Lane) : List Nat := (List.range 4).filter (fun d => l.avail.getLsbD d)
/-- The codes of slice j of a command's image (R274, R278), held since it started. -/
def Lane.sliceCodes (l : Lane) (j : Nat) : List (BitVec 16) := (l.codes.drop (8192 * j)).take 8192
/-- What a deck is driven with: each code plus the deck's trim of it (R270), and its detectors' trims. -/
def State.drivenCodes (s : State) (deck : Nat) (codes : List (BitVec 16)) : List (BitVec 16) :=
  codes.zipIdx.map (fun c => c.1 + tabGet s.photonic.trims (deck * 8192 + c.2) 0) ++
    (List.range 64).map (fun i => tabGet s.photonic.dtrims (deck * 64 + i) 0)
/-- What the decks of a command are driven with, slice after slice. -/
def State.drive (s : State) (o : Op) (l : Lane) : List (BitVec 16) :=
  (List.range 4).flatMap (fun j => s.drivenCodes (o.unit.toNat * 4 + deckOf l.decks j) (l.sliceCodes j))
/-- The image weights of output i, slice after slice (R263). -/
def Lane.outputWeights (l : Lane) (i : Nat) : List Rat :=
  (List.range 4).flatMap (fun j =>
    let codes := l.sliceCodes j
    (List.range 64).map (fun k => imageWeight (fun c => (codes.getD c 0).toNat) (ratOf32 (l.scales.getD j 0).toNat) i k))
/-- The exact inputs of a vector, slice after slice (R264, R280). -/
def State.vectorInputs (s : State) (o : Op) (n e : Nat) : List Rat :=
  let r := o.record
  (List.range 4).flatMap (fun j =>
    let planes (b : Nat) : Nat := leNat (memBytes s.mem.cells (mmLine r n j + 8 * b) 8)
    (List.range 64).map (fun k => ((inputCode (recFld r 496 2) (mmW r) planes k : Int) : Rat) * twoTo ((e : Int) - 127)))
/-- S of output i of a vector (R265) from its digitiser codes. -/
def State.sumOf (s : State) (o : Op) (l : Lane) (n e codes : Nat) : Nat :=
  let r := o.record
  let ovs := recFld r 498 2
  let W := mmW r
  let zero (j : Nat) : Bool := decide (leNat (memBytes s.mem.cells (mmLine r n j) (8 * W)) = 0)
  sumInOrder ((orderOf l.decks).map (fun j => sliceTerm (partialOf codes j W (2 ^ ovs)) (l.scales.getD j 0) e ovs (zero j)))
/-- The digitiser codes of output i of a vector: free, but that their sum keeps the bound of R280 wherever some codes give one that does
(log entry 14), unless a deck of the command has an uncorrected phase-bank error (R405). -/
def State.outputCodes (s : State) (o : Op) (l : Lane) (n e i : Nat) : Nat :=
  let ebc := (l.word2.extractLsb' 30 4).toNat
  let ws := l.outputWeights i
  let xs := s.vectorInputs o n e
  freeWithin (fun codes => l.decks.any (fun d => (s.deck (o.unit.toNat * 4 + d)).pberr) ||
      sumKeeps ebc (l.scales.map (fun x => ratOf32 x.toNat)) ws xs (s.sumOf o l n e codes)) (2 ^ 3072)
    (Config.digitiser (s.drive o l) (s.sched.fresh + 64 * n + i)).toNat
/-- A vector's outputs. -/
def State.vectorOut (s : State) (o : Op) (l : Lane) (n : Nat) : List Nat :=
  let r := o.record
  let e := (memGet s.mem.cells (mmScl r + n)).toNat
  (List.range 64).map (fun i =>
    outputOf e (s.sumOf o l n e (s.outputCodes o l n e i))
      (if o.form = .mmxA then some (leNat (memBytes s.mem.cells (mmAcc r + 256 * n + 4 * i) 4)) else none))
/-- A read of the vector meets poison (R302). -/
def State.vectorPoisoned (s : State) (o : Op) (n : Nat) : Bool :=
  let r := o.record
  (List.range 4).any (fun j => s.spPoisoned (mmLine r n j)) || s.spPoisoned (mmScl r + n) ||
  (decide (o.form = .mmxA) && (List.range 4).any (fun i => s.spPoisoned (mmAcc r + 256 * n + 64 * i)))
/-- Vectors carried out, each row counted (R286, R300). -/
def State.runVectors (s : State) (core slot : Nat) (l : Lane) (ns : List Nat) : State :=
  ns.foldl (fun s n =>
    let o := s.op core slot
    let cells := cellsAt (mmAcc o.record + 256 * n) ((s.vectorOut o l n).flatMap (leBytes 4))
    (s.modMem (fun m => m.writeSp cells)).beatDone core slot 256) s
/-- Free values that a command uses. -/
def Op.codesUsed (o : Op) : Nat := mmVecs o.record * 64
/-- The extra passes of a command on a deck of its map (R274). -/
def Lane.extraPasses (l : Lane) (d : Nat) : Nat :=
  ((List.range 4).filter (fun j => decide (passOf l.decks j ≠ 0) && deckOf l.decks j == d)).length
/-- Extra passes counted on their decks (R282): `ran` of each deck's. -/
def State.countPasses (s : State) (e : Nat) (l : Lane) (ran : Nat → Nat) : State :=
  l.decks.foldl (fun s d => s.modDeck (e * 4 + d) (fun x => { x with xpass := x.xpass + BitVec.ofNat 32 (Nat.min (ran d) (l.extraPasses d)) })) s
/-- A running command is stopped (R302): it writes every vector whose sum is complete, and ends as given. How many of its extra passes
each deck had run is open. -/
def State.stopMmx (s : State) (core slot : Nat) (l : Lane) (status cause : BitVec 8) : State :=
  let o := s.op core slot
  let ns := (List.range (mmVecs o.record)).filter (fun n => Config.vectorDone (s.sched.fresh + n) && !s.vectorPoisoned o n)
  (((s.runVectors core slot l ns).refreshBy o.codesUsed).countPasses o.unit.toNat l (fun d =>
    Config.passesRun (s.sched.fresh + d))).decideOp core slot status cause l.word2
/-- MMX_COMPLETION (R300). -/
def execMmxCompletion (engine : Nat) (s : State) : Out :=
  match s.laneOp engine 0 (fun f => f == .mmx || f == .mmxA) with
  | none => .next s
  | some (core, slot, o, l) =>
    let all := List.range (mmVecs o.record)
    if all.any (s.vectorPoisoned o) then .next (s.stopMmx core slot l 0x10 cPOISON)
    else .next ((((s.runVectors core slot l all).refreshBy o.codesUsed).countPasses engine l l.extraPasses).decideOp core slot 0x01 0 l.word2)
/-- A deck of a running command's map goes OFF (R276): one that had done its last pass leaves the command to go on. -/
def State.deckLost (s : State) (d : Nat) : State :=
  match s.laneOp (d / 4) 0 (fun f => f == .mmx || f == .mmxA) with
  | some (core, slot, _, l) =>
    if l.avail.getLsbD (d % 4) = false then s
    else if Config.deckDone s.sched.fresh then s.refresh
    else s.refresh.stopMmx core slot l 0x10 cENGBAD
  | none => s

/-! ### Phase commands (R292 to R297) -/

/-- Word 2 of a PH record (R297). -/
def phWord (entries kept rev engine : Nat) (banked : Bool) : Word :=
  BitVec.ofNat 64 (entries + kept * 2 ^ 8 + rev * 2 ^ 32 + engine * 2 ^ 36 + (if banked then 2 ^ 40 else 0))
/-- Bytes read by an engine for an operation: none while a line must first be obtained, or while bytes that the issuing context stored
before are not there yet (R222); else the bytes or the first fault with its address. -/
def State.gather (s : State) (core : Nat) (o : Op) (as : List Nat) : Option (State × Except (BitVec 8 × Nat) (List Byte)) :=
  let (s1, pg) := s.pages (clusterOf core) o.asid o.svc .rd (pagesIn as)
  let place (a : Nat) := s1.placed o.asid o.svc pg a
  match lowestFault place as with
  | some (a, c) => some (s1, .error (c, a))
  | none =>
    let pls := as.map (fun a => match place a with | .ok pl => pl | .error _ => a)
    if pls.any (s1.placeBusy o.asid) || s1.issuerStoring o as then none
    else match (as.zip pls).findSome? (fun p => (s1.placeFault o.asid o.svc p.2).map (fun c => (c, p.1))) with
      | some x => some (s1, .error x)
      | none => some (s1, .ok (pls.map (s1.placeByte o.asid)))
/-- The words of n bytes each in a list of bytes. -/
def wordsIn (n : Nat) (bs : List Byte) : List Nat := (chunksOf n bs.length bs).map leNat
/-- The back bank loaded from an entry: the command ends (R292, R294). -/
def State.bankLoaded (s : State) (core slot e k : Nat) : State :=
  (s.loadBack e k).decideOp core slot 0x01 0 (phWord (2 ^ k) 0 ((s.engine e).entry k).rev.toNat e true)
/-- An entry has been written: the command ends, or loads the back bank, for which it waits while BNEW = 1 (R268, R292). -/
def State.entryWritten (s : State) (core slot e k : Nat) (bank : Bool) : State :=
  let rev := ((s.engine e).entry k).rev.toNat
  if !bank then s.decideOp core slot 0x01 0 (phWord (2 ^ k) 0 rev e false)
  else if (s.engine e).bnew then s.modEngine e (fun x => { x with phase := x.phase.map (fun l => { l with waiting := true, entry := k }) })
  else s.bankLoaded core slot e k
/-- PHLD_EXECUTION (R292). -/
def execPhldExecution (engine : Nat) (s : State) : Out :=
  match s.laneOp engine 1 (· == .phld) with
  | none => .next s
  | some (core, slot, o, l) =>
    if l.waiting then .next s
    else match s.gather core o ((runAt (phAddr o.record) 65536).map (· % 2 ^ 52)) with
      | none => .next s
      | some (s1, .error (c, a)) => .next (s1.decideOp core slot 0x10 c (BitVec.ofNat 64 a))
      | some (s1, .ok bs) =>
        let codes := wordsIn 2 bs
        let r := o.record
        let k := (s.engine engine).loadEntry s.sched.fresh (phTag r) o.asid
        let x : Resent := { tag := phTag r, asid := o.asid, valid := true, rev := 0, swapSeq := 0
                            s0 := phScale r 0, s1 := phScale r 1, s2 := phScale r 2, s3 := phScale r 3 }
        .next ((s1.refresh.placeImage engine k (fun j => ((codes.drop (8192 * j)).take 8192).map (BitVec.ofNat 16)) x).entryWritten
          core slot engine k (phBank r))
/-- The folded weights of PHDEC in index order (R293). -/
def foldWeights (ws ds : List Nat) : List Nat :=
  if ds.isEmpty then ws
  else ws.zipIdx.map (fun p => rne32 (mulExact (fp32 p.1) (fp32 (ds.getD (p.2 % 256 % ds.length) 0))).1)
/-- Slice j of folded weights: rows of 64 columns (R262, R272). -/
def sliceBlock (xs : List Nat) (j : Nat) : List (BitVec 32) :=
  (List.range 4096).map (fun n => BitVec.ofNat 32 (xs.getD (n / 64 * 256 + 64 * j + n % 64) 0))
/-- A block of zeros. -/
def zeroBlock (b : List (BitVec 32)) : Bool := b.all (fun x => (fp32 x.toNat).isZero)
/-- The Σ scale of a slice (R272): +0 for a block of zeros, else a free one in its interval. -/
def blockSigma (b : List (BitVec 32)) : BitVec 32 :=
  if zeroBlock b then 0
  else BitVec.ofNat 32 (freeWithin (fun n => scaleKeeps (b.map (fun x => ratOf32 x.toNat)) (ratOf32 n)) (2 ^ 32) (Config.herringScale b).toNat)
/-- Code c among the codes of a slice. -/
def codeAt (codes c : Nat) : Nat := codes / 2 ^ (16 * c) % 2 ^ 16
/-- The codes of a slice (R272): zero for a block of zeros, else free ones whose image weights keep the bound. -/
def blockCodes (b : List (BitVec 32)) : List (BitVec 16) :=
  if zeroBlock b then List.replicate 8192 0
  else
    let xs := b.map (fun x => ratOf32 x.toNat)
    let codes := freeWithin (fun n => codesKeep xs (ratOf32 (blockSigma b).toNat) (codeAt n)) (2 ^ 131072) (Config.herringCodes b).toNat
    (List.range 8192).map (fun c => BitVec.ofNat 16 (codeAt codes c))
/-- PHDEC_EXECUTION (R293). -/
def execPhdecExecution (engine : Nat) (s : State) : Out :=
  match s.laneOp engine 1 (· == .phdec) with
  | none => .next s
  | some (core, slot, o, l) =>
    let r := o.record
    let wAt (n : Nat) : Nat := (phAddr r + n / 256 * recFld r 384 32 + 4 * (n % 256))
    let was := (List.range 16384).flatMap (fun n => (runAt (wAt n) 4).map (· % 2 ^ 52))
    let folds := ftSmen o.dstEntry
    let das := if folds then (runAt (ftSptr o.dstEntry) (4 * Nat.min 256 (ftSlen o.dstEntry))).map (· % 2 ^ 52) else []
    if l.waiting then .next s
    else match s.gather core o (was ++ das) with
      | none => .next s
      | some (s1, .error (c, a)) => .next (s1.decideOp core slot 0x10 c (BitVec.ofNat 64 a))
      | some (s1, .ok bs) =>
        let ws := wordsIn 4 (bs.take 65536)
        let xs := foldWeights ws (wordsIn 4 (bs.drop 65536))
        match ((ws.zip xs).zipIdx).find? (fun p => nonFinite (BitVec.ofNat 32 p.1.1) || nonFinite (BitVec.ofNat 32 p.1.2)) with
        | some (_, n) => .next (s1.decideOp core slot 0x10 cFMT (BitVec.ofNat 64 n))
        | none =>
          let k := (s.engine engine).loadEntry s.sched.fresh (phTag r) o.asid
          let sg (j : Nat) := blockSigma (sliceBlock xs j)
          let x : Resent := { tag := phTag r, asid := o.asid, valid := true, rev := Config.herringRev, swapSeq := 0
                              s0 := sg 0, s1 := sg 1, s2 := sg 2, s3 := sg 3 }
          .next ((s1.refresh.placeImage engine k (fun j => blockCodes (sliceBlock xs j)) x).entryWritten core slot engine k (phBank r))
/-- PHRES_EXECUTION (R294). -/
def execPhresExecution (engine : Nat) (s : State) : Out :=
  match s.laneOp engine 1 (· == .phres) with
  | none => .next s
  | some (core, slot, o, l) =>
    if l.waiting then .next s
    else match pickEntry s.sched.fresh ((s.engine engine).matching (phTag o.record) o.asid) with
      | some k => .next (s.refresh.entryWritten core slot engine k true)
      | none => .next (s.refresh.decideOp core slot 0x10 cENGBAD (phWord 0 0 0 engine false))
/-- The phase lane's command of a core waited under R268 when a switch was asked for, so that it stays in its wait until its job is back
(R247). -/
def State.laneRests (s : State) (engine core : Nat) : Bool :=
  s.selectionHeld core && (match s.switch with | some w => w.resting.contains engine | none => false)
/-- BACK_BANK_LOAD (R268, R247): a waiting command writes the back bank once BNEW is clear and its job is switched in. -/
def execBackBankLoad (engine : Nat) (s : State) : Out :=
  match s.laneOp engine 1 (fun f => f == .phld || f == .phdec || f == .phres) with
  | none => .next s
  | some (core, slot, _, l) =>
    if l.waiting = false ∨ (s.engine engine).bnew = true ∨ s.laneRests engine core = true then .next s
    else .next (s.bankLoaded core slot engine l.entry)
/-- The swap brings the back bank's own image to the front (R295), and where its entry has been replaced gives it a new one (R269). -/
def State.swapOwn (s : State) (core slot engine : Nat) : State :=
  let x := s.engine engine
  let b := x.entry x.backIx.toNat
  let swaps := x.swaps + 1
  let s1 := s.modPh (fun p => { p with front := tabSet p.front engine (!(tabGet p.front engine false)) })
  let base : Engine := { x with backIx := x.frontIx, backV := x.frontV, frontV := true, bnew := false, swaps := swaps
                                backCopy := x.entry x.frontIx.toNat, backStale := false }
  if x.backStale then
    let k := x.newEntry x.backIx.toNat
    let s2 := s1.modEngine engine (fun _ => { base with frontIx := BitVec.ofNat 3 k })
    (s2.placeImage engine k (fun j => s1.bankCodes engine j false) { x.backCopy with swapSeq := swaps }).decideOp core slot
      0x01 0 (phWord (2 ^ k) 0 x.backCopy.rev.toNat engine false)
  else
    (s1.modEngine engine (fun _ => { base with frontIx := x.backIx
                                               resent := tabSet x.resent x.backIx.toNat { b with swapSeq := swaps } })).decideOp
      core slot 0x01 0 (phWord (2 ^ x.backIx.toNat) 0 b.rev.toNat engine false)
/-- The swap brings to the front the image of another entry under the same tag (R269): its codes enter the bank. -/
def State.swapOther (s : State) (core slot engine k : Nat) : State :=
  let x := s.engine engine
  let swaps := x.swaps + 1
  let s1 := s.modPh (fun p => { p with front := tabSet p.front engine (!(tabGet p.front engine false)) })
  ((s1.putBank engine false (fun j => (List.range 8192).map (s.entryCode engine k j))).modEngine engine (fun _ =>
    { x with backIx := x.frontIx, backV := x.frontV, frontIx := BitVec.ofNat 3 k, frontV := true, bnew := false, swaps := swaps
             backCopy := x.entry x.frontIx.toNat, backStale := false
             resent := tabSet x.resent k { x.entry k with swapSeq := swaps } })).decideOp
    core slot 0x01 0 (phWord (2 ^ k) 0 (x.entry k).rev.toNat engine false)
/-- Other entries that hold an image under the tag of the back bank's (R269). -/
def Engine.rivals (x : Engine) : List Nat :=
  (x.matching x.backCopy.tag x.backCopy.asid).filter (fun k => x.backStale || k != x.backIx.toNat)
/-- PHSWP_EXECUTION (R295): of several images under the tag the swap uses either, unpredictably (R269; log entry 15). -/
def execPhswpExecution (engine : Nat) (s : State) : Out :=
  match s.laneOp engine 0 (· == .phswp) with
  | none => .next s
  | some (core, slot, o, _) =>
    let x := s.engine engine
    let b := x.entry x.backIx.toNat
    if x.backV = false ∨ b.asid ≠ o.asid ∨ (phTag o.record ≠ 0 ∧ b.tag ≠ phTag o.record) then
      .next (s.decideOp core slot 0x10 cENGBAD (phWord 0 0 0 engine false))
    else if x.rivals = [] then .next (s.swapOwn core slot engine)
    else match x.rivals[Config.imageChoice s.sched.fresh % (x.rivals.length + 1)]? with
      | some k => .next (s.refresh.swapOther core slot engine k)
      | none => .next (s.refresh.swapOwn core slot engine)
/-- PHDROP_EXECUTION (R296). -/
def execPhdropExecution (engine : Nat) (s : State) : Out :=
  match s.laneOp engine 1 (· == .phdrop) with
  | none => .next s
  | some (core, slot, o, _) =>
    let x := s.engine engine
    let ks := x.matching (phTag o.record) o.asid
    let kept (k : Nat) : Bool := (x.frontV && x.frontIx.toNat == k) || (x.backV && x.backIx.toNat == k)
    let gone := ks.filter (fun k => !kept k)
    .next ((s.modEngine engine (fun x =>
        { x with resent := gone.foldl (fun t k => tabSet t k { x.entry k with valid := false }) x.resent })).decideOp core slot 0x01 0
      (phWord (availBits gone) (availBits (ks.filter kept)) 0 engine false))
/-- A PHLD, PHDEC or PHRES is stopped where it stands, which the spec leaves open (R298; log entry 15): before it writes, in
its entry, waiting under R268, or in the back bank. -/
def State.stopPh (s : State) (core slot engine : Nat) (l : Lane) (status cause : BitVec 8) (word2 : Word) : State :=
  let o := s.op core slot
  let x := s.engine engine
  let begun := Config.phWriting s.sched.fresh
  let s1 :=
    if !begun then s
    else if l.waiting then
      if x.bnew then s
      else (s.putBank engine true (fun j => (List.range 8192).map (fun c => Config.bankRemains (s.sched.fresh + 8192 * j + c)))).modEngine engine
        (fun x => { x with backV := false, bnew := false })
    else if o.form = .phres then s
    else
      let k := x.loadEntry (s.sched.fresh + 1) (phTag o.record) o.asid
      s.modEngine engine (fun x => x.putEntry k { x.entry k with valid := false })
  (s1.refreshBy 32768).decideOp core slot status cause word2

/-! ### TCOPY.BP and TCOPY.ACC (R289, R290) -/

/-- The rounding mode of TCOPY.BP and TCOPY.ACC. -/
def Op.tmode (o : Op) : Nat := o.mode (if o.form = .tcopyBp then 496 else 432)
/-- A copy by elements stops at a fault: its outcome. -/
def State.faultAt (s : State) (core slot : Nat) (c : BitVec 8) (a : Nat) : State := s.decideOp core slot 0x10 c (BitVec.ofNat 64 a)
/-- Cells of tile-store lines written as beats, in order: the state after the last that landed, and the fault that stopped. -/
def State.tileBeats (s : State) (core slot : Nat) : List (List Host.Cell) → State
  | [] => s
  | cs :: t =>
    let o := s.op core slot
    match s.placeWrite o.asid o.svc cs with
    | some (.ok s1) => (s1.beatDone core slot cs.length).tileBeats core slot t
    | some (.error c) => s.faultAt core slot c (cs.headD (0, 0)).1
    | none => s
/-- Vector n of TCOPY.BP (R289): none while a source line must first be obtained. -/
def State.bpVector (s : State) (core slot n : Nat) : Option State :=
  let o := s.op core slot
  let r := o.record
  let d := bpSide r
  let e := o.dstEntry
  let ix := List.range 256
  let eas := ix.flatMap (fun k => d.bytes (256 * n + k))
  let das := if ftSmen e then ix.flatMap (fun k => (runAt (ftSptr e + 4 * (k % ftSlen e)) 4).map (· % 2 ^ 52)) else []
  match s.gather core o (eas ++ das) with
  | none => none
  | some (s1, .error (c, a)) => some (s1.faultAt core slot c a)
  | some (s1, .ok bs) =>
    let f := fmtOf (d.kind - 1)
    let codes := wordsIn (d.bits / 8) (bs.take eas.length)
    let raw := codes.map (unpack f)
    let (rs, rng) := takeDraws (ix.map (fun _ => true)) o.rng
    let xs := if ftSmen e then (smoothAll raw ((wordsIn 4 (bs.drop eas.length)).map fp32)).1 else raw
    let w := ftW e
    let (e8, q) := quantBlock o.dt o.dmode (ftKind e) w o.tmode (xs.zip rs)
    let line (j : Nat) : List Host.Cell :=
      cellsAt (tileAddr (tileEngine (bpPln r)) j (tileOff (bpPln r) + 64 * n)) ((List.range 8).flatMap (fun b =>
        leBytes 8 (if b < w then
          ((q.codes.drop (64 * j)).take 64).foldr (fun c a => c / 2 ^ b % 2 + 2 * a) 0 else 0)))
    let kinds := ix.map (fun k => (256 * n + k, (q.conv.getD k 0) ||| (if isSubnormal f (codes.getD k 0) then 8 else 0) |||
      (if (raw.getD k (.inf false)).isNan then 1 else 0) ||| (if (raw.getD k (.nan false)).isInf then 2 else 0)))
    let s2 := s1.setOp core slot { o with rng := rng, prog := n + 1, conv := convNotes o.conv (kinds.filter (fun t => decide (t.2 ≠ 0))) }
    some (s2.tileBeats core slot ((List.range 4).map line ++ [[(bpScl r + n, BitVec.ofNat 8 e8)]]))
/-- Row n of TCOPY.ACC (R290): none while a destination line must first be obtained. The destination is translated ahead, and only the
elements below its first fault are read (R249). -/
def State.accRow (s : State) (core slot n : Nat) : Option State :=
  let o := s.op core slot
  let r := o.record
  let d := accSide r
  let ix := List.range 64
  let src := accSrc r + 256 * n
  let das (i : Nat) : List Nat := d.bytes (64 * n + i)
  let (s1, pg) := s.pages (clusterOf core) o.asid o.svc .wr (pagesIn (ix.flatMap das))
  let place (a : Nat) := s1.placed o.asid o.svc pg a
  let fault := firstFault place (fun a => .ok a) das (fun _ => []) 0 64
  let m := match fault with | some (i, _, _) => i | none => 64
  match (ix.take m).find? (fun i => s.spPoisoned (src + 4 * i)) with
  | some i => some (s1.faultAt core slot cPOISON (src + 4 * i))
  | none =>
    let old := ix.map (fun i => leNat (memBytes s.mem.cells (src + 4 * i) 4))
    let (rs, rng) := takeDraws (ix.map (fun _ => true)) o.rng
    let q := floatCodes (fmtOf (d.kind - 1)) o.tmode ((old.map fp32).zip rs)
    let kinds := (ix.take m).map (fun i => (64 * n + i, (q.conv.getD i 0) ||| (if isSubnormal (fmtOf 0) (old.getD i 0) then 8 else 0)))
    let cells := (ix.take m).flatMap (fun i => ((das i).zip (leBytes (d.bits / 8) (q.codes.getD i 0))).map (fun c =>
      (c.1, (match place c.1 with | .ok pl => pl | .error _ => c.1), c.2)))
    let beats := beatsOf cells
    if beats.any (fun b => isPa (b.cells.headD (0, 0)).1 && !s1.lineWritable o.asid (b.cells.headD (0, 0)).1 &&
        !s1.paWriteRefused o.asid b.cells) then none
    else
      let s2 := s1.setOp core slot { o with rng := rng, prog := n + 1, conv := convNotes o.conv (kinds.filter (fun t => decide (t.2 ≠ 0))) }
      let s3 := beats.foldl (fun s b =>
        if (s.op core slot).status ≠ 0 then s
        else match s.placeWrite o.asid o.svc b.cells with
          | some (.ok t) => t.beatDone core slot b.cells.length
          | some (.error c) => s.faultAt core slot c b.va
          | none => s) s2
      some (match fault with
        | some (_, a, c) => if (s3.op core slot).status = 0 then s3.faultAt core slot c a else s3
        | none => s3)
/-- Vectors or rows from n on, as far as lines are there and no fault stops them; at the end of all, the outcome (R289, R290). -/
def State.transferRun (s : State) (core slot : Nat) (one : State → Nat → Option State) (total n : Nat) : Nat → State
  | 0 => if total ≤ n then s.modOp core slot Op.outcome else s
  | k + 1 =>
    match one s n with
    | none => s
    | some s1 => if (s1.op core slot).status ≠ 0 then s1 else s1.transferRun core slot one total (n + 1) k
/-- The transfer lane's operation goes on; at a job switch it goes on to the end of its chunk, of so many vectors or rows, and is
suspended there (R247, R249). -/
def transferStep (s : State) (core slot : Nat) (o : Op) (total chunk : Nat) (one : State → Nat → Option State) : Out :=
  let last := if s.selectionHeld core then Nat.min total ((o.prog + chunk - 1) / chunk * chunk) else total
  if o.cancel ≠ 0 then .next s
  else if s.selectionHeld core && o.prog == last && decide (o.prog < total) then
    .next ((s.leaveLanes core slot).setOp core slot { o with state := .suspended, cause := 0, inbox := false })
  else .next (s.transferRun core slot one total o.prog (last - o.prog))
/-- TCOPY_BP_EXECUTION (R289). -/
def execTcopyBpExecution (engine : Nat) (s : State) : Out :=
  match s.laneOp engine 2 (· == .tcopyBp) with
  | none => .next s
  | some (core, slot, o, _) => transferStep s core slot o (recFld o.record 480 12 + 1) 16 (fun s n => s.bpVector core slot n)
/-- TCOPY_ACC_EXECUTION (R290). -/
def execTcopyAccExecution (engine : Nat) (s : State) : Out :=
  match s.laneOp engine 2 (· == .tcopyAcc) with
  | none => .next s
  | some (core, slot, o, _) => transferStep s core slot o (accRows o.record) (4096 / (8 * (accSide o.record).bits)) (fun s n => s.accRow core slot n)

/-! ### Stops (R250, R247) -/

/-- A cancellation reaches a running MAT operation (R250, R298, R302). A swap and a PHDROP complete. -/
def State.cancelMat (s : State) (core slot : Nat) : State :=
  let o := s.op core slot
  let e := o.unit.toNat
  match o.form with
  | .tcopyBp | .tcopyAcc => s.decideOp core slot 0x11 o.cancel (BitVec.ofNat 64 o.bytes)
  | .mmx | .mmxA => match s.laneOp e 0 (fun _ => true) with
    | some (_, _, _, l) => s.stopMmx core slot l 0x11 o.cancel
    | none => s
  | .phld | .phdec | .phres => match s.laneOp e 1 (fun _ => true) with
    | some (_, _, _, l) => s.stopPh core slot e l 0x11 o.cancel 0
    | none => s
  | _ => s
/-- MAT_SWITCH_TIMEOUT (R247): 50 µs after a switch request a command still running is stopped; one that waits under R268 is
not waited for. -/
def execMatSwitchTimeout (engine lane : Nat) (s : State) : Out :=
  match s.switch, s.laneOp engine lane (fun f => f != .phswp && f != .phdrop && !f.counts) with
  | some w, some (core, slot, o, l) =>
    if s.selectionHeld core = false ∨ (lane = 1 ∧ s.laneRests engine core = true) ∨ s.time.toNat < w.born.toNat + 50000 then .next s
    else if o.form = .mmx ∨ o.form = .mmxA then .next (s.stopMmx core slot l 0x10 cWAITTIME)
    else .next (s.stopPh core slot engine l 0x10 cWAITTIME (phWord 0 0 0 engine false))
  | _, _ => .next s

/-! ### Trims (R270) -/

/-- A trim write of eight bytes at an offset of an engine's block: four trims of 16 bits. -/
def State.trimPut (s : State) (e off : Nat) (v : Word) : State :=
  let at_ (i : Nat) : BitVec 16 := v.extractLsb' (16 * i) 16
  s.modPh (fun p => (List.range 4).foldl (fun p i =>
    if 0x10000 ≤ off then
      let d := e * 4 + (off - 0x10000) / 0x4000
      { p with trims := tabSet p.trims (d * 8192 + (off - 0x10000) % 0x4000 / 2 + i) (at_ i) }
    else
      let d := e * 4 + (off - 0x800) / 128
      { p with dtrims := tabSet p.dtrims (d * 64 + (off - 0x800) % 128 / 2 + i) (at_ i) }) p)
/-- TRIM_APPLY (R270): held trim writes take effect between matrix commands. -/
def execTrimApply (engine : Nat) (s : State) : Out :=
  let x := s.engine engine
  if x.matrix.isSome then .next s
  else .next ((x.trimHeld.foldl (fun s p => s.trimPut engine p.1 p.2) s).modEngine engine (fun x => { x with trimHeld := [] }))

end Sys2Proof.Machine
end

