-- ==== Sys2Proof/Machine/Thermal.lean ====
section
/-!
DEFINITION. Rings, decks, laser modules and the thermal ring (R393 to R407, R335), and the FABCTL messages that their
events and those of the fabric send (R334).
-/
namespace Sys2Proof.Machine

/-! ### The thermal ring (R406) -/

/-- A counter that stays at its largest value. -/
def sat32 (x : BitVec 32) : BitVec 32 := if x = BitVec.allOnes 32 then x else x + 1
/-- The words of a record. -/
def State.thWords (s : State) (type deck bank ring : Nat) (data aux : Word) (temp : BitVec 16) : List Word :=
  [BitVec.ofNat 64 (type + 2 ^ 8 * (deck / 4) + 2 ^ 12 * (deck % 4) + 2 ^ 14 * bank + 2 ^ 20 * ring + 2 ^ 32 * temp.toNat), data, aux, s.time]
/-- A record written, or dropped when the ring is full or refuses it (log entry 28). -/
def State.thPut (s : State) (ws : List Word) : State :=
  let p := s.photonic
  let n := 2 ^ p.thrlog.toNat
  let drop : State := s.modPh (fun p => { p with thDrop := sat32 p.thDrop })
  if p.thrlog = 0 then s
  else if (p.thwr - p.thrd).toNat = n then drop
  else match s.putLocal (p.thring.toNat % 2 ^ 40 + 32 * (p.thwr.toNat % n)) (ws.flatMap (fun w => leBytes 8 w.toNat)) with
    | some s1 => s1.modPh (fun p => { p with thwr := p.thwr + 1 })
    | none => drop
/-- A record of a deck's event (R406). -/
def State.thRecord (s : State) (type deck bank ring : Nat) (data aux : Word) : State :=
  s.thPut (s.thWords type deck bank ring data aux (s.deck deck).temp)

/-! ### Availability (R273, R402) -/

/-- AVAIL changes, with its record; a deck that goes OFF ends a running command of whose map it is part (R276). -/
def State.setAvail (s : State) (d : Nat) (new : BitVec 2) : State :=
  let old := (s.deck d).avail
  if old = new then s
  else
    let s1 := s.modDeck d (fun x => { x with avail := new })
    let s2 := if new = 2 then s1.deckLost d else s1
    s2.thRecord 6 d 0 31 (new.setWidth 64) (old.setWidth 64)
/-- DECK_STATE_APPLY (R273): between matrix commands a deck takes the state that REQ decides. -/
def execDeckStateApply (engine deck : Nat) (s : State) : Out :=
  if (s.engine engine).matrix.isSome then .next s
  else .next (s.setAvail (engine * 4 + deck) (s.deckWant (engine * 4 + deck)))
/-- A write of DECKCTL (R396, R402). -/
def State.deckctlPut (s : State) (deck : Nat) (v : Word) : State :=
  s.modDeck deck (fun x => { x with
    req := if v.extractLsb' 0 2 = 3 then 2 else v.extractLsb' 0 2
    wlen := v.getLsbD 2
    pberr := x.pberr && !v.getLsbD 3
    tripped := x.tripped && !(v.getLsbD 4 && decide (x.temp.toNat + 80 ≤ x.tript.toNat))
    tript := if 5968 < (v.extractLsb' 16 16).toNat then 5968 else v.extractLsb' 16 16 })
/-- DECKCTL_WRITE (R396, R402). -/
def execDeckctlWrite (deck : Nat) (v : Word) (s : State) : Out := .next (s.deckctlPut deck v)
/-- The ports of a module (R327). -/
def portsOf (m : Nat) : List Nat := (List.range 16).map (fun i => 16 * m + i)
/-- The decks of a stratum (R18). -/
def decksOf (m : Nat) : List Nat := (List.range 16).map (fun e => e * 4 + m)
/-- LASER_LOSS (R335): ports SRCLOST and decks OFF at once, with a RAS record. -/
def execLaserLoss (m : Nat) (s : State) : Out :=
  if !decide (m < 4) || !s.photonic.laserPresent.getLsbD m then .next s
  else
    let s1 := s.modPh (fun p => { p with laserPresent := p.laserPresent &&& ~~~(1#4 <<< m), laserLit := p.laserLit &&& ~~~(1#4 <<< m) })
    let s2 := (portsOf m).foldl (fun s p =>
      let x := s.port p
      let circuit := x.state == 4 || x.state == 5
      let lost := s.modPort p (fun y => { y with
        state := 6, settling := false, phys := if circuit then 0 else y.phys, pport := if circuit then 0 else y.pport })
      (if x.state = 4 then lost.fabctl 2 p (some x.phys.toNat) else lost).fabctl 4 p (if circuit then some x.phys.toNat else none)) s1
    let s3 := (decksOf m).foldl (fun s d => s.setAvail d 2) s2
    .next (s3.rasReport { source := 11, sev := 3, unit := m, addr := 0, extent := 0, count := 1, time := s.time, detail := [] })
/-- A deck takes the state that REQ and the laser module decide at once, where its engine is between matrix commands; the others take it at
DECK_STATE_APPLY (R273). -/
def State.deckSettles (s : State) (d : Nat) : State :=
  if (s.engine (d / 4)).matrix.isSome then s else s.setAvail d (s.deckWant d)
/-- LASER_MODULE_RELIT (R404): an absent module is present and lit again. -/
def execLaserModuleRelit (m : Nat) (s : State) : Out :=
  if 4 ≤ m ∨ s.photonic.laserPresent.getLsbD m = true then .next s
  else
    let s1 := s.modPh (fun p => { p with laserPresent := p.laserPresent ||| (1#4 <<< m), laserLit := p.laserLit ||| (1#4 <<< m) })
    .next ((decksOf m).foldl State.deckSettles s1)
/-- LASER_RELIGHT (R404): a write of 1 to RELIGHT. -/
def execLaserRelight (m : Nat) (s : State) : Out :=
  if !decide (m < 4) || !s.photonic.laserPresent.getLsbD m || !s.photonic.laserLit.getLsbD m then .next s
  else .next ((portsOf m).foldl (fun s p => if (s.port p).state = 6 then s.modPort p (fun x => { x with state := 1 }) else s) s)

/-! ### Rings (R397 to R401) -/

/-- The key of a bank. -/
def bankKey (deck bank : Nat) : Nat := deck * 64 + bank
/-- A ring of a bank. -/
def State.ring (s : State) (bk r : Nat) : Ring := tabGet s.photonic.rings (bk * 18 + r) (Ring.initial r)
/-- A ring changed. -/
def State.modRing (s : State) (bk r : Nat) (f : Ring → Ring) : State :=
  s.modPh (fun p => { p with rings := tabSet p.rings (bk * 18 + r) (f (tabGet p.rings (bk * 18 + r) (Ring.initial r))) })
/-- A bank. -/
def State.bank (s : State) (bk : Nat) : Bank := tabGet s.photonic.banks bk Bank.initial
/-- A bank changed. -/
def State.modBank (s : State) (bk : Nat) (f : Bank → Bank) : State :=
  s.modPh (fun p => { p with banks := tabSet p.banks bk (f (tabGet p.banks bk Bank.initial)) })
/-- The matrix lane of a deck's engine is idle. -/
def State.matrixIdle (s : State) (deck : Nat) : Bool := (s.engine (deck / 4)).matrix.isNone
/-- A firmware write to a bank abandons its wear move in tuning (R401). -/
def State.abandonWear (s : State) (bk : Nat) : State :=
  if (s.bank bk).wear.isSome && !(s.bank bk).wearing then
    (s.modBank bk (fun x => { x with wear := none })).modPh (fun p => { p with wlAbort := p.wlAbort + 1 })
  else s
/-- A ring's heater takes a code: a sample within 4 µs may still reflect the code before (R394). -/
def Ring.heat (x : Ring) (now : Word) (v : BitVec 12) : Ring :=
  { x with heater := v, heats := (now, x.heater) :: x.heats.filter (fun p => decide (now.toNat < p.1.toNat + 4000)) }
/-- The reference wavelength of a ring: LAMBDA while it carries one, else TUNE (R394). -/
def Ring.reference (x : Ring) : BitVec 4 := if x.lambda = 31 then x.tune else x.lambda.extractLsb' 0 4
/-- A ring's LAMBDA or TUNE changes: a sample within 4 µs may still reflect the reference before (R436). -/
def Ring.refer (x : Ring) (now : Word) (f : Ring → Ring) : Ring :=
  { f x with refs := (now, x.reference) :: x.refs.filter (fun p => decide (now.toNat < p.1.toNat + 4000)) }
/-- The reference wavelengths that a sample may reflect (R436). -/
def Ring.referred (x : Ring) (now : Word) : List (BitVec 4) :=
  x.reference :: (x.refs.filter (fun p => decide (now.toNat < p.1.toNat + 4000))).map (·.2)
/-- The codes that a sample may reflect (R394). -/
def Ring.reflected (x : Ring) (now : Word) : List (BitVec 12) :=
  x.heater :: (x.heats.filter (fun p => decide (now.toNat < p.1.toNat + 4000))).map (·.2)
/-- The tuning error of a ring that needs `need` codes of heat and has `heat` (R393, R435); beyond the register's range only its sign is
stated (log entry 28). -/
def tuningError (need : Int) (heat free : Nat) : BitVec 12 :=
  let e := need - heat
  if 2047 < e then BitVec.ofNat 12 (1 + free % 2047)
  else if e < -2048 then BitVec.ofInt 12 (-1 - ((free % 2048 : Nat) : Int))
  else BitVec.ofInt 12 e
/-- The step limit of R398. -/
def limitedHeater (old v : BitVec 12) : BitVec 12 :=
  BitVec.ofNat 12 (Nat.min (Nat.max v.toNat (old.toNat - 64)) (old.toNat + 64))
/-- A write of a RING (R397, R398): TUNE is ignored on a ring that carries a wavelength. -/
def State.ringPut (s : State) (deck bank ring : Nat) (v : Word) : State :=
  (s.abandonWear (bankKey deck bank)).modRing (bankKey deck bank) ring (fun x =>
    if x.lambda = 31 then (x.heat s.time (v.extractLsb' 0 12)).refer s.time (fun y => { y with tune := v.extractLsb' 50 4 })
    else x.heat s.time (limitedHeater x.heater (v.extractLsb' 0 12)))
/-- RING_WRITE (R397, R398). -/
def execRingWrite (deck bank ring : Nat) (v : Word) (s : State) : Out := .next (s.ringPut deck bank ring v)
/-- A wavelength moves to a spare (R399, R401, R438): its record, and the SATOFF of a ring whose SAT clears. -/
def State.moveWave (s : State) (deck bank src dst : Nat) (wear : Bool) : State :=
  let bk := bankKey deck bank
  let a := s.ring bk src
  let s1 := (s.modRing bk dst (fun x => x.refer s.time (fun y => { y with lambda := a.lambda }))).modRing bk src (fun x =>
    x.refer s.time (fun y => { y with lambda := 31, sat := false }))
  let s2 := s1.thRecord (if wear then 5 else 4) deck bank 31 (BitVec.ofNat 64 (src + 32 * dst)) (a.lambda.setWidth 64)
  if a.sat then s2.thRecord 3 deck bank src (a.heater.setWidth 64) (a.err.signExtend 64) else s2
/-- The pending move of a bank takes effect (R399, R437). -/
def State.applyMove (s : State) (deck bank : Nat) : State :=
  let bk := bankKey deck bank
  let b := s.bank bk
  if b.wearing then
    match b.wear with
    | some (f, t) =>
      ((s.modBank bk (fun x => { x with pending := false, wear := none, wearing := false, wearTime := some s.time })).modPh (fun p =>
        { p with wlMoves := p.wlMoves + 1 })).moveWave deck bank f t true
    | none => s
  else (s.modBank bk (fun x => { x with pending := false })).moveWave deck bank b.moveFrom.toNat b.moveTo.toNat false
/-- A write of RINGMOVE (R399). -/
def State.ringmovePut (s : State) (deck bank : Nat) (v : Word) : State :=
  let bk := bankKey deck bank
  let f := v.extractLsb' 0 5
  let t := v.extractLsb' 5 5
  let s1 := s.abandonWear bk
  let s2 := if v.getLsbD 11 then s1.modBank bk (fun x => { x with bad := false }) else s1
  if v.getLsbD 11 && f == 0 && t == 0 then s2
  else if !(s2.bank bk).pending && decide (f.toNat < 18) && decide (t.toNat < 18) && f != t &&
      (s2.ring bk f.toNat).lambda != 31 && (s2.ring bk t.toNat).lambda == 31 then
    let s3 := s2.modBank bk (fun x => { x with moveFrom := f, moveTo := t, pending := true })
    if s3.matrixIdle deck then s3.applyMove deck bank else s3
  else s2.modBank bk (fun x => { x with bad := true })
/-- RINGMOVE_WRITE (R399). -/
def execRingmoveWrite (deck bank : Nat) (v : Word) (s : State) : Out := .next (s.ringmovePut deck bank v)
/-- RING_MOVE_APPLY (R399): at the boundary between matrix commands. -/
def execRingMoveApply (deck bank : Nat) (s : State) : Out :=
  if (s.bank (bankKey deck bank)).pending && s.matrixIdle deck then .next (s.applyMove deck bank) else .next s
/-- The ring with the highest HEATER among those that carry a wavelength (R401), the lowest-numbered of equals. -/
def State.hottest (s : State) (bk : Nat) : Option Nat :=
  let rs := (List.range 18).filter (fun r => (s.ring bk r).lambda != 31)
  rs.find? (fun r => rs.all (fun q => decide ((s.ring bk q).heater.toNat ≤ (s.ring bk r).heater.toNat)))
/-- WEAR_MOVE (R401, R437): first the spare is tuned; at a later one the tuning is over, and the move is made or waits for its
boundary. -/
def execWearMove (deck bank spare : Nat) (heater : BitVec 12) (s : State) : Out :=
  let bk := bankKey deck bank
  let b := s.bank bk
  match b.wear with
  | some (_, t) =>
    if b.wearing then .next s
    else
      let s1 := (s.modRing bk t (fun x => x.heat s.time heater)).modBank bk (fun x => { x with pending := true, wearing := true })
      .next (if s1.matrixIdle deck then s1.applyMove deck bank else s1)
  | none =>
    let rested := match b.wearTime with
      | some w => decide (w.toNat + 1000000000 ≤ s.time.toNat)
      | none => true
    match s.hottest bk with
    | some f =>
      if (s.deck deck).wlen && s.matrixIdle deck && !b.pending && rested && decide (spare < 18) && (s.ring bk spare).lambda == 31 then
        .next ((s.modRing bk spare (fun x => (x.heat s.time heater).refer s.time (fun y =>
            { y with tune := (s.ring bk f).lambda.extractLsb' 0 4 }))).modBank bk
          (fun x => { x with wear := some (f, spare) }))
      else .next s
    | none => .next s

/-! ### Samples and telemetry (R393, R400 to R405) -/

/-- One sample of a ring (R394, R400, R436): its drop-port power, and the error of the heat that the ring needs for the reference wavelength
that the sample reflects, less the heat that it reflects. -/
def State.sampleRing (s0 : State) (deck : Nat) (x : Nat × BitVec 12 × List Int) : State :=
  let s := s0.refresh
  let bank := x.1 / 18
  let r := x.1 % 18
  let bk := bankKey deck bank
  let old := s.ring bk r
  let heats := old.reflected s.time
  let heat := heats.getD (Config.heatSeen s0.sched.fresh % heats.length) old.heater
  let refs := old.referred s.time
  let ref := refs.getD (Config.refSeen s0.sched.fresh % refs.length) old.reference
  let err := tuningError (x.2.2.getD ref.toNat 0) heat.toNat (Config.errBeyond s0.sched.fresh)
  let sat := old.lambda != 31 && ((old.heater == 4095 && BitVec.slt 0 err) || (old.heater == 0 && BitVec.slt err 0))
  let s1 := s.modRing bk r (fun y => { y with mpd := x.2.1, err := err, sat := sat })
  if sat && !old.sat then
    let ws := s1.thWords 2 deck bank r (old.heater.setWidth 64) (err.signExtend 64) (s1.deck deck).temp
    (s1.thPut ws).notice 11 (deck % 4 * 1024) 4 0 ws
  else if old.sat && !sat then s1.thRecord 3 deck bank r (old.heater.setWidth 64) (err.signExtend 64)
  else s1
/-- MONITOR_SAMPLE (R400, R402): a deck's temperature and samples of its rings, keyed bank x 18 + ring: the power at the drop port, and
the heat in codes that the ring needs to sit on each of the 16 wavelengths. -/
def execMonitorSample (deck : Nat) (temp : BitVec 16) (samples : List (Nat × BitVec 12 × List Int)) (s : State) : Out :=
  let s1 := s.modDeck deck (fun x => { x with temp := temp })
  let s2 := (samples.filter (fun x => decide (x.1 < 1152))).foldl (fun s x => s.sampleRing deck x) s1
  let d := s2.deck deck
  if !d.tripped && decide (d.tript.toNat ≤ temp.toNat) then
    let s3 := (s2.modDeck deck (fun x => { x with tripped := true })).thRecord 7 deck 0 31 (d.tript.setWidth 64) 0
    let s4 := s3.rasReport { source := 12, sev := 3, unit := deck / 4, addr := 0, extent := 0, count := 1, time := s.time
                             detail := [BitVec.ofNat 64 (deck % 4)] }
    .next (s4.setAvail deck 2)
  else .next s2
/-- TEMP_RECORD_TIMER (R404): a TEMP record of the deck each THPERIOD µs. -/
def execTempRecordTimer (deck : Nat) (s : State) : Out :=
  if s.photonic.thPeriod = 0 ∨ s.time.toNat < (s.deck deck).tempTime.toNat + 1000 * s.photonic.thPeriod.toNat then .next s
  else .next ((s.modDeck deck (fun x => { x with tempTime := s.time })).thRecord 1 deck 0 31 0 0)
/-- PROBE_CALIBRATION (R403): a complete probe set on an ACTIVE deck whose matrix lane is idle. -/
def execProbeCalibration (engine deck : Nat) (mebc : BitVec 4) (nprobe : BitVec 16) (s : State) : Out :=
  let d := engine * 4 + deck
  if (s.deck d).avail ≠ 0 ∨ s.matrixIdle d = false then .next s
  else .next (s.modDeck d (fun x => { x with mebc := mebc, mvalid := true, nprobe := nprobe, mtime := s.time }))
/-- The laser powers and the background shares of the last millisecond (R404, R407), free within their bounds (log entry 28). -/
def State.measured (s : State) : State :=
  let n := s.sched.fresh
  (s.modPh (fun p => { p with
    laserPower := (List.range 4).foldl (fun t m => tabSet t m (if p.laserLit.getLsbD m then Config.laserPower (n + m) else 0)) p.laserPower
    scrubPpm := BitVec.ofNat 32 (Config.scrubShare n % 5001)
    calPpm := BitVec.ofNat 32 (Config.calShare n % 1000001)
    telPpm := BitVec.ofNat 32 (Config.telShare n % 101) })).refreshBy 4
/-- POWER_ALERT (R404): the millisecond's power and shares measured, with a record and a NOTIFY when the power rises above the
threshold. -/
def execPowerAlert (watts : BitVec 32) (s : State) : Out :=
  let p := s.photonic
  let s1 := s.measured.modPh (fun p => { p with pwrNow := watts })
  if p.pwrNow.toNat ≤ p.pwrAlert.toNat ∧ p.pwrAlert.toNat < watts.toNat then
    let ws := s1.thWords 8 0 0 31 (watts.setWidth 64) (p.pwrAlert.setWidth 64) 0
    .next ((s1.thPut ws).notice 11 0 3 0 ws)
  else .next s1
/-- THRING_WRITE (R404). -/
def execThringWrite (v : Word) (s : State) : Out :=
  .next (s.modPh (fun p => { p with thring := v &&& ~~~0x1F#64, thwr := 0, thrd := 0 }))
/-- SCRUB (R405): a bit error in a phase bank is corrected, or found uncorrectable. -/
def execScrub (deck code : Nat) (bad : Bool) (s : State) : Out :=
  let r : RasInfo := { source := 5, sev := if bad then 1 else 0, unit := deck / 4, addr := 2 * code, extent := 2, count := 1, time := s.time
                       detail := [BitVec.ofNat 64 (deck + 2 ^ 16 * code)] }
  if bad then .next ((s.modDeck deck (fun x => { x with pberr := true })).rasReport r) else .next (s.rasCorrected r)
/-- CALMEAS (R403). -/
def State.calmeas (s : State) (deck : Nat) : Word :=
  let d := s.deck deck
  let age := (s.time.toNat - d.mtime.toNat) / 1000
  BitVec.ofNat 64 (d.mebc.toNat + (if d.mvalid then 16 else 0) + 2 ^ 16 * d.nprobe.toNat +
    (if d.mvalid then 2 ^ 32 * Nat.min age (2 ^ 32 - 1) else 0))

end Sys2Proof.Machine
end

