-- ==== Sys2Proof/Machine/Sys.lean ====
section
/-!
DEFINITION. System registers (R143 to R145, R395) and IRQ (R390).
-/
namespace Sys2Proof.Machine

/-- Registers marked SV (R143, R395). -/
def svNumber (n : Nat) : Bool := (decide (0x400 ≤ n) && decide (n ≤ 0x47F)) || (decide (0x800 ≤ n) && decide (n ≤ 0x802)) || decide (0xC00 ≤ n)
/-- Bits [127:64] of a handler-table entry (R95). -/
def State.htabHi (s : State) (core c : Nat) : Word :=
  let h := s.chan core c
  let qlen := ((s.core core).inbox.filter (fun x => x.chan == c)).length
  BitVec.ofNat 64 (h.prio.toNat + (if h.enable then 4 else 0) + (if h.allot then 8 else 0) + (if h.atomh then 16 else 0) +
    (if h.spill then 32 else 0) + 2 ^ 6 * qlen + 2 ^ 16 * h.age)
/-- The deck that THSEL selects (R395). -/
def selDeck (t : BitVec 12) : Nat := (t.extractLsb' 0 4).toNat * 4 + (t.extractLsb' 4 2).toNat
/-- The bank that THSEL selects (R395). -/
def selBank (t : BitVec 12) : Nat := (t.extractLsb' 6 6).toNat
/-- DECKCTL (R396). -/
def Deck.ctl (d : Deck) : Word :=
  (0 : BitVec 32) ++ d.tript ++ (0 : BitVec 11) ++ BitVec.ofBool d.tripped ++ BitVec.ofBool d.pberr ++ BitVec.ofBool d.wlen ++ d.req
/-- RINGMOVE (R399). -/
def Bank.move (b : Bank) : Word :=
  (0 : BitVec 52) ++ BitVec.ofBool b.bad ++ BitVec.ofBool b.pending ++ b.moveTo ++ b.moveFrom
/-- RING r (R397). -/
def Ring.word (x : Ring) : Word :=
  (0 : BitVec 10) ++ x.tune ++ x.lambda ++ BitVec.ofBool x.sat ++ x.err ++ (0 : BitVec 4) ++ x.mpd ++ (0 : BitVec 4) ++ x.heater
/-- The value of a system register (R143, R395). -/
def State.sysValue (s : State) (key n : Nat) : Word :=
  let c := s.ctx key
  let core := coreOf key
  let k := s.core core
  let deck := selDeck k.thsel
  let bk := bankKey deck (selBank k.thsel)
  if 0x400 ≤ n ∧ n ≤ 0x47F then
    let ch := (n - 0x400) / 2
    if n % 2 = 0 then ((s.chan core ch).entry ++ (0 : BitVec 2)).setWidth 64 else s.htabHi core ch
  else if 0xC10 ≤ n then (s.ring bk (n - 0xC10)).word
  else match n with
    | 0x000 => BitVec.ofNat 64 (ctxOf key)
    | 0x001 => BitVec.ofNat 64 core
    | 0x002 => (s.pkgOf k.asid).setWidth 64
    | 0x003 => k.asid.setWidth 64
    | 0x008 => c.taskTag.setWidth 64
    | 0x009 => c.parent.setWidth 64
    | 0x00A => c.msgid
    | 0x00B => BitVec.ofNat 64 c.chan
    | 0x010 => c.budget.setWidth 64
    | 0x011 => c.budgetLeft.setWidth 64
    | 0x012 => c.waitLimit.setWidth 64
    | 0x018 => c.fflags.setWidth 64
    | 0x019 => c.frm.setWidth 64
    | 0x01A => c.seed
    | 0x01B => k.aflags.setWidth 64
    | 0x020 => k.trapCause.setWidth 64
    | 0x021 => k.trapPc.setWidth 64
    | 0x022 => k.trapMsg
    | 0x023 => k.trapAddr
    | 0x028 => k.hintDrop.setWidth 64
    | 0x030 => s.time
    | 0x800 => k.dropKind.setWidth 64
    | 0x801 => k.collieFull.setWidth 64
    | 0x802 => k.fwdLate.setWidth 64
    | 0xC00 => k.thsel.setWidth 64
    | 0xC01 => (s.deck deck).temp.setWidth 64
    | 0xC02 => (s.deck deck).ctl
    | 0xC03 => s.calmeas deck
    | 0xC04 => (s.bank bk).move
    | _ => 0
/-- An RC register is cleared after its read (R8). -/
def State.sysClear (s : State) (core n : Nat) : State :=
  if n = 0x028 then s.modCore core (fun k => { k with hintDrop := 0 })
  else if n = 0x800 then s.modCore core (fun k => { k with dropKind := 0 })
  else if n = 0x801 then s.modCore core (fun k => { k with collieFull := 0 })
  else if n = 0x802 then s.modCore core (fun k => { k with fwdLate := 0 })
  else s
/-- A write of a system register (R8, R118, R143, R395): a register that may not be written ignores it. -/
def State.sysPut (s : State) (key n : Nat) (v : Word) : State :=
  let core := coreOf key
  let t := (s.core core).thsel
  if 0x400 ≤ n ∧ n ≤ 0x47F then
    let ch := (n - 0x400) / 2
    if n % 2 = 0 then s.modChan core ch (fun h => { h with entry := v.extractLsb' 2 50 })
    else s.modChan core ch (fun h => { h with
      prio := v.extractLsb' 0 2, enable := v.getLsbD 2, allot := v.getLsbD 3, atomh := v.getLsbD 4 })
  else if 0xC10 ≤ n then s.ringPut (selDeck t) (selBank t) (n - 0xC10) v
  else match n with
    | 0x012 => s.modCtx key (fun c => { c with waitLimit := v.extractLsb' 0 32 })
    | 0x018 => s.modCtx key (fun c => { c with fflags := v.extractLsb' 0 5 })
    | 0x019 => s.modCtx key (fun c => { c with frm := if (v.extractLsb' 0 3).toNat ≤ 4 then v.extractLsb' 0 3 else 0 })
    | 0x01A => s.modCtx key (fun c => { c with seed := if v = 0 then 1#64 <<< 63 else v })
    | 0x01B => s.modCore core (fun k => { k with aflags := k.aflags &&& ~~~(v.extractLsb' 0 5) })
    | 0xC00 => s.modCore core (fun k => { k with thsel := v.extractLsb' 0 12 })
    | 0xC02 => s.deckctlPut (selDeck t) v
    | 0xC04 => s.ringmovePut (selDeck t) (selBank t) v
    | _ => s
/-- SYSRD (R144). -/
def execSysrd (d : Reg) (n : BitVec 12) (s : State) : Out :=
  let key := s.sched.cur
  if svNumber n.toNat && !s.svc key then .next (trapNow s cPRIV)
  else setG (s.sysClear (coreOf key) n.toNat) d (s.sysValue key n.toNat)
/-- SYSWR (R144). -/
def execSyswr (a : Reg) (n : BitVec 12) (s : State) : Out :=
  let key := s.sched.cur
  if svNumber n.toNat && !s.svc key then .next (trapNow s cPRIV)
  else .next (retire (s.sysPut key n.toNat (rdG s.me a)))

/-! ### MSI-X (R390) -/

/-- A vector's MSI-X write sent upstream. -/
def State.msixSend (s : State) (v : Nat) : State :=
  let e := tabGet s.dev.msixTable v 0
  s.modDev (fun d => { d with msixPending := d.msixPending.filter (· != v)
                              out := d.out ++ [.msix v (e.extractLsb' 0 64) (e.extractLsb' 64 32)] })
/-- The vector may be sent now: MSI-X is enabled, and neither the function nor the vector is masked. -/
def Device.msixLets (d : Device) (v : Nat) : Bool := d.msixEnable && !d.msixFunctionMask && d.msixOpen.contains v
/-- A vector's interrupt: sent, or set pending. -/
def State.msixRaise (s : State) (v : Nat) : State :=
  if s.dev.msixLets v then s.msixSend v
  else s.modDev (fun d => { d with msixPending := if d.msixPending.contains v then d.msixPending else d.msixPending ++ [v] })
/-- IRQ (R390): the write is sent or pended as the instruction ends, so ST rises and falls with it. With ST at 63 it stalls (R179), and it
waits for everything that ST counts, a SEMWAIT.N until it is armed among it (R178, R428). -/
def execIrq (a : Reg) (s : State) : Out :=
  let x := rdG s.me a
  match s.jobOn s.myCore with
  | none => .next (trapAt s cPROT x)
  | some j =>
    if j.fld 3 32 12 ≤ x.toNat then .next (trapAt s cPROT x)
    else if 63 ≤ s.me.st ∨ s.me.pend.any (fun p => !p.load && decide (p.route = .unit) && !p.performed) then .next (blockOn s s.me.await 0)
    else released 2 s (fun s1 => .next (retire (s1.msixRaise (j.fld 3 21 11 + x.toNat))))

end Sys2Proof.Machine
end

