-- ==== Sys2Proof/Machine/Fold.lean ====
section
/-!
DEFINITION. What the data collectives write (R323, R324): the folds, and the reading and writing of members' buffers.
-/
namespace Sys2Proof.Machine

/-- A rank that is absent from the collective in progress (R324). -/
def absentKey : Nat := 2 ^ 20
/-- The key of a collective of a core in another package; keys of this package lie below `absentKey`. -/
def farKey (pkg core : Nat) : Nat := absentKey + 1 + core + 2 ^ 13 * pkg
/-- The operation of a key (core x 128 + slot). -/
def State.keyOp (s : State) (k : Nat) : Op := s.op (k / 128) (k % 128)
/-- The operation runs. -/
def State.runOp (s : State) (k : Nat) : State := s.modOp (k / 128) (k % 128) (fun o => { o with state := .running })
/-- The operation ends at once with a status. -/
def State.closeAt (s : State) (k : Nat) (status cause : BitVec 8) (word2 : Word) : State :=
  (s.runOp k).decideOp (k / 128) (k % 128) status cause word2
/-- SRC. -/
def collSrc (r : BitVec 512) : Nat := recFld r 256 52
/-- DST. -/
def collDst (r : BitVec 512) : Nat := recFld r 320 52
/-- LEN. -/
def collLen (r : BitVec 512) : Nat := recFld r 384 32
/-- ROOT. -/
def collRoot (r : BitVec 512) : Nat := recFld r 424 12
/-- DTYPE. -/
def collType (r : BitVec 512) : Nat := recFld r 436 4
/-- OP. -/
def collOp (r : BitVec 512) : Nat := recFld r 440 4
/-- A data collective. -/
def Form.isData : Form → Bool
  | .cred | .cbcast | .cgath | .crscat | .ca2a => true
  | _ => false

/-! ### Folds (R324) -/

/-- Bytes of an element of a DTYPE. -/
def typeBytes (t : Nat) : Nat := if t = 0 ∨ t = 3 then 4 else if t = 4 then 8 else 2
/-- Two elements combined: x before y. -/
def foldElem (t op x y : Nat) : Nat :=
  let w := 8 * typeBytes t
  if t ≤ 2 then
    let f := fmtOf t
    if op = 0 then (roundTo f 0 0 (sumExact 0 [unpack f x, unpack f y]).1).1 else (minMax f (op == 2) x y).1
  else if op = 0 then (x + y) % 2 ^ w
  else if op = 1 then (if signedOf w y < signedOf w x then y else x)
  else if op = 2 then (if signedOf w x < signedOf w y then y else x)
  else if op = 3 then x &&& y
  else if op = 4 then x ||| y
  else x ^^^ y
/-- Two runs of bytes combined element by element, for a number of elements. -/
def foldBytes (t op : Nat) : Nat → List Byte → List Byte → List Byte
  | 0, _, _ => []
  | n + 1, xs, ys =>
    let z := typeBytes t
    leBytes z (foldElem t op (leNat (xs.take z)) (leNat (ys.take z))) ++ foldBytes t op n (xs.drop z) (ys.drop z)
/-- Runs folded from the first on. -/
def foldAll (t op n : Nat) : List (List Byte) → List Byte
  | [] => []
  | x :: rest => rest.foldl (fun a y => foldBytes t op n a y) x
/-- The blocks of the sources that the present ranks use: the rank they come from and the block number there. -/
def collBlocks (f : Form) (root : Nat) (live : List Nat) : List (Nat × Nat) :=
  match f with
  | .cbcast => if live.contains root then [(root, 0)] else []
  | .crscat | .ca2a => live.flatMap (fun m => live.map (fun i => (m, i)))
  | _ => live.map (fun m => (m, 0))
/-- What is written at rank i: offsets in its DST with their bytes. -/
def collOut (f : Form) (r : BitVec 512) (live : List Nat) (block : Nat → Nat → List Byte) (i : Nat) : List (Nat × List Byte) :=
  let len := collLen r
  let n := len / typeBytes (collType r)
  let fold (j : Nat) : List Byte := foldAll (collType r) (collOp r) n (live.map (fun m => block m j))
  match f with
  | .cred => [(0, fold 0)]
  | .cbcast => if live.contains (collRoot r) then [(0, block (collRoot r) 0)] else []
  | .cgath => live.map (fun m => (m * len, block m 0))
  | .crscat => [(0, fold i)]
  | .ca2a => live.map (fun m => (m * len, block m i))
  | _ => []

/-! ### Members' buffers -/

/-- Bytes of a member's own address space, or the address and cause of a refusal; none while a line must first be
obtained (R206). -/
def State.collRead (s : State) (k a n : Nat) : State × Option (Except (Nat × BitVec 8) (List Byte)) :=
  let o := s.keyOp k
  let as := runAt a n
  let (s1, pg) := s.pages (clusterOf (k / 128)) o.asid o.svc .rd (pagesIn as)
  let place (x : Nat) : Except (BitVec 8) Nat := s1.placed o.asid o.svc pg x
  match lowestFault place as with
  | some (x, c) => (s1, some (.error (x, c)))
  | none =>
    let pls := as.map (fun x => (x, match place x with | .ok pl => pl | .error _ => x))
    if pls.any (fun q => s1.placeBusy o.asid q.2) then (s1, none)
    else match pls.findSome? (fun q => (s1.placeFault o.asid o.svc q.2).map (fun c => (q.1, c))) with
      | some e => (s1, some (.error e))
      | none => (s1, some (.ok (pls.map (fun q => s1.placeByte o.asid q.2))))
/-- What a block gave. -/
structure CollIn where
  rank : Nat
  block : Nat
  data : Option (Except (Nat × BitVec 8) (List Byte))
/-- Blocks read one after another. -/
def State.collReads (s : State) (ks : List Nat) : List (Nat × Nat) → State × List CollIn
  | [] => (s, [])
  | (m, i) :: t =>
    let k := ks.getD m absentKey
    let r := (s.keyOp k).record
    let (s1, d) := s.collRead k ((collSrc r + i * collLen r) % 2 ^ 52) (collLen r)
    let (s2, rest) := s1.collReads ks t
    (s2, { rank := m, block := i, data := d } :: rest)
/-- A block's bytes among those read. -/
def blockOf (ins : List CollIn) (m i : Nat) : List Byte :=
  match (ins.find? (fun x => x.rank == m && x.block == i)).bind (·.data) with
  | some (.ok b) => b
  | _ => []
/-- Cells of a member's DST in beats: written where `pick` says, up to the first refusal, each beat counted at the member's
barrier once the next one is performed (R251, R322). None while a line must first be obtained. -/
def State.collBeats (s : State) (k : Nat) (pick : Nat → Bool) : Nat → List Beat → Option (State × Option (Nat × BitVec 8))
  | _, [] => some (s, none)
  | i, b :: t =>
    let o := s.keyOp k
    if !pick i then s.collBeats k pick (i + 1) t
    else match s.placeWrite o.asid o.svc b.cells with
      | none => none
      | some (.error c) => some (s, some (b.va, c))
      | some (.ok s1) =>
        ((s1.countBytes (k / 128) o o.heldBytes false).modOp (k / 128) (k % 128) (fun y =>
          { y with bytes := y.bytes + b.cells.length, heldBytes := b.cells.length })).collBeats k pick (i + 1) t
/-- A member's DST written (R324): the state, and the first refusal. -/
def State.collWrite (s : State) (k : Nat) (pick : Nat → Bool) (out : List (Nat × List Byte)) : Option (State × Option (Nat × BitVec 8)) :=
  let o := s.keyOp k
  let cells := out.flatMap (fun p => cellsAt (collDst o.record + p.1) p.2)
  let (s1, pg) := s.pages (clusterOf (k / 128)) o.asid o.svc .wr (pagesIn (cells.map (fun c => c.1 % 2 ^ 52)))
  let placed := cells.map (fun c => (c.1 % 2 ^ 52, s1.placed o.asid o.svc pg (c.1 % 2 ^ 52), c.2))
  let good := placed.takeWhile (fun c => match c.2.1 with | .ok _ => true | .error _ => false)
  let beats := beatsOf (good.map (fun c => (c.1, (match c.2.1 with | .ok pl => pl | .error _ => c.1), c.2.2)))
  let miss : Option (Nat × BitVec 8) := match placed.drop good.length with
    | (a, .error c, _) :: _ => some (a, c)
    | _ => none
  match s1.collBeats k pick 0 beats with
  | none => none
  | some (s2, some e) => some (s2, some e)
  | some (s2, none) => some (s2, miss)
/-- Ranks that are present. -/
def liveRanks (ks : List Nat) : List Nat := (List.range ks.length).filter (fun m => ks.getD m absentKey != absentKey)
/-- The rank's operation is one of this package. -/
def hereRank (ks : List Nat) (m : Nat) : Bool := decide (ks.getD m absentKey < absentKey)
/-- Blocks of far ranks for a member that leaves the collective: free bytes, block by block. -/
def freeBlocks (fresh len : Nat) : List (Nat × Nat) → List CollIn
  | [] => []
  | (m, i) :: t => { rank := m, block := i, data := some (.ok ((List.range len).map (fun n => Config.recalled (fresh + n)))) } ::
      freeBlocks (fresh + len) len t
/-- A rank becomes absent from the collective in progress (R324): each of its locations is left written or unchanged
(R224; log entry 26). -/
def State.collAbsent (s : State) (g k : Nat) : State :=
  let x := s.group g
  let gone (y : Nat) : Nat := if y = k then absentKey else y
  if absentKey < k then s.setGroup g { x with running := x.running.map gone }
  else
    let i := x.running.findIdx (· == k)
    let r := (s.keyOp k).record
    let f := (s.keyOp k).form
    let live := liveRanks x.running
    let blocks := collBlocks f (collRoot r) live
    let farBlocks := blocks.filter (fun b => !hereRank x.running b.1)
    let (s1, ins) := s.collReads x.running (blocks.filter (fun b => hereRank x.running b.1))
    let all := ins ++ freeBlocks s1.sched.fresh (collLen r) farBlocks
    let got := ins.all (fun d => match d.data with | some (.ok _) => true | _ => false)
    let out := collOut f r live (blockOf all) i
    let s2 := match (if got then s1.collWrite k (fun n => Config.beatLands (s1.sched.fresh + n)) out else none) with
      | some (t, _) => t.refreshBy (out.foldl (fun (a : Nat) (p : Nat × List Byte) => a + p.2.length) (farBlocks.length * collLen r))
      | none => s1
    s2.setGroup g { x with running := x.running.map gone }
/-- The ranges of the buffers that a record of a collective of n members names: its SRC and its DST (R324). -/
def collBuffers (f : Form) (r : BitVec 512) (n : Nat) : List (Nat × Nat) :=
  let src := match f with | .crscat | .ca2a => n | _ => 1
  let dst := match f with | .cgath | .ca2a => n | _ => 1
  [(collSrc r, collLen r * src), (collDst r, collLen r * dst)]
/-- Accesses of a participant to buffers of the collective, made before it entered, are not all performed yet (R223). -/
def State.entering (s : State) (k : Nat) (bufs : List (Nat × Nat)) : Bool :=
  let o := s.keyOp k
  let within (a : Nat) : Bool := bufs.any (fun b => decide (b.1 ≤ a) && decide (a < b.1 + b.2))
  (s.corePends (k / 128)).any (fun q => decide (q.2.id < o.seq) && !q.2.ready && q.2.addrs.any within)

end Sys2Proof.Machine
end

