-- ==== Sys2Proof/Machine/Bar.lean ====
section
/-!
DEFINITION. Barriers (R304 to R314), group membership and group phases (R315 to R318), and the BAR group (R320, R321).
-/
namespace Sys2Proof.Machine

/-! ### Payloads (R308) -/

/-- The number of ones of a value. -/
def onesOf (v : Word) : Word := BitVec.ofNat 64 (popCount v)
/-- The identity of an operation. -/
def identOf (op : BitVec 3) : Word := if op = 0 then BitVec.allOnes 64 else 0
/-- An arrival's value combined into a payload. -/
def combine (op : BitVec 3) (pay v : Word) : Word :=
  if op = 0 then pay &&& v else if op = 1 then pay ||| v else if op = 2 then pay + v else pay + onesOf v
/-- Two payloads of one operation joined (R317; counts add, log entry 24). -/
def joinPays (op : BitVec 3) (x y : Word) : Word := if op = 3 then x + y else combine op x y

/-! ### Events at the owner (R309) -/

/-- The event must be held. -/
def Barrier.holds (b : Barrier) (e : BEvent) : Bool :=
  decide (b.mode ≠ .opn) ||
  (match e with
    | .arrive _ | .child _ _ _ | .withdraw => b.arr == b.expect
    | _ => false)
/-- bytes(n). -/
def Barrier.takeBytes (b : Barrier) (n : Nat) : Barrier :=
  if b.pend < n then { b with pend := 0, err := true } else { b with pend := b.pend - n }
/-- A positive BBYTES (R321). -/
def Barrier.addBytes (b : Barrier) (n : Nat) : Barrier :=
  if 2 ^ 32 - 1 < b.pend + n then { b with pend := 2 ^ 32 - 1, err := true } else { b with pend := b.pend + n }
/-- An event applied to an OPEN barrier. -/
def Barrier.apply (b : Barrier) : BEvent → Barrier
  | .arrive v => { b with arr := b.arr + 1, pay := combine b.op b.pay v }
  | .child v e w => { b with arr := b.arr + 1, pay := combine b.op b.pay v, err := b.err || e, wdn := b.wdn + w }
  | .withdraw => { b with arr := b.arr + 1, wdn := b.wdn + 1 }
  | .add n => b.addBytes n
  | .bytes n e => let x := b.takeBytes n; { x with err := x.err || e }
  | .error => { b with err := true }
/-- An event held: bytes are counted in HOLDB, and an error they carry is held as an error event. -/
def Barrier.hold (b : Barrier) : BEvent → Barrier
  | .bytes n e => { b with holdb := Nat.min (b.holdb + n) (2 ^ 32 - 1), queue := if e then b.queue ++ [.error] else b.queue }
  | e => { b with queue := b.queue ++ [e] }
/-- The event would take a place in the owner's queue. -/
def BEvent.queues : BEvent → Bool
  | .bytes _ e => e
  | _ => true
/-- A phase is complete. EXPECT 0, which no BINIT leaves, completes none (log entry 24). -/
def Barrier.complete (b : Barrier) : Bool :=
  decide (b.mode = .opn) && decide (b.expect ≠ 0) && b.arr == b.expect && (decide (b.pend = 0) || b.err)
/-- Events held in the queue of a core (R309: 64). -/
def State.heldEvents (s : State) (core : Nat) : Nat :=
  ((s.barriers.filter (fun p => p.1 / 1024 == core)).map (fun p => p.2.queue.length)).foldl (· + ·) 0

/-! ### Flips (R309 to R311, R314) -/

/-- The name of a barrier with a phase. -/
def barName (k phase : Nat) : Word := BitVec.ofNat 64 (k % 1024 + 2 ^ 10 * (k / 1024) + 2 ^ 32 * (phase % 2 ^ 16))
/-- A note fires (R311): from the owner to the issuing core. The time of the flip of a barrier that has not flipped since BINIT
is open (log entry 48). -/
def State.fireNote (s : State) (k : Nat) (n : Note) : State :=
  let b := s.bar k
  let t := b.lastTime.getD (Config.noFlipTime s.sched.fresh)
  let w3 := BitVec.ofNat 64 ((if b.lastErr then 1 else 0) + (if b.lastSelfW then 2 else 0) + 4 * (b.lastWdn % 2 ^ 13) + (if b.lastTree then 2 ^ 15 else 0))
  (s.refresh.modCore (k / 1024) (fun c => { c with notes := c.notes - 1 })).notifyFrom (k / 1024) n.core n.chan n.tag n.asid
    [barName k (b.phase - 1).toNat, b.lastPay, w3, t] true none
/-- The job runs on the core now. -/
def State.jobHere (s : State) (asid : BitVec 16) (core : Nat) : Bool := (s.core core).hasJob && (s.core core).asid == asid
/-- The linked children of a barrier of a job, those of cores that are switched out among them (R314, R359). -/
def State.childrenOf (s : State) (asid : BitVec 16) (k : Nat) : List Nat :=
  let mine (t : Tab Barrier) : List Nat := (t.filter (fun p => p.2.parent == some k)).map (·.1)
  (mine s.barriers).filter (fun c => s.jobHere asid (c / 1024)) ++
    (s.saved.filter (fun x => x.out && x.asid == asid)).flatMap (fun x => mine x.barriers)
/-- The job to which a group is allotted (R315). -/
def State.groupJob (s : State) (g : Nat) : Option Job := s.jobs.find? (fun j => (j.word (4 + g / 64)).getLsbD (g % 64))
/-- The group has members in more than one package (R313). -/
def State.fabricBar (s : State) (b : Barrier) : Bool :=
  match b.group with
  | some g => (s.group g).members.any (·.far)
  | none => false
/-- A flip: the outcome is kept, additions and HOLDB are applied, waiters of the barrier's job wake, notes fire, and the children
are told. -/
def State.flipBar (s : State) (k : Nat) (p : Word) (e : Bool) (w : Nat) (selfW tree : Bool) : State :=
  let b := s.bar k
  let asid := (s.core (k / 1024)).asid
  let b1 : Barrier := { b with
    lastTime := some s.time, lastPay := p, lastErr := e, lastWdn := w, lastSelfW := selfW, lastTree := tree
    phase := b.phase + 1, arr := 0, pay := identOf b.op, err := false, wdn := 0, mode := .opn, pend := b.reload
    queue := b.queue.filter (fun x => match x with | .add _ => false | _ => true) }
  let b2 := b.queue.foldl (fun x ev => match ev with | .add n => x.addBytes n | _ => x) b1
  let b3 := { b2.takeBytes b.holdb with holdb := 0, notes := [] }
  let s1 := s.setBar k b3
  let s2 : State := { s1 with ctxs := s1.ctxs.map (fun x => (x.1, match x.2.await with
    | .barrier key _ => if key = k ∧ s.jobHere asid (coreOf x.1) = true then { x.2 with wake := some (.bwait p (s.fabricBar b)) } else x.2
    | _ => x.2)) }
  let s3 := b.notes.foldl (fun s n => s.fireNote k n) s2
  (s.childrenOf asid k).foldl (fun s c => s.launchPkt (k / 1024) 0 0 0 (.flip c p e w selfW tree asid)) s3

/-! ### Groups (R315 to R318) -/

/-- Members ranked (R315). -/
def rankOrder (ms : List Member) : List Member :=
  sortBy (fun a b => decide (a.pkg < b.pkg) || (a.pkg == b.pkg && decide (a.core ≤ b.core))) ms
/-- The member is a core of this package. -/
def Member.at (m : Member) (core : Nat) : Bool := !m.far && m.core == core
/-- The rank of a core. -/
def rankOf (ms : List Member) (core : Nat) : Nat := (ms.findIdx? (fun m => m.at core)).getD 0
/-- A core's membership. -/
def Group.member (g : Group) (core : Nat) : Option Member := g.members.find? (fun m => m.at core)
/-- The barrier of a bound member of this package. -/
def Member.bar (m : Member) : Option Nat := if m.far then none else m.bound.map (fun i => m.core * 1024 + i)
/-- The group's job runs on the core now: a member whose job is switched out keeps the group waiting (R319). -/
def State.groupHere (s : State) (g core : Nat) : Bool :=
  match s.groupJob g, s.jobOn core with
  | some j, some k => j.asid == k.asid
  | _, _ => false
/-- The barrier of a member, in the saved image while its job is switched out (R359). -/
def State.groupBar (s : State) (g k : Nat) : Barrier :=
  if s.groupHere g (k / 1024) then s.bar k
  else match s.saved.find? (fun x => x.out && some x.asid == (s.groupJob g).map (·.asid) && x.barriers.any (fun p => p.1 == k)) with
    | some x => tabGet x.barriers k Barrier.initial
    | none => s.bar k
/-- The group is idle (R316): no phase holds an arrival, and no collective has started. -/
def State.groupIdle (s : State) (g : Nat) : Bool :=
  let x := s.group g
  x.running.isEmpty && x.members.all (fun m => if m.far then !m.busy && m.state.isNone else match m.bar with
    | some k => (s.groupBar g k).arr == 0 && decide ((s.groupBar g k).mode = .opn)
    | none => true)
/-- Word 2 of a COLL record (R326). -/
def collWord (rank nmem wdrawn : Nat) (rootGone tree drainOut : Bool) (gphase : BitVec 16) : Word :=
  BitVec.ofNat 64 (rank % 2 ^ 12 + 2 ^ 12 * nmem + 2 ^ 25 * wdrawn + (if rootGone then 2 ^ 38 else 0) + (if tree then 2 ^ 39 else 0) +
    (if drainOut then 2 ^ 40 else 0) + 2 ^ 48 * gphase.toNat)
/-- The running operations of a form on a core for a group. -/
def State.groupOps (s : State) (g core : Nat) (f : Form) : List Nat :=
  (s.ops.filter (fun p => p.1 / 128 == core && decide (p.2.state = .running) && decide (p.2.status = 0) && decide (p.2.form = f) &&
    p.2.unit.toNat == g)).map (·.1)
/-- Data collectives of a core for a group that wait to start, in the order of issue. -/
def State.collWaiting (s : State) (g core : Nat) : List Nat :=
  (sortBy (fun a b => decide (a.2.seq ≤ b.2.seq)) (s.ops.filter (fun p => p.1 / 128 == core && p.2.form.isData && p.2.unit.toNat == g &&
    decide (p.2.status = 0) && (decide (p.2.state = .pending) || decide (p.2.state = .queued))))).map (·.1)
/-- Collectives of a core numbered from its join on, or unnumbered (R324). -/
def State.numberOps (s : State) : Nat → List Nat → State
  | _, [] => s
  | n, k :: t => (s.modOp (k / 128) (k % 128) (fun o => { o with prog := n })).numberOps (if n = 0 then 0 else n + 1) t
/-- What a step does on a core of a job: there, or in the image while the job is switched out of the core (R359). -/
def State.onCoreOf (s : State) (asid : BitVec 16) (core : Nat) (f : State → State) : State :=
  if s.jobHere asid core then f s
  else match s.saved.find? (fun x => x.out && x.asid == asid && x.cores.any (fun p => p.1 == core)) with
    | none => s
    | some x =>
      let put (t : State) (c : Core) (bs : Tab Barrier) : State :=
        { t.modCore core (fun _ => c) with barriers := (t.barriers.filter (fun p => !(p.1 / 1024 == core))) ++ bs }
      let own (t : Tab Barrier) : Tab Barrier := t.filter (fun p => p.1 / 1024 == core)
      let t := f (put s (tabGet x.cores core Core.initial) (own x.barriers))
      let y : Saved := { x with cores := tabSet x.cores core (t.core core), barriers := (x.barriers.filter (fun p => !(p.1 / 1024 == core))) ++ own t.barriers }
      put { t with saved := t.saved.map (fun z => if z.out ∧ z.asid = asid ∧ z.parts = x.parts then y else z) } (s.core core) (own s.barriers)
/-- What a step does on a core of the group's job. -/
def State.onGroupCore (s : State) (g core : Nat) (f : State → State) : State :=
  match s.groupJob g with
  | some j => s.onCoreOf j.asid core f
  | none => s
/-- A barrier bound to no group any more. One of the group exchange is a complete barrier again, which goes on by itself (R309; log
entry 26). -/
def Barrier.unbound (b : Barrier) : Barrier := { b with group := none, mode := if b.mode = .exch then .opn else b.mode }
/-- The barrier of a member unbound. -/
def State.unbindBar (s : State) (m : Member) : State :=
  match m.bar with
  | some k => s.setBar k (s.bar k).unbound
  | none => s
/-- A member's binding changed: what its barrier had brought to the exchange is void. -/
def Member.rebound (m : Member) (b : Option Nat) : Member := { m with bound := b, busy := false, state := none }
/-- The members after the words of far members at a boundary, in the order they came. -/
def farBoundary (sequence : Nat) : List Member → List (Nat × Nat × FarWord) → List Member
  | ms, [] => ms
  | ms, (p, c, w) :: t =>
    let mine (m : Member) : Bool := m.far && m.pkg == p && m.core == c
    match w with
    | .join tree =>
      farBoundary sequence (if ms.any mine || decide (4096 ≤ ms.length) then ms else ms ++ [{ pkg := p, core := c, task := 0, tree := tree
                                                                                              issued := sequence, leaving := false, bound := none
                                                                                              state := none, far := true : Member }]) t
    | .leave => farBoundary sequence (ms.filter (fun m => !mine m)) t
    | .bind on => farBoundary sequence (ms.map (fun m => if mine m && m.bound.isSome != on then m.rebound (if on then some 0 else none) else m)) t
    | _ => farBoundary sequence ms t
/-- A group boundary (R316): leaves, joins and bindings take effect, ranks are recomputed, and the operations that waited for
it are decided (R325). The barrier of a core whose job is switched out is bound and unbound in its image (R359). -/
def State.boundary (s : State) (g : Nat) : State :=
  let x := s.group g
  let gone := x.members.filter (fun m => !m.far && m.leaving)
  let s1 := gone.foldl (fun s m => s.onGroupCore g m.core (fun s => s.unbindBar m)) s
  let kept := x.members.filter (fun m => m.far || !gone.any (fun y => y.core == m.core))
  let room := 4096 - kept.length
  let ins := x.joining.take room
  let new := ins.map (fun j => { pkg := ((s.groupJob g).map (fun j => j.fld 0 32 12)).getD 0, core := j.1, task := j.2.2.1, tree := j.2.2.2
                                 issued := x.sequence + (s.collWaiting g j.1).length
                                 leaving := false, bound := none, state := none : Member })
  let members := rankOrder (farBoundary x.sequence (kept ++ new) x.farWords)
  -- the barrier of a core that leaves at this boundary is not bound at it
  let binds := x.binding.filter (fun b => members.any (fun m => m.at b.1))
  let bound := members.map (fun m => binds.foldl (fun m b =>
    if m.at b.1 && (m.bound == some b.2.1) == b.2.2 then m.rebound (if b.2.2 then none else some b.2.1) else m) m)
  let s2 := s1.setGroup g { x with members := bound, joining := [], binding := [], wasEmpty := x.wasEmpty || bound.isEmpty, farWords := [] }
  let s3 := binds.foldl (fun s b => s.onGroupCore g b.1 (fun s =>
    let y := s.bar (b.1 * 1024 + b.2.1)
    s.setBar (b.1 * 1024 + b.2.1) (if !b.2.2 then { y with group := some g } else if y.group = some g then y.unbound else y))) s2
  let n := bound.length
  let s4 := ins.foldl (fun s j => s.decideOp j.1 j.2.1 0x01 0 (collWord (rankOf bound j.1) n 0 false false false x.gphase)) s3
  let s5 := (x.joining.drop room).foldl (fun s j => s.decideOp j.1 j.2.1 0x10 cBARBAD (collWord 0 n 0 false false false x.gphase)) s4
  let s6 := ins.foldl (fun s j => s.numberOps (x.sequence + 1) (s.collWaiting g j.1)) s5
  gone.foldl (fun s m => (s.groupOps g m.core .gleave).foldl (fun s k =>
    s.decideOp (k / 128) (k % 128) 0x01 0 (collWord 0 n 0 false false false x.gphase)) (s.numberOps 0 (s.collWaiting g m.core))) s6
/-- Every bound barrier of the membership has brought its state to the exchange (R317). -/
def State.gathered (s : State) (g : Nat) : Bool :=
  let bs := (s.group g).members.filter (fun m => m.bound.isSome)
  !bs.isEmpty && bs.all (fun m => m.state.isSome && (m.far || s.groupHere g m.core))
/-- The phase runs on the tree (R317). -/
def Group.usesTree (x : Group) : Bool := x.onTree || x.wasEmpty || x.members.any (fun m => m.tree)
/-- A group phase completes (R317): every bound barrier flips with the same values, GPHASE advances, and a boundary follows.
The barriers that flipped. -/
def State.groupPhase (s : State) (g : Nat) : State × List Nat :=
  let x := s.group g
  if !s.gathered g then (s, [])
  else
    let ms := x.members.filter (fun m => m.bound.isSome)
    let ks := ms.filterMap Member.bar
    let op := (s.bar (ks.headD 0)).op
    let one := ks.all (fun k => (s.bar k).op == op)
    let sts := ms.filterMap (·.state)
    let pay := if one then sts.foldl (fun a t => joinPays op a t.1) (identOf op) else Config.mixedPay s.sched.fresh
    let err := sts.any (fun t => t.2.1)
    let wdn := sts.foldl (fun a t => a + t.2.2) x.wdn
    let s1 := s.refresh.setGroup g { x with
      gphase := x.gphase + 1, onTree := false, wdn := 0, wasEmpty := false, members := x.members.map (fun m => { m with state := none, busy := false }) }
    ((ks.foldl (fun s k => s.flipBar k pay err wdn false x.usesTree) s1).boundary g, ks)
/-- A member's barrier brings its state to the exchange (R317). -/
def State.bringState (s : State) (g core : Nat) (st : Word × Bool × Nat) : State :=
  let x := s.group g
  s.setGroup g { x with members := x.members.map (fun m => if m.at core then { m with state := some st } else m) }

/-- A complete barrier goes on to its parent, to its group, or flips (R309). What may go on after it. -/
def State.completeBar (s : State) (k : Nat) : State × List Nat :=
  let b := s.bar k
  match b.parent with
  | some p =>
    ((s.setBar k { b with mode := .held }).launchPkt (k / 1024) 0 0 0 (.barrier p (.child b.pay b.err b.wdn) (s.core (k / 1024)).asid), [])
  | none =>
    match b.group with
    | some g =>
      let s1 := s.setBar k { b with mode := .exch }
      -- a lone barrier has nobody to exchange with
      if ((s1.group g).members.filter (fun m => m.bound.isSome)).length = 1 then
        (s1.bringState g (k / 1024) (b.pay, b.err, b.wdn)).groupPhase g
      else (s1, [])
    | none => (s.flipBar k b.pay b.err b.wdn false false, [k])
/-- Barriers brought to rest: a complete one goes on, held events that may be applied are applied in arrival order. -/
def State.settleBars (s : State) : Nat → List Nat → State
  | 0, _ => s
  | _, [] => s
  | n + 1, k :: rest =>
    let b := s.bar k
    if b.complete then
      let (s1, ks) := s.completeBar k
      s1.settleBars n (ks ++ rest)
    else match b.queue.findIdx? (fun e => !b.holds e) with
      | some i =>
        match b.queue[i]? with
        | some e => (s.setBar k ({ b with queue := b.queue.eraseIdx i }.apply e)).settleBars n (k :: rest)
        | none => s.settleBars n rest
      | none => s.settleBars n rest
/-- Enough turns for every held event and the flips that follow it. -/
def State.barFuel (s : State) : Nat :=
  let q := (s.barriers.map (fun p => p.2.queue.length)).foldl (· + ·) 0
  (q + 2) * (s.barriers.length + 4) + 16
/-- Barriers brought to rest. -/
def State.restBars (s : State) (ks : List Nat) : State := s.settleBars s.barFuel ks
/-- An event reaches a barrier that its job has here (R309). -/
def State.barEvent (s : State) (k : Nat) (e : BEvent) : State :=
  let b := s.bar k
  if b.holds e then s.setBar k (b.hold e) else (s.setBar k (b.apply e)).restBars [k]

/-! ### Withdrawal (R318) -/

/-- The collectives of a member that is withdrawn (R318, R324): the one in progress ends as given and its rank is absent;
those that wait end so too when it is the drain that failed (R319), and have no number any more otherwise. -/
def State.withdrawOps (s : State) (g core : Nat) (status cause : BitVec 8) (drainOut : Bool) : State :=
  let x := s.group g
  let run := x.running.filter (fun k => k != absentKey && k / 128 == core)
  let word (k : Nat) : Word := collWord (x.running.findIdx (· == k)) x.running.length
    (1 + (x.running.filter (· == absentKey)).length) false true drainOut x.gphase
  let s1 := run.foldl (fun s k => (s.collAbsent g k).decideOp (k / 128) (k % 128) status cause (word k)) s
  let wait := s.collWaiting g core
  if drainOut then
    wait.foldl (fun s k => s.finishOp (k / 128) (k % 128) .faulted status cause (collWord 0 (x.members.length) 0 false false true x.gphase)) s1
  else s1.numberOps 0 wait
/-- A boundary, if the group is idle (R316). -/
def State.boundaryIfIdle (s : State) (g : Nat) : State := if s.groupIdle g then s.boundary g else s
/-- The group phase goes on, and what it set free with it; a group that is idle then takes up what waits for a boundary (R316). -/
def State.goOn (s : State) (g : Nat) : State :=
  let (s1, ks) := s.groupPhase g
  (s1.restBars ks).boundaryIfIdle g
/-- A member is removed at once (R318): its barrier is unbound and flips with its own values, its collectives end as given, and
the phase in progress goes on without it, on the tree. -/
def State.withdraw (s : State) (g core : Nat) (status cause : BitVec 8) (drainOut : Bool) : State :=
  match (s.group g).member core with
  | none => s
  | some m =>
    let s1 := s.withdrawOps g core status cause drainOut
    let x := s1.group g
    let hit := decide (x.running ≠ (s.group g).running)
    let s2 := s1.setGroup g { x with
      members := x.members.filter (fun y => !y.at core), onTree := true, wdn := x.wdn + 1
      binding := x.binding.filter (fun b => b.1 != core), treeRun := x.treeRun || hit
      wasEmpty := x.wasEmpty || decide (x.members.length ≤ 1) }
    let s3 := (s2.groupOps g core .gleave).foldl (fun s k =>
      s.decideOp (k / 128) (k % 128) 0x01 0 (collWord 0 (x.members.length - 1) 0 false false false x.gphase)) s2
    let s4 := match m.bar with
      | some k => s3.onGroupCore g core (fun s =>
            let b := s.bar k
            ((s.unbindBar m).flipBar k b.pay b.err b.wdn true false).restBars [k])
      | none => s3
    s4.goOn g
/-- GROUP_WITHDRAWAL (R318): a member whose task is dead is withdrawn. -/
def execGroupWithdrawal (group core : Nat) (s : State) : Out :=
  match (s.group group).member core with
  | some m => match s.groupJob group with
    | some j => if s.deadTag j.asid m.task then .next (s.withdraw group core 0x11 0x42 false) else .next s
    | none => .next s
  | none => .next s

/-- A word of a core in another package about a group (R315 to R318, R324; log entry 26): joins, leaves and bindings wait for
the boundary unless the group is idle. -/
def State.farWord (s : State) (g pkg core : Nat) (w : FarWord) : State :=
  let x := s.group g
  let key := farKey pkg core
  let mine (m : Member) : Bool := m.far && m.pkg == pkg && m.core == core
  let later : State :=
    let s1 := s.setGroup g { x with farWords := x.farWords ++ [(pkg, core, w)] }
    if s1.groupIdle g then s1.boundary g else s1
  match x.members.find? mine with
  | none => match w with
    | .join _ => if s.groupJob g = none ∨ (s.groupJob g).map (fun j => j.fld 0 32 12) = some pkg then s else later
    | _ => s
  | some m => match w with
    | .join _ => s
    | .leave => later
    | .bind _ => later
    | .arrival => s.setGroup g { x with members := x.members.map (fun m => if mine m then { m with busy := m.bound.isSome } else m) }
    | .issue sub r =>
      if sub < 2 ∨ 6 < sub then s
      else s.setGroup g { x with
        members := x.members.map (fun m => if mine m then { m with issued := m.issued + 1 } else m)
        farOps := x.farOps ++ [{ key := key, no := m.issued + 1, sub := sub, record := r }] }
    | .cancel no =>
      let s1 := if no = x.sequence + 1 ∧ x.running.contains key = true then s.collAbsent g key else s
      s1.setGroup g { s1.group g with farOps := x.farOps.filter (fun o => !(o.key == key && o.no == no)) }
    | .withdraw =>
      let hit := x.running.contains key
      let s1 := if hit then s.collAbsent g key else s
      (s1.setGroup g { s1.group g with
        members := x.members.filter (fun m => !mine m), onTree := true, wdn := x.wdn + 1, treeRun := x.treeRun || hit
        farWords := x.farWords.filter (fun p => !(p.1 == pkg && p.2.1 == core)), farOps := x.farOps.filter (fun o => o.key != key)
        wasEmpty := x.wasEmpty || decide (x.members.length ≤ 1) }).goOn g
/-- GROUP_EXCHANGE_ROUND (R317): the state of the member of a rank reaches the exchange; or a Slalom unit learns of a member in
another package. -/
def execGroupExchangeRound (group rank : Nat) (pay : Word) (err : Bool) (wdn : Nat) (far : Option (Nat × Nat × FarWord)) (s : State) : Out :=
  match far with
  | some (pkg, core, w) => .next (s.farWord group pkg core w)
  | none =>
  match (s.group group).members[rank]? with
  | none => .next s
  | some m =>
    match m.bar with
    | none =>
      if m.far = false ∨ m.bound = none ∨ m.state.isSome = true then .next s
      else
        let x := s.group group
        .next ((s.setGroup group { x with members := x.members.map (fun n =>
          if n.far && n.pkg == m.pkg && n.core == m.core then { n with state := some (pay, err, wdn) } else n) }).goOn group)
    | some k =>
      let b := s.bar k
      if b.mode ≠ .exch ∨ s.groupHere group m.core = false ∨ b.pay ≠ pay ∨ b.err ≠ err ∨ b.wdn ≠ wdn then .next s
      else
        let (s1, ks) := (s.bringState group m.core (pay, err, wdn)).groupPhase group
        .next (s1.restBars ks)

/-! ### BARRIER messages (R320) -/

/-- The barrier that a packet is for. -/
def Pkt.bar : Pkt → Option Nat
  | .barrier k _ _ => some k
  | .bnote k _ => some k
  | _ => none
/-- The packet is a child's arrival at its parent. -/
def Pkt.fromChild : Pkt → Bool
  | .barrier _ (.child _ _ _) _ => true
  | _ => false
/-- Two packets come from one context, or from the operations of one core, or from the barriers of one core. -/
def Flight.sameSource (x f : Flight) : Bool :=
  x.src == f.src && x.key == f.key && (x.op == 0) == (f.op == 0) && x.body.fromChild == f.body.fromChild
/-- The packet is the first on its way from its source to its barrier (R309). -/
def State.barFirst (s : State) (f : Flight) : Bool :=
  !s.flights.any (fun x => decide (x.id < f.id) && x.sameSource f && x.body.bar.isSome && x.body.bar == f.body.bar)
/-- BARRIER_EVENT (R309, R311, R318, R353): an event or a note reaches the owner. While its job is switched out it waits; one of
a killed task is performed or discarded. -/
def execBarrierEvent (id : Nat) (s : State) : Out :=
  match s.flights.find? (fun f => f.id == id) with
  | none => .next s
  | some f =>
    if !s.barFirst f then .next s
    else
      let done (s : State) : State := (s.dropFlight id).answer f.key f.op .done
      match f.body with
      | .barrier k e asid =>
        if !s.jobHere asid (k / 1024) then (if s.jobLive asid then .next s else .next (done s))
        else if s.packetLost asid f.tag then .next (done s.refresh)
        else match e, (s.bar k).group with
          | .withdraw, some g => .next (done (s.withdraw g (k / 1024) 0x11 0x41 false))
          | _, _ =>
            if (s.bar k).holds e && e.queues && decide (64 ≤ s.heldEvents (k / 1024)) then .next s
            else .next (done (s.barEvent k e))
      | .bnote k n =>
        if !s.jobHere n.asid (k / 1024) then (if s.jobLive n.asid then .next s else .next (done s))
        else if s.packetLost n.asid f.tag then
          .next (done (s.refresh.modCore (k / 1024) (fun c => { c with notes := c.notes - 1 })))
        else if (s.bar k).phase.toNat ≠ n.phase then .next (done (s.fireNote k n))
        else .next (done (s.setBar k { s.bar k with notes := (s.bar k).notes ++ [n] }))
      | _ => .next s
/-- PARENT_FLIP (R314): a child flips with its parent's values. While its job is switched out it waits. -/
def execParentFlip (id : Nat) (s : State) : Out :=
  match s.flights.find? (fun f => f.id == id) with
  | none => .next s
  | some f =>
    match f.body with
    | .flip k pay err wdn selfW tree asid =>
      if !s.jobHere asid (k / 1024) then (if s.jobLive asid then .next s else .next (s.dropFlight id))
      else if (s.bar k).parent = none then .next (s.dropFlight id)
      else .next (((s.flipBar k pay err wdn selfW tree).restBars [k]).dropFlight id)
    | _ => .next s

/-! ### The BAR group (R321) -/

/-- trap(BARBAD) at a name. -/
def barBad (s : State) (x : Word) : Out := .next (trapAt s cBARBAD x)
/-- The checks common to the BAR group: the name is not refused, and its owner is the issuing core where the form asks it. -/
def withBar (own : Bool) (a : Reg) (s : State) (k : Word → Nat → Out) : Out :=
  let x := rdG s.me a
  if s.barRefused s.sched.cur x || (own && barKey x / 1024 != s.myCore) then barBad s x else k x (barKey x)
/-- An answer of the barrier's owner must be waited for: the context's own operations on it are still on their way (R309), or its
job is switched out there. -/
def State.barOnWay (s : State) (k : Nat) : Bool :=
  s.flights.any (fun f => f.key == s.sched.cur && f.op != 0 && f.body.bar == some k) || !s.jobHere (s.core s.myCore).asid (k / 1024)
/-- The wait for an owner's answer, a blocking wait (R356). -/
def ownerWait (s : State) : Out := .next (blockOn s .nothing 0)
/-- A counted operation leaves for the owner of a barrier: ST rises until it is applied or queued. -/
def sendCounted (s : State) (body : Pkt) : Out :=
  let key := s.sched.cur
  let c := s.me
  let id := s.sched.nextId
  let p : Pend := { id := id, load := false, route := .unit, dst := .none, addrs := [], cells := [], parts := 1, reply := none
                    acq := 0, counted := true, pc := c.pc, word := c.ir, ea := 0, serial := 0 }
  let s1 := s.bump.setCtx key { c with st := c.st + 1, pend := c.pend ++ [p] }
  .next (retire (s1.launchPkt s.myCore c.taskTag key id body))
/-- A counted release to a barrier (R313). -/
def sendEvent (s : State) (k : Nat) (e : BEvent) : Out :=
  if 63 ≤ s.me.st then .next (blockOn s s.me.await 0)
  else released 2 s (fun s => sendCounted s (.barrier k e (s.core s.myCore).asid))

/-- BINIT (R307, R321): behind the context's own operations on the barrier (R309). Events held there are applied to the barrier
it loads (log entry 48). -/
def execBinit (a b : Reg) (s : State) : Out :=
  withBar true a s (fun x k =>
    let p := rdG s.me b
    if p.extractLsb' 0 5 ≠ 0 then .next (trapAt s cMISALIGN p)
    else if s.barOnWay k then ownerWait s
    else readNow s true (runAt (tagVa p) 32) (fun s bytes =>
      let rec' : BitVec 256 := BitVec.ofNat 256 (leNat bytes)
      let f (lo n : Nat) : Nat := (rec'.extractLsb' lo n).toNat
      let y := s.bar k
      let awaited := s.ctxs.any (fun p => p.2.wake.isNone && s.jobHere (s.core s.myCore).asid (coreOf p.1) &&
        (match p.2.await with | .barrier key _ => key == k | _ => false))
      if f 0 16 = 0 ∨ 3 < f 16 3 ∨ f 19 13 ≠ 0 ∨ f 96 160 ≠ 0 then barBad s x
      else if decide (y.mode ≠ .opn) || y.parent.isSome || decide (y.nchild ≠ 0) || y.group.isSome || awaited || !y.notes.isEmpty then
        barBad s x
      else .next (retire ((s.setBar k { Barrier.initial with
        expect := f 0 16, op := BitVec.ofNat 3 (f 16 3), reload := f 32 32, pend := f 64 32, pay := identOf (BitVec.ofNat 3 (f 16 3))
        queue := y.queue }).restBars [k]))))
/-- BARR (R321). -/
def execBarr (a b : Reg) (s : State) : Out := withBar false a s (fun _ k => sendEvent s k (.arrive (rdG s.me b)))
/-- BWDRAW (R321). -/
def execBwdraw (a : Reg) (s : State) : Out := withBar false a s (fun _ k => sendEvent s k .withdraw)
/-- BBYTES (R321). -/
def execBbytes (a b : Reg) (s : State) : Out :=
  let n := (rdG s.me b).toInt
  withBar false a s (fun _ k => sendEvent s k (if 0 ≤ n then .add n.toNat else .bytes n.natAbs false))
/-- BNOTE (R311, R321): the note's place in the owner's pool is taken at issue. -/
def execBnote (a b : Reg) (s : State) : Out :=
  withBar false a s (fun x k =>
    let y := rdG s.me b
    let ch := (y.extractLsb' 0 6).toNat
    if y.extractLsb' 6 58 ≠ 0 then barBad s x
    else if s.chanBad s.sched.cur ch then chanBadAt s ch
    else if s.jobHere (s.core s.myCore).asid (k / 1024) = false ∨ 256 ≤ (s.core (k / 1024)).notes ∨ 63 ≤ s.me.st then ownerWait s
    else
      let n : Note := { core := s.myCore, chan := ch, tag := s.me.taskTag, asid := (s.core s.myCore).asid
                        phase := (x.extractLsb' 32 16).toNat, name := x }
      sendCounted (s.modCore (k / 1024) (fun c => { c with notes := c.notes + 1 })) (.bnote k n))
/-- BWAIT (R310, R321): released by the flip, whose payload it returns; it acquires. -/
def execBwait (d a : Reg) (s : State) : Out :=
  withBar false a s (fun x k =>
    let b := s.bar k
    match s.me.wake with
    | some (.bwait pay _) => setG (s.acquire s.myCore) d pay
    | _ =>
      if s.barOnWay k then ownerWait s
      else if b.phase ≠ x.extractLsb' 32 16 then setG (s.acquire s.myCore) d b.lastPay
      else .next (blockOn s (.barrier k b.phase.toNat) 0))
/-- The words of R312. -/
def Barrier.stat (b : Barrier) (sel : Nat) : Word :=
  let bit (x : Bool) (n : Nat) : Nat := if x then 2 ^ n else 0
  let mode : Nat := match b.mode with | .opn => 0 | .held => 1 | .exch => 2
  if sel = 0 then BitVec.ofNat 64 (b.arr + 2 ^ 16 * b.phase.toNat + bit b.err 32 + 2 ^ 33 * mode + bit b.parent.isSome 35 +
    bit b.group.isSome 36 + bit b.lastErr 37 + bit b.lastSelfW 38 + bit b.lastTree 39 + 2 ^ 40 * (b.lastWdn % 2 ^ 13) + 2 ^ 53 * b.nchild)
  else if sel = 1 then BitVec.ofNat 64 (b.pend + 2 ^ 32 * b.expect + 2 ^ 48 * b.op.toNat)
  else if sel = 2 then b.lastPay
  else b.pay
/-- BSTAT (R312, R321): behind the context's own operations on the barrier. -/
def execBstat (d a : Reg) (s : State) : Out :=
  withBar false a s (fun x k =>
    if s.barOnWay k then ownerWait s else setG s d ((s.bar k).stat (x.extractLsb' 48 2).toNat))
/-- BLINK (R314, R321). -/
def execBlink (a b : Reg) (s : State) : Out :=
  withBar true a s (fun x k =>
    let y := rdG s.me b
    let p := barKey y
    let c := s.bar k
    if y ≠ 0 ∧ (s.barRefused s.sched.cur y = true ∨ p = k) then barBad s y
    else if s.barOnWay k || (decide (y ≠ 0) && !s.jobHere (s.core s.myCore).asid (p / 1024)) ||
        (match c.parent with | some q => !s.jobHere (s.core s.myCore).asid (q / 1024) | none => false) then ownerWait s
    else if c.mode ≠ .opn ∨ c.arr ≠ 0 ∨ c.group.isSome = true then barBad s x
    else if y ≠ 0 ∧ 64 ≤ (s.bar p).nchild then barBad s y
    else
      let s1 := match c.parent with
        | some q => s.setBar q { s.bar q with nchild := (s.bar q).nchild - 1 }
        | none => s
      let s2 := s1.setBar k { s1.bar k with parent := if y = 0 then none else some p }
      .next (retire (if y = 0 then s2 else s2.setBar p { s2.bar p with nchild := (s2.bar p).nchild + 1 })))
/-- A group index outside the issuing job's allotment (R315). -/
def State.groupRefused (s : State) (g : Nat) : Bool :=
  match s.jobOn s.myCore with
  | some j => !(j.word (4 + g / 64)).getLsbD (g % 64)
  | none => true
/-- BBIND (R316, R321): at once when the group is idle, else at the next boundary. -/
def execBbind (a b : Reg) (s : State) : Out :=
  withBar true a s (fun x k =>
    let y := rdG s.me b
    let g := (y.extractLsb' 0 8).toNat
    let unbind := y.getLsbD 8
    let grp := s.group g
    if y.extractLsb' 9 55 ≠ 0 ∨ s.groupRefused g = true then barBad s x
    else if s.barOnWay k then ownerWait s
    else if (s.bar k).parent.isSome = true ∨ (match grp.member s.myCore with | some m => m.leaving | none => true) = true then barBad s x
    else if unbind = false ∧ grp.members.any (fun m => m.at s.myCore && m.bound.isSome && m.bound != some (k % 1024)) = true then barBad s x
    else
      let s1 := s.setGroup g { grp with binding := grp.binding ++ [(s.myCore, k % 1024, unbind)] }
      .next (retire (if s.groupIdle g then s1.boundary g else s1)))

end Sys2Proof.Machine
end

