-- ==== Sys2Proof/Machine/Coll.lean ====
section
/-!
DEFINITION. The COLL group (R322 to R326): joins and leaves, the matching of collectives, their results, and the drain at a
job switch (R319).
-/
namespace Sys2Proof.Machine

/-! ### Issue (R322, R323) -/

/-- GROUP of a COLL record. -/
def collGroup (f : Form) (r : BitVec 512) : Nat := if f.isData then recFld r 416 8 else recFld r 256 8
/-- A COLL body breaks its map. -/
def collBad (f : Form) (_ : State) (r : BitVec 512) : Bool :=
  if f.isData then
    let red := decide (f = .cred) || decide (f = .crscat)
    decide (collSrc r % 64 ≠ 0) || decide (collDst r % 64 ≠ 0) || decide (collLen r % 64 ≠ 0) || decide (collLen r = 0) ||
    (decide (f ≠ .cbcast) && decide (collRoot r ≠ 0)) ||
    (if red then decide (4 < collType r) || decide (5 < collOp r) || (decide (3 ≤ collOp r) && decide (collType r ≤ 2))
     else decide (collType r ≠ 0) || decide (collOp r ≠ 0)) ||
    decide (recFld r 444 68 ≠ 0)
  else decide (recFld r 265 247 ≠ 0) || (decide (f = .gleave) && r.getLsbD 264)
/-- A buffer's address is refused (R284). -/
def bufferCheck : List Nat → Except (BitVec 8 × Word) Unit
  | [] => .ok ()
  | a :: t =>
    if regionOf a = 0xD ∨ regionOf a = 0xF then .error (cXLATE, BitVec.ofNat 64 a)
    else if regionOf a = 0xE then .error (cENGBAD, 0)
    else bufferCheck t
/-- The checks of a COLL form: its addresses, and the allotment of its group (log entry 22). -/
def collCheck (f : Form) (s : State) (r : BitVec 512) : Except (BitVec 8 × Word) (List (Nat × Nat)) :=
  match bufferCheck (if f.isData then [collSrc r, collDst r] else []) with
  | .error e => .error e
  | .ok () => if s.groupRefused (collGroup f r) then .error (cBARBAD, 0) else .ok []
/-- The rules of a COLL form. -/
def rulesColl (f : Form) : FormRules :=
  { form := f, bad := collBad f, check := collCheck f, unit := fun _ r => BitVec.ofNat 12 (collGroup f r), entries := noEntries }
/-- A data collective just issued in a slot is numbered at its core's membership (R324). -/
def State.countIssued (s : State) (core slot : Nat) : State :=
  let o := s.op core slot
  if o.form.isData && decide (o.state ≠ .free) then
    let x := s.group o.unit.toNat
    match x.member core with
    | some m =>
      (s.setGroup o.unit.toNat { x with members := x.members.map (fun y =>
        if y.at core then { y with issued := m.issued + 1 } else y) }).setOp core slot { o with prog := m.issued + 1 }
    | none => s
  else s
/-- The issue of a COLL form: the slot that was the lowest free one holds the operation, if one was created. -/
def issueColl (f : Form) (d a b : Reg) (x : BitVec 1) (p : BitVec 2) (n k : BitVec 1) (s : State) : Out :=
  match issueOp (rulesColl f) d a b x p n k s, s.freeSlotNo s.myCore with
  | .next t, some slot => .next (t.countIssued s.myCore slot)
  | o, _ => o
/-- GJOIN (R325). -/
def execGjoin (d a b : Reg) (x : BitVec 1) (p : BitVec 2) (n k : BitVec 1) (s : State) : Out := issueColl .gjoin d a b x p n k s
/-- GLEAVE (R325). -/
def execGleave (d a b : Reg) (x : BitVec 1) (p : BitVec 2) (n k : BitVec 1) (s : State) : Out := issueColl .gleave d a b x p n k s
/-- CRED (R324). -/
def execCred (d a b : Reg) (x : BitVec 1) (p : BitVec 2) (n k : BitVec 1) (s : State) : Out := issueColl .cred d a b x p n k s
/-- CBCAST (R324). -/
def execCbcast (d a b : Reg) (x : BitVec 1) (p : BitVec 2) (n k : BitVec 1) (s : State) : Out := issueColl .cbcast d a b x p n k s
/-- CGATH (R324). -/
def execCgath (d a b : Reg) (x : BitVec 1) (p : BitVec 2) (n k : BitVec 1) (s : State) : Out := issueColl .cgath d a b x p n k s
/-- CRSCAT (R324). -/
def execCrscat (d a b : Reg) (x : BitVec 1) (p : BitVec 2) (n k : BitVec 1) (s : State) : Out := issueColl .crscat d a b x p n k s
/-- CA2A (R324). -/
def execCa2a (d a b : Reg) (x : BitVec 1) (p : BitVec 2) (n k : BitVec 1) (s : State) : Out := issueColl .ca2a d a b x p n k s

/-! ### Joins, leaves and strays (R316, R324, R325) -/

/-- A GJOIN of the core for the group has not ended. -/
def State.joinsYet (s : State) (g core : Nat) : Bool :=
  s.ops.any (fun p => p.1 / 128 == core && decide (p.2.form = .gjoin) && p.2.unit.toNat == g && decide (p.2.state ≠ .free) &&
    !p.2.state.terminal)
/-- One QUEUED operation of the group taken up: a join or a leave waits for the boundary; a collective of a core that is no
member ends. -/
def State.takeUp (s : State) (g k : Nat) : State :=
  let core := k / 128
  let o := s.keyOp k
  let x := s.group g
  let mem := x.member core
  let coming := x.joining.any (fun j => j.1 == core)
  let word (rank : Nat) : Word := collWord rank x.members.length 0 false false false x.gphase
  match o.form with
  | .gjoin =>
    if mem.isSome then s.closeAt k 0x01 0 (word (rankOf x.members core))
    else if coming then s
    else ((s.runOp k).setGroup g { x with joining := x.joining ++ [(core, k % 128, o.task, o.record.getLsbD 264)] }).boundaryIfIdle g
  | .gleave =>
    if mem.isSome then
      ((s.runOp k).setGroup g { x with members := x.members.map (fun m => if m.at core then { m with leaving := true } else m) }).boundaryIfIdle g
    else s.closeAt k 0x01 0 (word 0)
  | _ => if mem.isSome || coming || s.joinsYet g core then s else s.closeAt k 0x10 cBARBAD (word 0)
/-- QUEUED operations of a group, in the order of issue. -/
def State.groupQueued (s : State) (g : Nat) : List Nat :=
  (sortBy (fun a b => decide (a.2.seq ≤ b.2.seq))
    (s.ops.filter (fun p => p.2.form.cls == 2 && p.2.unit.toNat == g && decide (p.2.state = .queued)))).map (·.1)

/-! ### The collective in turn (R324) -/

/-- What a member brings to the collective of a number: nothing yet, its absence, its operation, or that of a far member. -/
inductive Brought where
  | notYet
  | absent
  | op (k : Nat)
  | far (k : Nat)
  deriving DecidableEq, Repr
/-- What a member brings. -/
def State.brings (s : State) (g no : Nat) (m : Member) : Brought :=
  if m.far then
    if m.issued < no then .notYet
    else if (s.group g).farOps.any (fun o => o.key == farKey m.pkg m.core && o.no == no) then .far (farKey m.pkg m.core)
    else .absent
  else if m.issued < no ∨ s.groupHere g m.core = false then .notYet
  else match (s.collWaiting g m.core).find? (fun k => (s.keyOp k).prog == no) with
    | some k => if (s.keyOp k).state = .queued then .op k else .notYet
    | none => .absent
/-- The key of what is brought. -/
def Brought.key : Brought → Nat
  | .op k => k
  | .far k => k
  | _ => absentKey
/-- The form of a data collective's sub-op. -/
def formOfSub (n : Nat) : Form := if n = 2 then .cred else if n = 3 then .cbcast else if n = 4 then .cgath else if n = 5 then .crscat else .ca2a
/-- The form and the record of a key of the collective in turn. -/
def State.collRec (s : State) (g k : Nat) : Form × BitVec 512 :=
  if absentKey < k then
    match (s.group g).farOps.find? (fun o => o.key == k && o.no == (s.group g).sequence + 1) with
    | some o => (formOfSub o.sub, o.record)
    | none => (.ca2a, 0)
  else ((s.keyOp k).form, (s.keyOp k).record)
/-- The records agree in form, LEN, DTYPE, OP and ROOT. -/
def State.agree (s : State) (g : Nat) : List Nat → Bool
  | [] => true
  | k :: t => t.all (fun j =>
      let a := s.collRec g k
      let b := s.collRec g j
      decide (a.1 = b.1) && collLen a.2 == collLen b.2 && collType a.2 == collType b.2 && collOp a.2 == collOp b.2 &&
        collRoot a.2 == collRoot b.2)
/-- Barriers of the members that are in the group exchange. -/
def State.exchanging (s : State) (g : Nat) : List Nat :=
  ((s.group g).members.filterMap Member.bar).filter (fun k => decide ((s.groupBar g k).mode = .exch))
/-- The collective in turn is over: a boundary follows (R316). A barrier of the exchange that is bound no more goes on by itself (log
entry 26), and the phase that the others are in goes on without it (R317). -/
def State.collOver (s : State) (g : Nat) : State :=
  let x := s.group g
  let s1 := (s.setGroup g { x with
    running := [], treeRun := false, sequence := x.sequence + 1, farOps := x.farOps.filter (fun o => decide (x.sequence + 1 < o.no)) }).boundary g
  ((s.exchanging g).foldl (fun s k => s.onGroupCore g (k / 1024) (fun s => s.restBars [k])) s1).goOn g
/-- Operations start with their ranks. -/
def State.startRanks (s : State) : Nat → List Nat → State
  | _, [] => s
  | r, k :: t =>
    (if absentKey ≤ k then s else s.modOp (k / 128) (k % 128) (fun o => { o with state := .running, prog := r })).startRanks (r + 1) t
/-- Packages other than this one that take part in the collective in turn, by the map entry and the package bound (R330). -/
def State.collPackages (s : State) (g : Nat) (ks : List Nat) : List (Nat × Nat) :=
  match s.groupJob g with
  | none => []
  | some j => ((((s.group g).members.zip ks).filter (fun p => p.1.far && p.2 != absentKey)).map (fun p => p.1.pkg)).eraseDups.filterMap (fun pkg =>
      (s.famOf j pkg).map (fun e => (j.fld 11 0 12 + pkg, e.phys.toNat)))
/-- The exchanges of a collective leave for the other packages: bulk packets, bound now (R330, R331). -/
def State.sendExchanges (s : State) (ps : List (Nat × Nat)) (ks : List Nat) : State :=
  (ks.filter (fun k => decide (k < absentKey))).foldl (fun s k =>
    ps.foldl (fun s p => s.fabSend (s.keyOp k).asid p.1 false (some p.2) 0 0 (.exchange (k / 128) (k % 128) (s.keyOp k).seq)) s) s
/-- COLLECTIVE_START (R324, R325): joins, leaves and strays are taken up, and the collective in turn starts when every member
has issued it and each is QUEUED. -/
def execCollectiveStart (group : Nat) (s : State) : Out :=
  let s1 := (s.groupQueued group).foldl (fun s k => s.takeUp group k) s
  let x := s1.group group
  let got := x.members.map (s1.brings group (x.sequence + 1))
  let ks := got.map Brought.key
  let here := ks.filter (· != absentKey)
  if decide (x.running ≠ []) || x.members.isEmpty || got.contains .notYet then .next s1
  else if here.isEmpty then .next (s1.collOver group)
  else if !s1.agree group here then
    .next (((here.filter (fun k => decide (k < absentKey))).foldl (fun s k => s.closeAt k 0x10 cBARBAD
      (collWord (ks.findIdx (· == k)) ks.length 0 false false false x.gphase)) s1).collOver group)
  else .next (((s1.setGroup group { x with running := ks, treeRun := false }).startRanks 0 ks).sendExchanges (s1.collPackages group ks) ks)

/-- The buffers that the collective in progress names (R223): those of every participant's record. -/
def State.collNamed (s : State) (g : Nat) : List (Nat × Nat) :=
  let ks := (s.group g).running
  (ks.filter (· != absentKey)).flatMap (fun k => collBuffers (s.collRec g k).1 (s.collRec g k).2 ks.length)
/-- Every participant acquires the buffers that the collective names (R223). -/
def State.collAcquire (s : State) (core : Nat) (asid : BitVec 16) (bufs : List (Nat × Nat)) : State :=
  bufs.foldl (fun s b => s.modCore core (fun c => c.l1Inval asid false b.1 b.2)) s
/-- One member's share of the results: its DST written and its operation decided. None while a line must be obtained. -/
def State.collGive (s : State) (g : Nat) (live : List Nat) (ins : List CollIn) : List Nat → Option State
  | [] => some s
  | i :: t =>
    let x := s.group g
    let k := x.running.getD i absentKey
    let o := s.keyOp k
    let core := k / 128
    let out := collOut o.form o.record live (blockOf ins) i
    let bufs := s.collNamed g
    if absentKey < k then s.collGive g live ins t
    else
    let gone := decide (o.form = .cbcast) && !live.contains (collRoot o.record)
    let n := x.running.length
    let w := collWord i n (n - live.length) gone x.treeRun false x.gphase
    match s.collWrite k (fun _ => true) out with
    | none => none
    | some (s1, some (_, c)) => ((s1.collAcquire core o.asid bufs).decideOp core (k % 128) 0x10 c w).collGive g live ins t
    | some (s1, none) => ((s1.collAcquire core o.asid bufs).decideOp core (k % 128) 0x01 0 w).collGive g live ins t
/-- Blocks of far ranks among those that came from their packages (rank, block number, bytes). -/
def farBlocksIn (far : List (Nat × Nat × List Byte)) (len : Nat) (blocks : List (Nat × Nat)) : List CollIn :=
  blocks.map (fun b => { rank := b.1, block := b.2, data := match far.find? (fun f => f.1 == b.1 && f.2.1 == b.2 && f.2.2.length == len) with
    | some f => some (.ok f.2.2)
    | none => none })
/-- COLLECTIVE_COMPLETE (R223, R324, R326): every present member's sources are read and every DST is written. A member whose
source cannot be read counts as absent and ends FAULTED (log entry 26). What far members read comes in with the event. -/
def execCollectiveComplete (group : Nat) (far : List (Nat × Nat × List Byte)) (s : State) : Out :=
  let x := s.group group
  let ks := x.running
  let live0 := liveRanks ks
  match live0.head? with
  | none => if ks.isEmpty then .next s else .next (s.collOver group)
  | some m0 =>
    let o := s.collRec group (ks.getD m0 absentKey)
    if live0.any (fun m => s.entering (ks.getD m absentKey) (s.collNamed group)) then .next s
    else
      let blocks := collBlocks o.1 (collRoot o.2) live0
      let (s1, own) := s.collReads ks (blocks.filter (fun b => hereRank ks b.1))
      let ins := own ++ farBlocksIn far (collLen o.2) (blocks.filter (fun b => !hereRank ks b.1))
      if ins.any (fun d => d.data.isNone) then .next s
      else
        let bad := live0.filterMap (fun m => (ins.find? (fun d => d.rank == m && (match d.data with
          | some (.error _) => true
          | _ => false))).map (fun d => (m, match d.data with | some (.error e) => e | _ => (0, 0))))
        let live := live0.filter (fun m => !bad.any (fun b => b.1 == m))
        let gone := decide (o.1 = .cbcast) && !live.contains (collRoot o.2)
        let s2 := bad.foldl (fun s b => s.decideOp (ks.getD b.1 absentKey / 128) (ks.getD b.1 absentKey % 128) 0x10 b.2.2
          (collWord b.1 ks.length (ks.length - live.length) gone x.treeRun false x.gphase)) s1
        match s2.collGive group live ins live with
        | none => .next s
        | some s3 => .next (s3.collOver group)
/-- COLLECTIVE_DRAIN_TIMEOUT (R319): a member whose collectives have not finished within 200 µs of the switch request. -/
def execCollectiveDrainTimeout (group core : Nat) (s : State) : Out :=
  match s.switch with
  | none => .next s
  | some w =>
    let open_ := (s.group group).running.any (fun k => k != absentKey && k / 128 == core) || !(s.collWaiting group core).isEmpty
    if s.selectionHeld core && open_ && decide (w.born.toNat + 200000 ≤ s.time.toNat) then
      .next (s.withdraw group core 0x10 cWAITTIME true)
    else .next s
/-- A cancellation reaches a RUNNING COLL operation (R324): a join or a leave is taken back; a member of the collective in
progress is absent from it. -/
def State.cancelColl (s : State) (core slot : Nat) : State :=
  let o := s.op core slot
  let g := o.unit.toNat
  let x := s.group g
  let s1 := match o.form with
    | .gjoin => s.setGroup g { x with joining := x.joining.filter (fun j => !(j.1 == core && j.2.1 == slot)) }
    | .gleave => s.setGroup g { x with members := x.members.map (fun (m : Member) => if m.at core then { m with leaving := false } else m) }
    | _ => s.collAbsent g (core * 128 + slot)
  let n := x.running.length
  let gone := (x.running.filter (· == absentKey)).length + 1
  s1.decideOp core slot 0x11 o.cancel (if o.form.isData then collWord o.prog n gone false x.treeRun false x.gphase
    else collWord 0 x.members.length 0 false false false x.gphase)

end Sys2Proof.Machine
end

