-- ==== Sys2Proof/Machine/Dram.lean ====
section
/-!
DEFINITION. The memory side's own steps: XINV (R202), coherence between packages (R204 to R207), transient windows (R209,
R210), remap and refresh (R211, R212), page moves (R213, R214), and ECC events (R365, R366).
-/
namespace Sys2Proof.Machine

/-! ### XINV (R202) -/

/-- The ASIDs and the addresses that a request names. -/
structure XReq where
  asid : BitVec 16
  alla : Bool
  allv : Bool
  lo : Nat
  hi : Nat
  deriving DecidableEq, Repr
/-- A page of 2^n bytes by SIZE. -/
def sizeBits (z : Nat) : Nat := if z = 0 then 16 else if z = 1 then 21 else 30
/-- The request of the register's two words. -/
def xreqOf (lo hi : Word) : XReq :=
  let b := sizeBits (lo.extractLsb' 18 2).toNat
  let p := (hi.extractLsb' 0 52).toNat / 2 ^ b
  { asid := lo.extractLsb' 0 16, alla := lo.getLsbD 16, allv := lo.getLsbD 17, lo := p * 2 ^ b
    hi := (p + (hi.extractLsb' 52 12).toNat + 1) * 2 ^ b }
/-- The request matches a run of addresses of an ASID. -/
def XReq.hits (x : XReq) (asid : BitVec 16) (a len : Nat) : Bool :=
  (x.alla || x.asid == asid) && (x.allv || (decide (a < x.hi) && decide (x.lo < a + len)))
/-- Matching entries leave every translation cache, and matching lines every L1. -/
def State.xremove (s : State) (x : XReq) : State :=
  let s1 := s.modMem (fun m => { m with tlb := m.tlb.filter (fun t =>
    !x.hits t.asid (t.page * 2 ^ levelBits t.size) (2 ^ levelBits t.size)) })
  { s1 with cores := s1.cores.map (fun p => (p.1, { p.2 with l1 := p.2.l1.filter (fun l => !x.hits l.asid (l.line * 64) 64) })) }
/-- XINV: a write while BUSY, or with SIZE 3, sets ERR. -/
def execXinv (lo hi : Word) (s : State) : Out :=
  if s.mem.xinv.isSome || lo.extractLsb' 18 2 == 3 then .next (s.modMem (fun m => { m with xinvErr := true }))
  else .next ((s.xremove (xreqOf lo hi)).modMem (fun m => { m with xinvHi := hi, xinv := some (lo, hi) }))
/-- XINV_COMPLETE: no access translated with a removed entry is on its way any more; of the atomics on their way to another member,
every one of a named ASID is waited for. -/
def execXinvComplete (s : State) : Out :=
  match s.mem.xinv with
  | none => .next s
  | some (lo, hi) =>
    let x := xreqOf lo hi
    let onWay (r : Retry) : Bool := (match r.body with | .atomic _ _ _ _ _ => true | _ => false) && (x.alla || x.asid == r.asid)
    if s.mem.l2q.any (fun e => x.hits e.asid (e.vline * 64) 64) || s.ops.any (fun p => p.2.beats.any (fun b => x.hits p.2.asid b.va 64)) ||
        s.fabric.retry.any onWay || s.fabric.held.any onWay then .next s
    else .next ((s.xremove x).modMem (fun m => { m with xinv := none }))

/-! ### Coherence between packages (R204 to R207) -/

/-- The metadata of a line that the home reads: STATE 5 to 7 is an error (R207). -/
def State.metaBad (s : State) (pa : Nat) : Bool := decide (4 < (s.lmeta (lineOf (pa % 2 ^ 40))).state)
/-- A local access that the line's state does not allow at once (R206). -/
def State.cohLocal (s : State) (pa : Nat) (write : Bool) : State :=
  let x := s.lmeta (lineOf (pa % 2 ^ 40))
  if (s.transOn pa).isSome then s
  else if s.homeHere pa then
    if dramSize ≤ pa % 2 ^ 40 then s
    else if s.metaBad pa then s.lineLost pa 9 0
    else if x.state = 0 ∨ (x.state = 1 ∧ write = false) then s
    else s.startTrans pa (if write then 1 else 0) 0
  else
    let held := s.mem.rlines.any (fun p => p.1 == lineOf pa && !p.2.poison && (!write || p.2.state == 1 || p.2.state == 3))
    if held then s else s.startTrans pa (if write then 3 else 2) 0
/-- COH_LOCAL_READ (R206). -/
def execCohLocalRead (pa : Nat) (s : State) : Out := .next (s.cohLocal pa false)
/-- COH_LOCAL_WRITE (R206). -/
def execCohLocalWrite (pa : Nat) (s : State) : Out := .next (s.cohLocal pa true)
/-- The home can take a member's request for the line now (R205). -/
def State.homeTakes (s : State) (pa member : Nat) : Bool :=
  s.homeHere pa && decide (pa % 2 ^ 40 < dramSize) && decide (member < 32) && (s.transOn pa).isNone
/-- A page move's filter records a GETX (R214). -/
def State.noteGetx (s : State) (pa : Nat) : State :=
  s.modMem (fun m => { m with move := m.move.map (fun v => { v with dirty := (v.dirty ++ [lineOf (pa % 2 ^ 40)]).eraseDups }) })
/-- A member's request on the line of a PA is answered (R205, R331). -/
def State.cohReply (s : State) (pa member : Nat) : State := s.cohSend member (.cohAnswer (lineOf pa))
/-- COH_GETS (R206). -/
def execCohGets (pa member : Nat) (s : State) : Out :=
  let x := s.lmeta (lineOf (pa % 2 ^ 40))
  if !s.homeTakes pa member then .next s
  else if s.metaBad pa then .next ((s.lineLost pa 9 0).cohReply pa member)
  else if x.state = 0 then .next ((s.setLine pa 2 (groupMask member) 0).cohReply pa member)
  else if x.state = 1 then .next ((s.setLine pa 1 (x.mask ||| groupMask member) 0).cohReply pa member)
  else .next (s.startTrans pa 4 member)
/-- COH_GETX (R206). -/
def execCohGetx (pa member : Nat) (s : State) : Out :=
  let x := s.lmeta (lineOf (pa % 2 ^ 40))
  if !s.homeTakes pa member then .next s
  else if s.metaBad pa then .next ((s.lineLost pa 9 0).cohReply pa member)
  else if x.state = 0 then .next (((s.noteGetx pa).setLine pa 4 (groupMask member) member).cohReply pa member)
  else .next ((s.noteGetx pa).startTrans pa 5 member)
/-- COH_EVICTION (R206): 0 PUTE, 1 PUTM, 2 PUTO. -/
def execCohEviction (pa member kind : Nat) (data : VWord) (s : State) : Out :=
  let x := s.lmeta (lineOf (pa % 2 ^ 40))
  if !s.homeTakes pa member then .next s
  else if x.state = 2 ∧ (x.mask &&& groupMask member) ≠ 0 ∧ kind = 0 then .next (s.setLine pa 0 0 0)
  else if x.state = 2 ∧ (x.mask &&& groupMask member) ≠ 0 ∧ kind = 1 then .next ((s.lineData pa data).setLine pa 0 0 0)
  else if x.state = 3 ∧ x.owner = member ∧ kind = 2 then .next ((s.lineData pa data).setLine pa 1 x.mask 0)
  else if x.state = 4 ∧ x.owner = member ∧ kind = 1 then .next ((s.lineData pa data).setLine pa 0 0 0)
  else .next s
/-- COH_PROBE (R205, R206): this package, as a member, answers the home for its copy, if it has one: 0 it keeps S, 1 it supplies another member and keeps
O if it had written, 2 it is invalidated. -/
def execCohProbe (pa kind : Nat) (s : State) : Out :=
  let l := lineOf pa
  if s.homeHere pa then .next s
  else .next ((s.modMem (fun m => { m with
    rlines := if kind = 2 then m.rlines.filter (fun p => !(p.1 == l))
      else m.rlines.map (fun p => if p.1 = l then
        (p.1, { p.2 with state := if kind = 1 ∧ (p.2.state = 3 ∨ p.2.state = 2) then 2 else 0 }) else p) })).cohReply pa (pa / 2 ^ 40))
/-- COH_TRANSACTION_COMPLETE (R206): `completeTrans`, over circuits that are UP to every member asked (R331). -/
def execCohTransactionComplete (pa : Nat) (written : Bool) (data : VWord) (s : State) : Out :=
  match s.transOn pa with
  | none => .next s
  | some t => if s.reaches (s.cohEntries pa t.kind t.member) then .next (s.completeTrans t written data) else .next s
/-- PROBE_TIMEOUT (R207): unanswered for 100 us, the transaction ends and its requester gets POISON. -/
def execProbeTimeout (pa member : Nat) (s : State) : Out :=
  match s.transOn pa with
  | none => .next s
  | some t => if s.now < t.born + cyclesOf 100 then .next s else .next (s.transFails pa member)

/-! ### Transient windows (R209, R210) -/

/-- A transient window. -/
def State.window (s : State) (k : Nat) : Window := tabGet s.mem.twt k Window.initial
/-- A transient window changed. -/
def State.modWindow (s : State) (k : Nat) (f : Window → Window) : State :=
  s.modMem (fun m => { m with twt := tabSet m.twt k (f (tabGet m.twt k Window.initial)) })
/-- TRANSIENT_DEADLINE: EXPIRED is set; what L2 and the cache layer hold of the window is discarded with it, and reads as
poison. -/
def execTransientDeadline (k : Nat) (s : State) : Out :=
  let w := s.window k
  if k < 16 ∧ w.valid = true ∧ w.expired = false ∧ w.deadline.toNat ≤ s.time.toNat then
    .next (s.modWindow k (fun w => { w with expired := true }))
  else .next s
/-- TRANSIENT_REARM: every line of the window is HOME with POISON before EXPIRED reads 0. -/
def execTransientRearm (k : Nat) (s : State) : Out :=
  let w := s.window k
  if k < 16 ∧ w.past s.time = true then
    let lines := (List.range ((w.nframe.toNat + 1) * 32768)).map (fun i => w.base.toNat * 32768 + i)
    let s1 := s.modMem (fun m => { m with
      lmeta := lines.foldl (fun t l => tabSet t l { state := 0, mask := 0, poison := true, owner := 0 }) m.lmeta })
    .next (s1.modWindow k (fun w => { w with expired := false }))
  else .next s
/-- DEADLINE_WRITE: no later than 256 ms after the write. A deadline that has passed stays passed: EXPIRED is set before the write. -/
def execDeadlineWrite (k : Nat) (v : Word) (s : State) : Out :=
  if 16 ≤ k then .next s
  else .next (s.modWindow k (fun w => { w with expired := w.past s.time, deadline := BitVec.ofNat 64 (Nat.min v.toNat (s.time.toNat + 256000000)) }))

/-! ### Remap copies and refresh (R211, R212) -/

/-- REMAP_ERROR (R211): one copy failed, or both with the range that is fenced. -/
def execRemapError (tower : Nat) (both : Bool) (base extent : Nat) (s : State) : Out :=
  if 8 ≤ tower then .next s
  else
    let r : RasInfo := { source := if both then 7 else 6, sev := if both then 2 else 0, unit := tower, addr := if both then base else 0
                         extent := if both then extent else 0, count := 1, time := s.time, detail := [] }
    let s1 := s.modMem (fun m => { m with
      remapErr := let e := tabGet m.remapErr tower 0
                  tabSet m.remapErr tower (if both then sat32 (e.extractLsb' 32 32) ++ e.extractLsb' 0 32 else e.extractLsb' 32 32 ++ sat32 (e.extractLsb' 0 32))
      fenced := if both then m.fenced ++ [(base, extent)] else m.fenced })
    .next (if both then s1.rasReport r else s1.rasCorrected r)
/-- REFRESH_PREEMPTION (R212): counted; no beat is lost. -/
def execRefreshPreemption (tower : Nat) (s : State) : Out :=
  if 8 ≤ tower then .next s
  else .next (s.modMem (fun m => { m with refpre := tabSet m.refpre tower (sat32 (tabGet m.refpre tower 0)) }))

/-! ### ECC events (R365, R366) -/

/-- MEMORY_ECC_ERROR (R365): 1 and 3 corrected, 2 and 4 a line poisoned, 9 a metadata error. The address is a local PA, or a
window address for a scratchpad or a tile store. -/
def execMemoryEccError (source unit addr : Nat) (s : State) : Out :=
  let shown := if isSp addr then spOff addr else addr
  let r : RasInfo := { source := source, sev := if source = 1 ∨ source = 3 then 0 else 1, unit := unit, addr := shown
                       extent := if source = 1 ∨ source = 3 then 0 else 64, count := 1, time := s.time, detail := [] }
  if source = 1 ∨ source = 3 then .next (s.rasCorrected r)
  else if source = 9 then .next (if dramSize ≤ addr % 2 ^ 40 then s else s.lineLost addr 9 0)
  else if source = 2 ∨ source = 4 then
    if regionOf addr = 0xC ∨ regionOf addr = 0xE then
      .next ((s.modMem (fun m => { m with poison := if m.poison.contains (lineOf addr) then m.poison else m.poison ++ [lineOf addr] })).rasReport r)
    else if dramSize ≤ addr % 2 ^ 40 then .next s
    else
      let l := lineOf (addr % 2 ^ 40)
      .next ((s.modMem (fun m => m.setMeta l { s.lmeta l with poison := true })).rasReport r)
  else .next s
/-- RAS_FOLD_EXPIRY (R366): at the end of the millisecond the record of what was folded is written. -/
def execRasFoldExpiry (source unit : Nat) (s : State) : Out :=
  match s.dev.folds.find? (fun f => f.source == source && f.unit == unit) with
  | none => .next s
  | some f =>
    if s.time.toNat < f.born.toNat + 1000000 then .next s
    else
      .next ((s.modDev (fun d => { d with folds := d.folds.filter (fun g => !(g.source == source && g.unit == unit)) })).foldReport f)

/-! ### Page moves (R213, R214) -/

/-- STATUS and ATTEMPTS written into a record. -/
def State.moveStatus (s : State) (pa status attempts : Nat) : State :=
  (s.putLocal (pa % 2 ^ 40 + 24) (leBytes 2 (status + 2 ^ 8 * attempts))).getD s
/-- Lines of a page. -/
def pageLines (pa size : Nat) : List Nat := (List.range (2 ^ sizeBits size / 64)).map (fun i => lineOf (pa % 2 ^ 40) + i)
/-- The lines at the places of a frame obtained for writing (R206). -/
def State.recallFrame (s : State) (lines : List Nat) : State := lines.foldl (fun s l => s.obtainLine (l * 64) true) s
/-- The record's line obtained, and the tables of its walk (R196, R206). -/
def State.moveReady (s : State) (pa : Nat) : State :=
  let s1 := s.obtainLine pa false
  let rec' : BitVec 256 := BitVec.ofNat 256 (leNat (memBytes s1.mem.cells (pa % 2 ^ 40) 32))
  s1.readyWalk (rec'.extractLsb' 0 16) (rec'.extractLsb' 64 52).toNat
/-- PAGE_MOVE (R213, R214): a write of MOVEPTR. The spec does not say what a record PA does that is misaligned, not backed, or of
another member: the write is ignored; a record in a poisoned line, and a page whose old frame another member is home of, are refused with
STATUS 4 (log entry 51). -/
def execPageMove (pa : Nat) (s0 : State) : Out :=
  let s := if pa % 32 ≠ 0 ∨ dramSize ≤ pa % 2 ^ 40 ∨ s0.homeHere pa = false ∨ s0.mem.move.isSome = true then s0 else s0.moveReady pa
  let rec' : BitVec 256 := BitVec.ofNat 256 (leNat (memBytes s.mem.cells (pa % 2 ^ 40) 32))
  let f (lo n : Nat) : Nat := (rec'.extractLsb' lo n).toNat
  let z := f 16 2
  let va := f 64 52
  let new := f 128 45
  let asid := rec'.extractLsb' 0 16
  if pa % 32 ≠ 0 ∨ dramSize ≤ pa % 2 ^ 40 ∨ s.homeHere pa = false then .next s
  else if s.mem.move.isSome || s.dramPoisoned (pa % 2 ^ 40) then .next (s.moveStatus pa 4 0)
  else if f 18 46 ≠ 0 ∨ f 116 12 ≠ 0 ∨ f 173 19 ≠ 0 ∨ f 204 52 ≠ 0 ∨ z = 3 ∨ va % 2 ^ sizeBits z ≠ 0 ∨ new % 2 ^ sizeBits z ≠ 0 then
    .next (s.moveStatus pa 4 0)
  else match s.walk asid va with
    | .error _ => .next (s.moveStatus pa 4 0)
    | .ok (leaf, level, leafPa) =>
      let old := (leaf.extractLsb' 16 29).toNat * 2 ^ 16
      if level + z ≠ 3 ∨ s.homed asid old = false then .next (s.moveStatus pa 4 0)
      else
        let v : PageMove := { recPa := pa, asid := asid, va := va, size := z, oldPa := old, newPa := new, leafPa := leafPa, attempt := 0, dirty := [] }
        .next ((s.moveStatus pa 0 0).modMem (fun m => { m with move := some v }))
/-- A place in the old frame is in the new frame. -/
def PageMove.follow (v : PageMove) (a : Nat) : Nat :=
  if isPa a ∧ v.oldPa ≤ a ∧ a < v.oldPa + 2 ^ sizeBits v.size then a - v.oldPa + v.newPa else a
/-- The new frame of a move is DRAM of this package. -/
def State.frameHere (s : State) (v : PageMove) : Bool :=
  decide (v.newPa % 2 ^ 40 + 2 ^ sizeBits v.size ≤ dramSize) && s.homed v.asid v.newPa
/-- A move ends without a switch: the new frame's contents are unpredictable (R214; log entry 13), where it is DRAM of this package. -/
def State.moveFails (s : State) (v : PageMove) (status attempts : Nat) : State :=
  let n := 2 ^ sizeBits v.size
  let cells := cellsAt (v.newPa % 2 ^ 40) ((List.range n).map (fun i => Config.dirtyFrame (s.sched.fresh + i)))
  let s1 := (s.modMem (fun m => { m with move := none, cells := if s.frameHere v then memWrite m.cells cells else m.cells })).refreshBy n
  let s2 := s1.moveStatus v.recPa status attempts
  if status = 3 then s2.rasReport { source := 10, sev := 1, unit := towerOf (v.oldPa % 2 ^ 40), addr := v.oldPa, extent := n, count := 1
                                    time := s.time, detail := [] }
  else s2
/-- The switch to the new frame (R214), the leaf's line being HOME: the leaf, the XINV, and the accesses that were held. -/
def State.moveSwitch (s : State) (v : PageMove) : State :=
  let a := v.leafPa % 2 ^ 40
  let e := s.localWord a
  let e' : Word := e.extractLsb' 45 19 ++ BitVec.ofNat 29 (v.newPa / 2 ^ 16) ++ e.extractLsb' 0 16
  let s1 := s.modMem (fun m => { m with move := none, cells := memWrite m.cells (cellsAt a (leBytes 8 e'.toNat))
                                        l2q := m.l2q.map (fun q => if q.asid = v.asid then { q with cells := q.cells.map (fun c => (v.follow c.1, c.2)) } else q) })
  let s2 : State := { s1 with ops := s1.ops.map (fun p => if p.2.asid = v.asid then
    (p.1, { p.2 with beats := p.2.beats.map (fun b => { b with cells := b.cells.map (fun c => (v.follow c.1, c.2)) }) }) else p) }
  (s2.xremove { asid := v.asid, alla := false, allv := false, lo := v.va, hi := v.va + 2 ^ sizeBits v.size }).moveStatus v.recPa 1 v.attempt
/-- PAGE_MOVE_CHECK (R214): the filter is checked; the mapping is switched, the move ends, or lines are copied. It waits until
the lines concerned are HOME with no transaction in progress, and for an XINV that is BUSY. The lines of the new frame and of the leaf are
recalled before they are written (R206). The spec gives no status for a NEWPA that is not backed or is another member's, nor for a leaf
whose line is lost: the move ends with STATUS 3 (log entry 51). -/
def execPageMoveCheck (s : State) : Out :=
  match s.mem.move with
  | none => .next s
  | some v =>
    let all := pageLines v.oldPa v.size
    let mine := v.dirty.filter (fun l => all.contains l)
    let base := lineOf (v.oldPa % 2 ^ 40)
    if v.attempt ≠ 0 ∧ mine = [] then
      if s.mem.xinv.isSome || all.any (fun l => decide (1 < (s.lmeta l).state) || (s.homeTrans l).isSome) then .next s
      else
        let s1 := s.obtainLine v.leafPa true
        .next (if s1.dramPoisoned (v.leafPa % 2 ^ 40) then s1.moveFails v 3 v.attempt else s1.moveSwitch v)
    else if 8 ≤ v.attempt then .next (s.moveFails v 2 8)
    else
      let todo := if v.attempt = 0 then all else mine
      let new := lineOf (v.newPa % 2 ^ 40)
      if todo.any (fun l => decide ((s.lmeta l).state ≠ 0) || (s.homeTrans l).isSome) then .next s
      else if !s.frameHere v then .next (s.moveFails v 3 (v.attempt + 1))
      else
        let s1 := s.recallFrame (todo.map (fun l => l - base + new))
        if todo.any (fun l => s1.dramPoisoned (l * 64) || s1.dramPoisoned ((l - base + new) * 64)) then .next (s1.moveFails v 3 (v.attempt + 1))
        else
        let cells := todo.flatMap (fun l => cellsAt ((l - base + new) * 64) (memBytes s1.mem.cells (l * 64) 64))
        .next ((s1.modMem (fun m => m.writeDram cells)).modMem (fun m => { m with move := some { v with attempt := v.attempt + 1, dirty := [] } }))

end Sys2Proof.Machine
end

