-- ==== Sys2Proof/Machine/Dtab.lean ====
section
/-!
DEFINITION. The decode table and the format table (R124, R129, R130, R137, R138).
-/
namespace Sys2Proof.Machine

/-- The decode table changed, and ORD with it (R137). -/
def tableChanged (c : Core) (dt : List (BitVec 19)) (mode : Bool) : Core :=
  { c with dt := dt, dmode := mode, ord := dtOrdered dt mode }

/-- DTWR (R137). -/
def execDtwr (a b : Reg) (s : State) : Out :=
  let c := ((rdG s.me a).extractLsb' 0 8).toNat
  let v := (rdG s.me b).extractLsb' 0 19
  .next (retire (s.modCore s.myCore (fun x =>
    tableChanged x (if x.dmode && decide (128 ≤ c) then x.dt.set (c - 128) (v ^^^ 0x40000) else x.dt.set c v) x.dmode)))
/-- DTRD (R137). -/
def execDtrd (d a : Reg) (s : State) : Out :=
  let c := ((rdG s.me a).extractLsb' 0 8).toNat
  let x := s.core s.myCore
  setG s d (BitVec.ofBool x.ord ++ (0 : BitVec 30) ++ BitVec.ofBool x.dmode ++ (0 : BitVec 13) ++ dtPattern x.dt x.dmode c)
/-- DTMODE (R137). -/
def execDtmode (a : Reg) (s : State) : Out :=
  let mode := (rdG s.me a).getLsbD 0
  .next (retire (s.modCore s.myCore (fun x => tableChanged x x.dt mode)))
/-- FTWR (R138): it waits for the record. -/
def execFtwr (a b : Reg) (s : State) : Out :=
  let x := ((rdG s.me a).extractLsb' 0 4).toNat
  let p := tagVa (rdG s.me b)
  if x = 0 then .next (trapNow s cFMT)
  else if p % 32 ≠ 0 then .next (trapAt s cMISALIGN (BitVec.ofNat 64 p))
  else readNow s true (runAt p 32) (fun s bytes =>
    let rec' : BitVec 256 := BitVec.ofNat 256 (leNat bytes)
    if !ftRecordOk rec' then .next (trapNow s cFMT)
    else .next (retire (s.modCore s.myCore (fun c => { c with ft := tabSet c.ft x (rec' ||| 0x8000) }))))
/-- FTRD (R138): one store of 32 bytes. -/
def execFtrd (a b : Reg) (s : State) : Out :=
  let x := ((rdG s.me a).extractLsb' 0 4).toNat
  let p := tagVa (rdG s.me b)
  if p % 32 ≠ 0 then .next (trapAt s cMISALIGN (BitVec.ofNat 64 p))
  else issueStore s p 0 true (leBytes 32 ((s.core s.myCore).ftEntry x).toNat)

end Sys2Proof.Machine
end

