-- ==== Sys2Proof/Machine/Int.lean ====
section
/-!
DEFINITION. The integer, immediate, shift-immediate and pointer groups (R147 to R152).
-/
namespace Sys2Proof.Machine

/-- 1 or 0. -/
def ofBit (b : Bool) : Word := if b then 1 else 0
/-- x shifted by the low six bits of k: left, right, arithmetically right, or rotated right (R147, R151). -/
def shiftOf (op : Nat) (x : Word) (k : Nat) : Word :=
  match op with
  | 0 => x <<< (k % 64)
  | 1 => x >>> (k % 64)
  | 2 => x.sshiftRight (k % 64)
  | _ => x.rotateRight (k % 64)
/-- Quotient and remainder (R148). -/
def quoRem (signed : Bool) (x y : Word) : Word × Word :=
  if y = 0 then (BitVec.allOnes 64, x)
  else if signed then
    if x.toInt = -2 ^ 63 ∧ y.toInt = -1 then (x, 0)
    else (BitVec.ofInt 64 (x.toInt.tdiv y.toInt), BitVec.ofInt 64 (x.toInt - x.toInt.tdiv y.toInt * y.toInt))
  else (BitVec.ofNat 64 (x.toNat / y.toNat), BitVec.ofNat 64 (x.toNat % y.toNat))
/-- Zeros above the highest one among the low n bits. -/
def leadingZeros : Nat → Word → Nat
  | 0, _ => 0
  | n + 1, x => if x.getLsbD n then 0 else 1 + leadingZeros n x
/-- Zeros below the lowest one, from bit i on, n bits being left. -/
def trailingZeros (i : Nat) : Nat → Word → Nat
  | 0, _ => 0
  | n + 1, x => if x.getLsbD i then 0 else 1 + trailingZeros (i + 1) n x
/-- A pointer of the tag of p with another address (R46, R50). -/
def withVa (p : Word) (va : BitVec 52) : Word := p.extractLsb' 52 12 ++ va

/-- ADD (R147). -/
def execAdd (d a b : Reg) (s : State) : Out := setG s d (rdG s.me a + rdG s.me b)
/-- SUB (R147). -/
def execSub (d a b : Reg) (s : State) : Out := setG s d (rdG s.me a - rdG s.me b)
/-- AND (R147). -/
def execAnd (d a b : Reg) (s : State) : Out := setG s d (rdG s.me a &&& rdG s.me b)
/-- OR (R147). -/
def execOr (d a b : Reg) (s : State) : Out := setG s d (rdG s.me a ||| rdG s.me b)
/-- XOR (R147). -/
def execXor (d a b : Reg) (s : State) : Out := setG s d (rdG s.me a ^^^ rdG s.me b)
/-- ANDN (R147). -/
def execAndn (d a b : Reg) (s : State) : Out := setG s d (rdG s.me a &&& ~~~(rdG s.me b))
/-- NOR (R147). -/
def execNor (d a b : Reg) (s : State) : Out := setG s d (~~~(rdG s.me a ||| rdG s.me b))
/-- XNOR (R147). -/
def execXnor (d a b : Reg) (s : State) : Out := setG s d (~~~(rdG s.me a ^^^ rdG s.me b))
/-- SLT (R147). -/
def execSlt (d a b : Reg) (s : State) : Out := setG s d (ofBit ((rdG s.me a).slt (rdG s.me b)))
/-- SLTN (R147). -/
def execSltn (d a b : Reg) (s : State) : Out := setG s d (ofBit ((rdG s.me a).ult (rdG s.me b)))
/-- MIN (R147). -/
def execMin (d a b : Reg) (s : State) : Out := setG s d (if (rdG s.me b).slt (rdG s.me a) then rdG s.me b else rdG s.me a)
/-- MAX (R147). -/
def execMax (d a b : Reg) (s : State) : Out := setG s d (if (rdG s.me a).slt (rdG s.me b) then rdG s.me b else rdG s.me a)
/-- MINN (R147). -/
def execMinn (d a b : Reg) (s : State) : Out := setG s d (if (rdG s.me b).ult (rdG s.me a) then rdG s.me b else rdG s.me a)
/-- MAXN (R147). -/
def execMaxn (d a b : Reg) (s : State) : Out := setG s d (if (rdG s.me a).ult (rdG s.me b) then rdG s.me b else rdG s.me a)
/-- SLL (R147). -/
def execSll (d a b : Reg) (s : State) : Out := setG s d (shiftOf 0 (rdG s.me a) (rdG s.me b).toNat)
/-- SRL (R147). -/
def execSrl (d a b : Reg) (s : State) : Out := setG s d (shiftOf 1 (rdG s.me a) (rdG s.me b).toNat)
/-- SRA (R147). -/
def execSra (d a b : Reg) (s : State) : Out := setG s d (shiftOf 2 (rdG s.me a) (rdG s.me b).toNat)
/-- ROR (R147). -/
def execRor (d a b : Reg) (s : State) : Out := setG s d (shiftOf 3 (rdG s.me a) (rdG s.me b).toNat)
/-- MUL (R147). -/
def execMul (d a b : Reg) (s : State) : Out := setG s d (BitVec.ofInt 64 ((rdG s.me a).toInt * (rdG s.me b).toInt))
/-- MULH: the floor of the exact product over 2^64 (R147). -/
def execMulh (d a b : Reg) (s : State) : Out := setG s d (BitVec.ofInt 64 ((rdG s.me a).toInt * (rdG s.me b).toInt / 2 ^ 64))
/-- MULHN (R147). -/
def execMulhn (d a b : Reg) (s : State) : Out := setG s d (BitVec.ofNat 64 ((rdG s.me a).toNat * (rdG s.me b).toNat / 2 ^ 64))
/-- DIV (R148). -/
def execDiv (d a b : Reg) (s : State) : Out := setG s d ((quoRem true (rdG s.me a) (rdG s.me b)).1)
/-- DIVN (R148). -/
def execDivn (d a b : Reg) (s : State) : Out := setG s d ((quoRem false (rdG s.me a) (rdG s.me b)).1)
/-- REM (R148). -/
def execRem (d a b : Reg) (s : State) : Out := setG s d ((quoRem true (rdG s.me a) (rdG s.me b)).2)
/-- REMN (R148). -/
def execRemn (d a b : Reg) (s : State) : Out := setG s d ((quoRem false (rdG s.me a) (rdG s.me b)).2)
/-- CLZ (R147). -/
def execClz (d a : Reg) (s : State) : Out := setG s d (BitVec.ofNat 64 (leadingZeros 64 (rdG s.me a)))
/-- CTZ (R147). -/
def execCtz (d a : Reg) (s : State) : Out := setG s d (BitVec.ofNat 64 (trailingZeros 0 64 (rdG s.me a)))
/-- POPC (R147). -/
def execPopc (d a : Reg) (s : State) : Out := setG s d (BitVec.ofNat 64 (popCount (rdG s.me a)))
/-- SXB (R147). -/
def execSxb (d a : Reg) (s : State) : Out := setG s d (((rdG s.me a).extractLsb' 0 8).signExtend 64)
/-- SXH (R147). -/
def execSxh (d a : Reg) (s : State) : Out := setG s d (((rdG s.me a).extractLsb' 0 16).signExtend 64)
/-- SXW (R147). -/
def execSxw (d a : Reg) (s : State) : Out := setG s d (((rdG s.me a).extractLsb' 0 32).signExtend 64)
/-- QRD (R149). -/
def execQrd (d : Reg) (a : Fld3) (s : State) : Out := setG s d (s.me.q[a.toNat]'a.isLt)
/-- WWR (R149). -/
def execWwr (d : Fld3) (b : Reg) (s : State) : Out :=
  .next (retireWith s (fun c => { c with w := c.w.set d.toNat (rdG c b) d.isLt }))
/-- WCLR (R149). -/
def execWclr (s : State) : Out := .next (retireWith s (fun c => { c with w := Vector.replicate 8 0 }))

/-! ### Immediate forms (R32, R150): the operation on an immediate already extended, which EXT shares -/

/-- ADDI of an extended immediate (R150). -/
def immAddi (d a : Reg) (c : Word) (s : State) : Out := setG s d (rdG s.me a + c)
/-- ADDI (R150). -/
def execAddi (d a : Reg) (i : BitVec 16) (s : State) : Out := immAddi d a (i.signExtend 64) s
/-- ANDI of an extended immediate (R150). -/
def immAndi (d a : Reg) (c : Word) (s : State) : Out := setG s d (rdG s.me a &&& c)
/-- ANDI (R150). -/
def execAndi (d a : Reg) (i : BitVec 16) (s : State) : Out := immAndi d a (i.setWidth 64) s
/-- ORI of an extended immediate (R150). -/
def immOri (d a : Reg) (c : Word) (s : State) : Out := setG s d (rdG s.me a ||| c)
/-- ORI (R150). -/
def execOri (d a : Reg) (i : BitVec 16) (s : State) : Out := immOri d a (i.setWidth 64) s
/-- XORI of an extended immediate (R150). -/
def immXori (d a : Reg) (c : Word) (s : State) : Out := setG s d (rdG s.me a ^^^ c)
/-- XORI (R150). -/
def execXori (d a : Reg) (i : BitVec 16) (s : State) : Out := immXori d a (i.setWidth 64) s
/-- SLTI of an extended immediate (R150). -/
def immSlti (d a : Reg) (c : Word) (s : State) : Out := setG s d (ofBit ((rdG s.me a).slt c))
/-- SLTI (R150). -/
def execSlti (d a : Reg) (i : BitVec 16) (s : State) : Out := immSlti d a (i.signExtend 64) s
/-- SLTNI of an extended immediate (R150). -/
def immSltni (d a : Reg) (c : Word) (s : State) : Out := setG s d (ofBit ((rdG s.me a).ult c))
/-- SLTNI (R150). -/
def execSltni (d a : Reg) (i : BitVec 16) (s : State) : Out := immSltni d a (i.signExtend 64) s
/-- MULI of an extended immediate (R150). -/
def immMuli (d a : Reg) (c : Word) (s : State) : Out := setG s d (BitVec.ofInt 64 ((rdG s.me a).toInt * c.toInt))
/-- MULI (R150). -/
def execMuli (d a : Reg) (i : BitVec 16) (s : State) : Out := immMuli d a (i.signExtend 64) s
/-- MOVI of an extended immediate (R150). -/
def immMovi (d _a : Reg) (c : Word) (s : State) : Out := setG s d (c)
/-- MOVI (R150). -/
def execMovi (d : Reg) (i : BitVec 16) (s : State) : Out := immMovi d 0 (i.signExtend 64) s
/-- MOVH of an extended immediate (R150). -/
def immMovh (d a : Reg) (c : Word) (s : State) : Out := setG s d (c.extractLsb' 0 32 ++ (rdG s.me a).extractLsb' 0 32)
/-- MOVH (R150). -/
def execMovh (d a : Reg) (i : BitVec 16) (s : State) : Out := immMovh d a (i.setWidth 64) s
/-- ADDPI of an extended immediate (R150). -/
def immAddpi (d a : Reg) (c : Word) (s : State) : Out := setG s d (withVa (rdG s.me a) ((rdG s.me a).extractLsb' 0 52 + c.extractLsb' 0 52))
/-- ADDPI (R150). -/
def execAddpi (d a : Reg) (i : BitVec 16) (s : State) : Out := immAddpi d a (i.signExtend 64) s

/-! ### Shift-immediate (R151) -/

/-- SLLI (R151). -/
def execSlli (d a : Reg) (k : BitVec 6) (s : State) : Out := setG s d (shiftOf 0 (rdG s.me a) k.toNat)
/-- SRLI (R151). -/
def execSrli (d a : Reg) (k : BitVec 6) (s : State) : Out := setG s d (shiftOf 1 (rdG s.me a) k.toNat)
/-- SRAI (R151). -/
def execSrai (d a : Reg) (k : BitVec 6) (s : State) : Out := setG s d (shiftOf 2 (rdG s.me a) k.toNat)
/-- RORI (R151). -/
def execRori (d a : Reg) (k : BitVec 6) (s : State) : Out := setG s d (shiftOf 3 (rdG s.me a) k.toNat)

/-! ### Pointers (R50, R152) -/

/-- ADDP (R50). -/
def execAddp (d a b : Reg) (s : State) : Out :=
  setG s d (withVa (rdG s.me a) ((rdG s.me a).extractLsb' 0 52 + (rdG s.me b).extractLsb' 0 52))
/-- SUBP (R50). -/
def execSubp (d a b : Reg) (s : State) : Out :=
  setG s d (withVa (rdG s.me a) ((rdG s.me a).extractLsb' 0 52 - (rdG s.me b).extractLsb' 0 52))
/-- TAGGET (R50). -/
def execTagget (d a : Reg) (s : State) : Out := setG s d (((rdG s.me a).extractLsb' 52 12).setWidth 64)
/-- TAGSET (R50). -/
def execTagset (d a b : Reg) (s : State) : Out :=
  setG s d ((rdG s.me b).extractLsb' 0 12 ++ (rdG s.me a).extractLsb' 0 52)
/-- PCLR (R50). -/
def execPclr (d a : Reg) (s : State) : Out := setG s d (((rdG s.me a).extractLsb' 0 52).setWidth 64)

end Sys2Proof.Machine
end

