-- ==== Sys2Proof/Machine/Ext.lean ====
section
/-!
DEFINITION. EXT (R34 to R36): the next word executes with the composite immediate in place of its field.
-/
namespace Sys2Proof.Machine

/-- Majors that may follow EXT (R35). -/
def extEligible (w : IWord) : Bool :=
  let op := fMajor w
  (decide (2 ≤ op) && decide (op ≤ 7)) || (decide (9 ≤ op) && decide (op ≤ 0x0B)) || op == 0x0D ||
  (decide (0x10 ≤ op) && decide (op ≤ 0x1C)) || (decide (0x20 ≤ op) && decide (op ≤ 0x22))

/-- The word of an FI major with its 42-bit composite (R32, R34). -/
def extImm (w : IWord) (c : BitVec 42) (s : State) : Out :=
  let d := fD w
  let a := fA w
  let sx := c.signExtend 64
  let zx : Word := c.setWidth 64
  match (fMajor w).toNat with
  | 0x02 => immAddi d a sx s
  | 0x03 => immAndi d a zx s
  | 0x04 => immOri d a zx s
  | 0x05 => immXori d a zx s
  | 0x06 => immSlti d a sx s
  | 0x07 => immSltni d a sx s
  | 0x09 => immMuli d a sx s
  | 0x0A => if a = 0 then immMovi d a sx s else .next (trapNow s cILLEGAL)
  | 0x0B => if c.extractLsb' 32 10 = 0 then immMovh d a zx s else .next (trapNow s cILLEGAL)
  | _ => immAddpi d a sx s

/-- The word of an FM major with its 39-bit composite (R33, R34). -/
def extMem (w : IWord) (off : BitVec 52) (s : State) : Out :=
  let t := fD w
  let b := fA w
  let z := fSwz w
  match (fMajor w).toNat with
  | 0x10 => loadG t b z off 1 true s
  | 0x11 => loadG t b z off 1 false s
  | 0x12 => loadG t b z off 2 true s
  | 0x13 => loadG t b z off 2 false s
  | 0x14 => loadG t b z off 4 true s
  | 0x15 => loadG t b z off 4 false s
  | 0x16 => loadG t b z off 8 false s
  | 0x17 => storeG t b z off 1 s
  | 0x18 => storeG t b z off 2 s
  | 0x19 => storeG t b z off 4 s
  | 0x1A => storeG t b z off 8 s
  | 0x1B => loadV t b z off s
  | _ => storeV t b z off s

/-- BR with its 39-bit composite: the fields of FB are the condition above the displacement, and the two registers. -/
def extBranch (w : IWord) (disp : BitVec 52) (s : State) : Out :=
  let cond := (fSwz w).toNat
  if 5 < cond then
    match checkSlots s with
    | (_, some t) => .next t
    | (s1, none) => .next (trapNow s1 cILLEGAL)
  else branch (condHolds cond (rdG s.me (fD w)) (rdG s.me (fA w))) disp s

/-- EXT (R34): the two words are one instruction of eight bytes. While the pair waits it keeps its target word. -/
def execExt (i : BitVec 26) (s : State) : Out :=
  let c := s.me
  let got : State × Except (BitVec 8) IWord := if c.ext.isSome then (s, .ok c.ir) else s.fetch s.sched.cur (c.pc + 4)
  match got with
  | (s1, .error cause) => .next (trapFetch s1 c.pc (c.pc + 4) cause)
  | (s1, .ok w) =>
    if !extEligible w then .next (trapNow s1 cILLEGAL)
    else
      let s2 := s1.modMe (fun c => { c with ext := some i, ir := w, ilen := 8 })
      let op := (fMajor w).toNat
      if op ≤ 0x0D then extImm w (i ++ fImm w) s2
      else if op ≤ 0x1C then extMem w ((i ++ fOff w).signExtend 52) s2
      else if op = 0x20 then extBranch w ((i ++ fOff w).signExtend 52) s2
      else jump (i ++ fDisp w) (if op = 0x22 then some 31 else none) s2

end Sys2Proof.Machine
end

