-- ==== Sys2Proof/Machine/Sem.lean ====
section
/-!
DEFINITION. Semaphores (R384 to R389): the SEM group and the package's semaphore unit.
-/
namespace Sys2Proof.Machine

/-- A semaphore's value, by its package index. -/
def State.sem (s : State) (n : Nat) : Word := tabGet s.sems n 0
/-- The checks of a SEM instruction: the package index of g[a] (R384). -/
def withSem (a : Reg) (s : State) (k : Nat → Out) : Out :=
  let x := rdG s.me a
  match s.jobOn s.myCore with
  | none => .next (trapAt s cPROT x)
  | some j => if j.fld 3 10 11 ≤ x.toNat then .next (trapAt s cPROT x) else k (j.fld 3 0 10 + x.toNat)
/-- An operation leaves for the unit, counted in LD or in ST until the unit has done it. -/
def sendSem (s : State) (load : Bool) (dst : Dst) (n : Nat) (op : SemOp) : Out :=
  let key := s.sched.cur
  let c := s.me
  let id := s.sched.nextId
  let p : Pend := { id := id, load := load, route := .unit, dst := dst, addrs := [], cells := [], parts := 1, reply := none
                    acq := if load then 2 else 0, counted := true, pc := c.pc, word := c.ir, ea := 0, serial := 0 }
  let c1 := if load then { c with ld := c.ld + 1 } else { c with st := c.st + 1 }
  let s1 := s.bump.setCtx key { c1 with pend := c.pend ++ [p] }
  .next (retire (s1.launchPkt s.myCore c.taskTag key id (.sem n op (s.core s.myCore).asid)))
/-- SEMADD and SEMSET: a release, then the update (R313, R386). -/
def semUpdateOp (s : State) (n : Nat) (op : SemOp) : Out :=
  if 63 ≤ s.me.st then .next (blockOn s s.me.await 0) else released 2 s (fun s1 => sendSem s1 false .none n op)
/-- SEMADD (R386). -/
def execSemadd (a b : Reg) (s : State) : Out := withSem a s (fun n => semUpdateOp s n (.add (rdG s.me b)))
/-- SEMSET (R386). -/
def execSemset (a b : Reg) (s : State) : Out := withSem a s (fun n => semUpdateOp s n (.set (rdG s.me b)))
/-- SEMRD (R386): it acquires when its register is written. -/
def execSemrd (d a : Reg) (s : State) : Out :=
  withSem a s (fun n =>
    if acqHeld s.me || decide (63 ≤ s.me.ld) then .next (blockOn s .nothing 0)
    else sendSem s true (.g d false) n .read)
/-- SEMWAIT (R386, R388): the wait reaches the unit once, and the first satisfying update releases it. -/
def execSemwait (a b : Reg) (s : State) : Out :=
  withSem a s (fun n =>
    let thr := rdG s.me b
    match s.me.wake with
    | some .sem => .next (retire (s.acquire s.myCore))
    | _ =>
      if s.me.await = .sem n thr then .next (blockOn s (.sem n thr) 0)
      else .next (blockOn (s.launchPkt s.myCore s.me.taskTag s.sched.cur s.me.act (.sem n (.wait thr) (s.core s.myCore).asid))
        (.sem n thr) 0))
/-- A SEMWAIT.N on its way to the unit holds a place there. -/
def Pkt.arms : Pkt → Bool
  | .sem _ (.arm _ _ _) _ => true
  | _ => false
/-- SEMWAIT.N (R386, R387): with no place free it waits. -/
def execSemwaitN (a b : Reg) (c : BitVec 6) (s : State) : Out :=
  withSem a s (fun n =>
    if s.chanBad s.sched.cur c.toNat then chanBadAt s c.toNat
    else if 63 ≤ s.me.st ∨ 2048 ≤ s.armed.length + (s.flights.filter (fun f => f.body.arms)).length then .next (blockOn s .nothing 0)
    else sendSem s false .none n (.arm (rdG s.me b) c.toNat s.me.taskTag))

/-! ### The unit (R384, R387, R388) -/

/-- V + s, clamped (R386). -/
def semSum (v x : Word) : Word :=
  BitVec.ofInt 64 (clampInt 0 (2 ^ 64 - 1) ((v.toNat : Int) + x.toInt))
/-- An armed wait fires (R387). -/
def State.fireSem (s : State) (w : Armed) (v : Word) : State :=
  let base := ((s.job w.asid).map (fun j => j.fld 3 0 10)).getD 0
  s.notifyFrom w.core w.core w.chan w.tag w.asid [BitVec.ofNat 64 (w.sem - base), v, w.thr, s.time] true none
/-- The context's blocking wait has reached the unit: its packet is there no more. -/
def State.semArrived (s : State) (key : Nat) (c : Ctx) : Bool :=
  !s.flights.any (fun f => f.key == key && f.op == c.act && (match f.body with | .sem _ (.wait _) _ => true | _ => false))
/-- A blocking wait on the semaphore is satisfied by the value and is released (R388). -/
def State.wakeSem (s : State) (n : Nat) (v : Word) : State :=
  { s with ctxs := s.ctxs.map (fun p => match p.2.await with
      | .sem m thr =>
        if m = n ∧ thr.toNat ≤ v.toNat ∧ p.2.wake = none ∧ s.semArrived p.1 p.2 = true then (p.1, { p.2 with wake := some .sem }) else p
      | _ => p) }
/-- An update of a semaphore: armed waits fire in arming order, blocking waits are released (R386 to R388). -/
def State.semUpdate (s : State) (n : Nat) (v : Word) : State :=
  let hit (w : Armed) : Bool := w.sem == n && decide (w.thr.toNat ≤ v.toNat)
  let s1 : State := { s with sems := tabSet s.sems n v, armed := s.armed.filter (fun w => !hit w) }
  ((s.armed.filter hit).foldl (fun s w => s.fireSem w v) s1).wakeSem n v
/-- The packet is for the semaphore unit. -/
def Pkt.isSem : Pkt → Bool
  | .sem _ _ _ => true
  | _ => false
/-- SEM_UNIT_OP (R384, R386, R387): one operation arrives; those of one context arrive in issue order. One of a job that has
ended is discarded. -/
def execSemUnitOp (id : Nat) (s : State) : Out :=
  match s.flights.find? (fun f => f.id == id) with
  | none => .next s
  | some f =>
    match f.body with
    | .sem n op asid =>
      if s.flights.any (fun x => decide (x.id < id) && x.key == f.key && x.body.isSem) then .next s
      else
        let s1 := s.dropFlight id
        if (s.job asid).isNone then .next (s1.answer f.key f.op .nothing)
        else match op with
          | .add v => .next ((s1.semUpdate n (semSum (s1.sem n) v)).answer f.key f.op .done)
          | .set v => .next ((s1.semUpdate n v).answer f.key f.op .done)
          | .read => .next (s1.answer f.key f.op (.bytes (leBytes 8 (s1.sem n).toNat)))
          | .wait thr => if thr.toNat ≤ (s1.sem n).toNat then .next (s1.wakeSem n (s1.sem n)) else .next s1
          | .arm thr chan tag =>
            let w : Armed := { sem := n, thr := thr, core := coreOf f.key, chan := chan, tag := tag, asid := asid }
            let s2 := s1.answer f.key f.op .done
            if thr.toNat ≤ (s2.sem n).toNat then .next (s2.fireSem w (s2.sem n)) else .next { s2 with armed := s2.armed ++ [w] }
    | _ => .next s
/-- SEMVAL_WRITE (R389): acts as SEMSET. -/
def execSemvalWrite (n : Nat) (v : Word) (s : State) : Out := if n < 1024 then .next (s.semUpdate n v) else .next s
/-- SEMINC_WRITE (R389): acts as SEMADD, the value read as signed. -/
def execSemincWrite (n : Nat) (v : Word) (s : State) : Out :=
  if n < 1024 then .next (s.semUpdate n (semSum (s.sem n) v)) else .next s

end Sys2Proof.Machine
end

