-- ==== Sys2Proof/Machine/Fab.lean ====
section
/-!
DEFINITION. The FAB group (R336 to R340), circuits (R332 to R335), the Fabric Address Map (R329, R339), and packets to and
from other packages (R330, R331).
-/
namespace Sys2Proof.Machine

/-! ### Issue (R336) -/

/-- PEER. -/
def fabPeer (r : BitVec 512) : Nat := recFld r 268 12
/-- PMASK. -/
def fabMask (r : BitVec 512) : Word := recWord r 4
/-- A FAB body breaks its map, or names a port without JOBP. -/
def fabBad (f : Form) (s : State) (r : BitVec 512) : Bool :=
  match f with
  | .circ => decide (recFld r 280 232 ≠ 0) || !(s.port (fabPort r)).jobp
  | .circT => decide (recFld r 262 250 ≠ 0) || !(s.port (fabPort r)).jobp
  | .famwr => decide (recFld r 282 230 ≠ 0)
  | _ => decide (recFld r 320 192 ≠ 0)
/-- The rules of a FAB form. -/
def rulesFab (f : Form) : FormRules :=
  { form := f, bad := fabBad f, check := fun _ _ => .ok [], entries := noEntries
    unit := fun _ r => if f = .circ ∨ f = .circT then BitVec.ofNat 12 (fabPort r) else 0xFFF }
/-- CIRC (R338). -/
def execCirc (d a b : Reg) (x : BitVec 1) (p : BitVec 2) (n k : BitVec 1) (s : State) : Out := issueOp (rulesFab .circ) d a b x p n k s
/-- CIRC.T (R338). -/
def execCircT (d a b : Reg) (x : BitVec 1) (p : BitVec 2) (n k : BitVec 1) (s : State) : Out := issueOp (rulesFab .circT) d a b x p n k s
/-- FAMWR (R339). -/
def execFamwr (d a b : Reg) (x : BitVec 1) (p : BitVec 2) (n k : BitVec 1) (s : State) : Out := issueOp (rulesFab .famwr) d a b x p n k s
/-- PGATE (R71, R340): service level only. -/
def execPgate (d a b : Reg) (x : BitVec 1) (p : BitVec 2) (n k : BitVec 1) (s : State) : Out :=
  if s.svc s.sched.cur then issueOp (rulesFab .pgate) d a b x p n k s else .next (trapNow s cPRIV)
/-- PWAKE (R71, R340): service level only. -/
def execPwake (d a b : Reg) (x : BitVec 1) (p : BitVec 2) (n k : BitVec 1) (s : State) : Out :=
  if s.svc s.sched.cur then issueOp (rulesFab .pwake) d a b x p n k s else .next (trapNow s cPRIV)

/-! ### Circuits (R332, R337, R338) -/

/-- Set-up works for an operation. -/
def Port.busy (x : Port) : Bool := x.op.isSome || x.state == 3
/-- The ports that an operation acts on. -/
def Op.ports (o : Op) : Word :=
  match o.form with
  | .circ | .circT => 1 <<< fabPort o.record
  | .pgate | .pwake => fabMask o.record
  | _ => 0
/-- An operation that came earlier has not ended on one of the ports (R333). -/
def State.portTaken (s : State) (core slot : Nat) : Bool :=
  let o := s.op core slot
  s.ops.any (fun q => q.1 != core * 128 + slot && decide ((q.2.ports &&& o.ports) ≠ 0) &&
    ((decide (q.2.state = .running) && decide (q.2.status = 0)) || (decide (q.2.state = .queued) && decide (q.2.arrived < o.arrived))))
/-- The operation stands QUEUED with a form, its core's job being in. -/
def State.fabReady (s : State) (core slot : Nat) (f : Form) : Bool :=
  decide ((s.op core slot).form = f) && decide ((s.op core slot).state = .queued)
/-- A circuit of a port taken down at this end (R338). -/
def State.portDown (s : State) (p : Nat) : State :=
  let x := s.port p
  if x.state = 4 ∨ x.state = 5 then
    (s.modPort p (fun y => { y with state := 2, pport := 0, phys := 0 })).fabctl 2 p (some x.phys.toNat)
  else s
/-- CIRC_EXECUTION (R338). -/
def execCircExecution (core slot : Nat) (s : State) : Out :=
  let o := s.op core slot
  let k := core * 128 + slot
  let p := fabPort o.record
  let x := s.port p
  let pp := fabPport o.record
  if !s.fabReady core slot .circ || s.portTaken core slot || x.busy then .next s
  else match (s.job o.asid).bind (fun j => s.famOf j (fabPeer o.record)) with
    | none => .next (s.closeAt k 0x10 cXLATE (circWord p 0 pp 3 0 0))
    | some e =>
      let ph := e.phys.toNat
      if x.state = 6 then .next (s.closeAt k 0x10 cENGBAD (circWord p ph pp 4 0 0))
      else if x.state = 0 ∨ x.state = 1 then .next (s.closeAt k 0x10 cENGBAD (circWord p ph pp 0 0 0))
      else if (x.state = 4 ∨ x.state = 5) ∧ x.phys = e.phys ∧ x.pport.toNat = pp then
        .next (s.closeAt k (if x.state = 5 then 0x04 else 0x01) 0 (circWord p ph pp (if x.state = 5 then 5 else 0) 0 x.skew.toNat))
      else
        .next (((s.portDown p).runOp k).modPort p (fun y => { y with
          state := 3, op := some k, attempt := 1, reason := 0, settling := false, phys := e.phys, pport := BitVec.ofNat 6 pp }))
/-- A set-up that is given up: the port is IDLE, unless its light was lost meanwhile, and its operation ends. -/
def State.setupFails (s : State) (p : Nat) (status cause : BitVec 8) (reason : Nat) : State :=
  let x := s.port p
  let s1 := s.modPort p (fun y => { y with
    state := if y.state = 3 then 2 else y.state, op := none, settling := false, reason := 0, attempt := 0, phys := 0, pport := 0 })
  match x.op with
  | some k => s1.decideOp (k / 128) (k % 128) status cause (circWord p x.phys.toNat x.pport.toNat reason x.attempt 0)
  | none => s1
/-- SETUP_ANSWER (R332): `far` says that a NACK comes from the far package, not from a switch. -/
def execSetupAnswer (port : Nat) (ack far : Bool) (s : State) : Out :=
  let x := s.port port
  if x.op.isNone then .next s
  else if x.state ≠ 3 then .next (s.setupFails port 0x10 cENGBAD 4)
  else if x.settling = true ∨ x.reason ≠ 0 then .next s
  else if ack then .next (s.modPort port (fun y => { y with settling := true }))
  else if 8 ≤ x.attempt then .next (s.setupFails port 0x10 cWAITTIME (if far then 2 else 1))
  else .next (s.modPort port (fun y => { y with reason := if far then 2 else 1 }))
/-- SETUP_BACKOFF_EXPIRY (R332): the next attempt; a set-up whose port has lost its light ends (R335, R338). -/
def execSetupBackoffExpiry (port : Nat) (s : State) : Out :=
  let x := s.port port
  if x.op.isNone then .next s
  else if x.state ≠ 3 then .next (s.setupFails port 0x10 cENGBAD 4)
  else if x.reason = 0 then .next s
  else .next (s.modPort port (fun y => { y with attempt := y.attempt + 1, reason := 0 }))
/-- SETUP_REQUEST (R332): the answer is ACK for an IDLE port of the same running job, which settles, and for a port that already
carries a circuit to the very port that asks, which stays as it is; else NACK. -/
def execSetupRequest (port phys farPort : Nat) (asid : BitVec 16) (s : State) : Out :=
  let x := s.port port
  let idle := decide (port < 64) && x.state == 2 && x.op.isNone && x.jobp && s.cores.any (fun c => c.2.hasJob && c.2.asid == asid)
  let joined := decide (port < 64) && (x.state == 4 || x.state == 5 || (x.state == 3 && x.settling)) &&
    x.phys == BitVec.ofNat 12 phys && x.pport == BitVec.ofNat 6 farPort
  let s1 := s.modFab (fun f => { f with answered := some (phys, farPort, port, idle || joined) })
  if idle then
    .next (s1.modPort port (fun y => { y with state := 3, settling := true, phys := BitVec.ofNat 12 phys, pport := BitVec.ofNat 6 farPort }))
  else .next s1
/-- CIRCUIT_TRAINED (R332, R338): UP, or HELD above 64 ns of skew. -/
def execCircuitTrained (port skew : Nat) (s : State) : Out :=
  let x := s.port port
  if x.state ≠ 3 ∨ x.settling = false then .next s
  else
    let sk := Nat.min skew (2 ^ 24 - 1)
    let held := decide (64000 < skew)
    let s1 := s.modPort port (fun y => { y with
      state := if held then 5 else 4, settling := false, op := none, attempt := 0, reason := 0, skew := BitVec.ofNat 24 sk })
    let s2 := s1.fabctl (if held then 3 else if x.op.isSome then 1 else 6) port (some x.phys.toNat)
    match x.op with
    | some k => .next (s2.decideOp (k / 128) (k % 128) (if held then 0x04 else 0x01) 0
        (circWord port x.phys.toNat x.pport.toNat (if held then 5 else 0) x.attempt sk))
    | none => .next s2
/-- TEARDOWN_RECEIVED (R338): the far end has taken the circuit down, or given up its set-up. -/
def execTeardownReceived (port : Nat) (s : State) : Out :=
  let x := s.port port
  if x.state = 3 ∧ x.op = none then
    .next (s.modPort port (fun y => { y with state := 2, settling := false, phys := 0, pport := 0 }))
  else .next (s.portDown port)
/-- CIRC_T_EXECUTION (R338). -/
def execCircTExecution (core slot : Nat) (s : State) : Out :=
  let p := fabPort (s.op core slot).record
  let x := s.port p
  if !s.fabReady core slot .circT || s.portTaken core slot || x.op.isSome then .next s
  else
    let up := x.state == 4 || x.state == 5
    .next ((s.portDown p).closeAt (core * 128 + slot) 0x01 0
      (circWord p (if up then x.phys.toNat else 0) (if up then x.pport.toNat else 0) 0 0 (if up then x.skew.toNat else 0)))

/-! ### Ports lit and gated (R340) -/

/-- Ports of a mask. -/
def portsIn (m : Word) : List Nat := (List.range 64).filter (fun p => m.getLsbD p)
/-- PGATE_EXECUTION. -/
def execPgateExecution (core slot : Nat) (s : State) : Out :=
  if !s.fabReady core slot .pgate || s.portTaken core slot then .next s
  else
    let s1 := (portsIn (fabMask (s.op core slot).record)).foldl (fun s p =>
      if (s.port p).state = 2 ∧ (s.port p).op = none then s.modPort p (fun y => { y with state := 1 }) else s) s
    .next (s1.closeAt (core * 128 + slot) 0x01 0 0)
/-- PWAKE_EXECUTION. -/
def execPwakeExecution (core slot : Nat) (s : State) : Out :=
  if !s.fabReady core slot .pwake || s.portTaken core slot then .next s
  else
    let ps := portsIn (fabMask (s.op core slot).record)
    let bad := ps.filter (fun p => (s.port p).state == 6)
    let s1 := ps.foldl (fun s p =>
      if (s.port p).state = 0 ∨ (s.port p).state = 1 then s.modPort p (fun y => { y with state := 2 }) else s) s
    if bad.isEmpty then .next (s1.closeAt (core * 128 + slot) 0x01 0 0)
    else .next (s1.closeAt (core * 128 + slot) 0x10 cENGBAD (BitVec.ofNat 64 (bad.foldl (fun (a : Nat) (p : Nat) => a + 2 ^ p) 0)))

/-! ### The sender's end of a packet (R331) -/

/-- A packet taken out of the retry buffer. -/
def State.dropRetry (s : State) (id : Nat) : State := s.modFab (fun f => { f with retry := f.retry.filter (fun r => !(r.id == id)) })
/-- A packet of a beat or a look-ahead is answered. -/
def State.beatAnswered (s : State) (core slot va n : Nat) (cause : BitVec 8) : State :=
  let o := s.op core slot
  let s1 := s.setOp core slot { o with unacked := o.unacked - 1 }
  if n = 0 then s1.modOp core slot (fun x => { x with look := x.look.map (fun q => if q.1 = va / 65536 then (q.1, some cause) else q) })
  else if cause = 0 then (s1.beatDone core slot n).copySettled core slot
  else if o.status = 0 ∨ o.status = 0x08 then (s1.dropBeats core slot).decideOp core slot 0x10 cause (BitVec.ofNat 64 va)
  else s1.copySettled core slot
/-- A drain is given up (R339): the entry stays, and what was held goes to the old package. -/
def State.endDrain (s : State) (core slot : Nat) (status cause : BitVec 8) : State :=
  let o := s.op core slot
  match s.fabric.draining.find? (fun d => d.2.1 == core * 128 + slot) with
  | none => s
  | some (k, _, _, _) =>
    let e := s.fam k
    let s1 := (s.modFam k (fun x => { x with drain := false })).modFab (fun f => { f with
      draining := f.draining.filter (fun d => !(d.2.1 == core * 128 + slot))
      retry := f.retry.filter (fun r => match r.body with | .marker c n => !(c == core && n == slot) | _ => true) })
    (s1.releaseHeld k).decideOp core slot status cause (famWord o e.phys.toNat e.valid 0)
/-- A copy whose packet is given up ends FAULTED, unless its outcome is decided. -/
def State.copyFails (s : State) (core slot : Nat) (cause : BitVec 8) : State :=
  let o := s.op core slot
  if o.state = .running ∧ (o.status = 0 ∨ o.status = 0x08) then (s.dropBeats core slot).decideOp core slot 0x10 cause 0 else s
/-- A collective whose exchange is given up ends FAULTED, and its member is absent from it (R324, R331). -/
def State.exchangeFails (s : State) (core slot seq : Nat) (cause : BitVec 8) : State :=
  let o := s.op core slot
  let g := o.unit.toNat
  let x := s.group g
  if o.state = .running ∧ o.status = 0 ∧ o.seq = seq then
    (s.collAbsent g (core * 128 + slot)).decideOp core slot 0x10 cause
      (collWord o.prog x.running.length ((x.running.filter (· == absentKey)).length + 1) false x.treeRun false x.gphase)
  else s
/-- STATUS, NPOISON and FIRSTPOISON of a checkpoint's descriptor written (R391). -/
def State.ckptStatus (s : State) (desc status npoison first : Nat) : State :=
  let n := if npoison < 2 ^ 32 then npoison else Config.ckptOver.toNat
  (s.putLocal (desc + 16) (leBytes 16 (status + 2 ^ 32 * n + 2 ^ 64 * first))).getD s
/-- A checkpoint that ends FAULTED, with its RAS record (R392). -/
def State.ckptFails (s : State) (desc npoison first : Nat) : State :=
  (s.ckptStatus desc 2 npoison first).rasReport
    { source := Config.ckptRas 0 % 2 ^ 8, sev := Config.ckptRas 1 % 4, unit := Config.ckptRas 2 % 2 ^ 16, addr := Config.ckptRas 3
      extent := Config.ckptRas 4, count := 1, time := s.time, detail := (List.range 3).map (fun i => BitVec.ofNat 64 (Config.ckptRas (5 + i))) }
/-- The packet carries a line of a checkpoint. -/
def Retry.isLine (r : Retry) : Bool := match r.body with | .line _ _ => true | _ => false
/-- A checkpoint whose peer could not be reached within FABLIFE ends FAULTED (R392). -/
def State.ckptUnreached (s : State) : State :=
  let s1 := s.modFab (fun f => { f with retry := f.retry.filter (fun r => !r.isLine) })
  match s.dev.ckpt with
  | some c => (s1.modDev (fun d => { d with ckpt := none })).ckptFails c.desc (c.sent.getD (0, 0)).1 (c.sent.getD (0, 0)).2
  | none => s1
/-- A packet that its sender gives up reports to it (R331, R339). An answer of the home that is given up loses its line, as R207 says; an
eviction or a member's answer has no operation behind it here. The sender of a barrier's bytes is the copy (core and number). -/
def State.packetFails (s : State) (r : Retry) (cause : BitVec 8) : State :=
  match r.body with
  | .msg _ _ => s.answer r.key r.op (.fault cause (s.faultAddr r.key r.op))
  | .atomic _ _ _ _ _ => s.answer r.key r.op (.fault cause (s.faultAddr r.key r.op))
  | .beat core slot va cells => s.beatAnswered core slot va cells.length cause
  | .marker core slot => s.endDrain core slot 0x10 cause
  | .barrier _ _ _ =>
    match s.ops.find? (fun p => p.1 / 128 == r.key && p.2.seq == r.op) with
    | some (k, _) => s.copyFails (k / 128) (k % 128) cause
    | none => s
  | .line _ _ => s.ckptUnreached
  | .coh line => s.transFails (line * 64) ((s.fam r.index).member.toNat)
  | .evict _ _ _ => s
  | .cohAnswer line =>
    if s.homeHere (line * 64) then s.lineLost (line * 64) 8 (BitVec.ofNat 64 ((s.fam r.index).member.toNat)) else s
  | .exchange core slot seq => s.exchangeFails core slot seq cause
/-- PACKET_ACK (R331, R261, R229): a marker's acknowledgement is DRAIN_MARKER_ACK. -/
def execPacketAck (id : Nat) (answer : FabAns) (s : State) : Out :=
  match s.fabric.retry.find? (fun r => r.id == id) with
  | none => .next s
  | some r =>
    if !s.upTo r.phys then .next s
    else
      let s1 := s.dropRetry id
      match r.body, answer with
      | .marker _ _, _ => .next s
      | .barrier _ _ _, _ | .coh _, _ | .evict _ _ _, _ | .cohAnswer _, _ | .exchange _ _ _, _ | .line _ _, _ => .next s1
      | .beat core slot va cells, .fault c => .next ((s.beatAnswered core slot va cells.length c).dropRetry id)
      | .beat core slot va cells, _ => .next ((s.beatAnswered core slot va cells.length 0).dropRetry id)
      | .atomic _ _ _ _ _, .old v fl => .next (s1.answer r.key r.op (.old v fl))
      | _, .fault c => .next (s1.answer r.key r.op (.fault c (s.faultAddr r.key r.op)))
      | _, .nothing => .next (s1.answer r.key r.op .nothing)
      | .msg _ (some (k, gen)), _ => .next ((s1.retireSlot k gen r.asid).answer r.key r.op .done)
      | _, _ => .next (s1.answer r.key r.op .done)
/-- PACKET_RETRY (R331): 20 us after it was last sent. -/
def execPacketRetry (id : Nat) (s : State) : Out :=
  .next (s.modFab (fun f => { f with retry := f.retry.map (fun r =>
    if r.id = id ∧ r.last + cyclesOf 20 ≤ s.now then { r with last := s.now } else r) }))
/-- PACKET_LIFETIME_EXPIRY (R331): the sender's operation ends, and a STALL event goes out. -/
def execPacketLifetimeExpiry (id : Nat) (s : State) : Out :=
  match s.fabric.retry.find? (fun r => r.id == id) with
  | none => .next s
  | some r =>
    if s.now < r.born + cyclesOf s.fabric.fablife.toNat then .next s
    else .next (((s.dropRetry id).packetFails r cWAITTIME).stalled r.phys)
/-- DEAD_TAG_EXPIRY (R353): FABLIFE after it was installed. No packet outlives FABLIFE, so every message that the entry has yet to meet
has met it before. -/
def execDeadTagExpiry (n : Nat) (s : State) : Out :=
  match s.deadTags[n]? with
  | some d =>
    if d.born.toNat + 1000 * s.fabric.fablife.toNat ≤ s.time.toNat then
      let met := s.mail.filter (fun m => decide (m.id < d.since) && m.msg.tagged d)
      let s1 : State := { s with mail := s.mail.filter (fun m => !met.any (fun x => x.id == m.id)), deadTags := s.deadTags.eraseIdx n }
      .next (met.foldl (fun s m => s.answer m.msg.ackKey m.msg.ackId .nothing) s1)
    else .next s
  | none => .next s

/-! ### The Fabric Address Map (R339) -/

/-- A FAMWR of the same entry that came earlier has not ended (R333). -/
def State.entryTaken (s : State) (core slot : Nat) : Bool :=
  let o := s.op core slot
  s.ops.any (fun q => q.1 != core * 128 + slot && decide (q.2.form = .famwr) && q.2.asid == o.asid && fabIndex q.2.record == fabIndex o.record &&
    ((decide (q.2.state = .running) && decide (q.2.status = 0)) || (decide (q.2.state = .queued) && decide (q.2.arrived < o.arrived))))
/-- FAMWR_EXECUTION (R339). -/
def execFamwrExecution (core slot : Nat) (s : State) : Out :=
  let o := s.op core slot
  let key := core * 128 + slot
  let ph := o.record.extractLsb' 268 12
  let valid := o.record.getLsbD 280
  let force := o.record.getLsbD 281
  if !s.fabReady core slot .famwr || s.entryTaken core slot then .next s
  else match s.job o.asid with
    | none => .next (s.closeAt key 0x10 cXLATE (famWord o 0 false 0))
    | some j =>
      if j.fld 11 12 13 ≤ fabIndex o.record then .next (s.closeAt key 0x10 cXLATE (famWord o 0 false 0))
      else
        let k := j.fld 11 0 12 + fabIndex o.record
        let e := s.fam k
        let word (n : Nat) : Word := famWord o e.phys.toNat e.valid n
        if e.coh || (valid && !s.fabric.pkgAllot.contains ph.toNat) then .next (s.closeAt key 0x10 cPROT (word 0))
        else if !e.valid || force then
          let lost := s.fabric.retry.filter (fun r => r.ordered && r.index == k && r.phys == e.phys.toNat)
          let s1 := lost.foldl (fun s r => (s.dropRetry r.id).packetFails r cXLATE) s
          let s2 := s1.modFab (fun f => { f with famdrop := f.famdrop + BitVec.ofNat 32 lost.length })
          .next ((s2.modFam k (fun x => { x with phys := ph, valid := valid })).closeAt key 0x01 0 (word lost.length))
        else
          let s1 := (s.runOp key).fabSend o.asid k true (some e.phys.toNat) 0 0 (.marker core slot)
          .next ((s1.modFam k (fun x => { x with drain := true })).modFab (fun f => { f with draining := f.draining ++ [(k, key, ph, valid)] }))
/-- DRAIN_MARKER_ACK (R339): the new binding is installed, and what was held goes out under it. -/
def execDrainMarkerAck (core slot : Nat) (s : State) : Out :=
  match s.fabric.retry.find? (fun r => match r.body with | .marker c n => c == core && n == slot | _ => false),
    s.fabric.draining.find? (fun d => d.2.1 == core * 128 + slot) with
  | some r, some (k, _, ph, valid) =>
    if !s.upTo r.phys then .next s
    else
      let e := s.fam k
      let s1 := ((s.dropRetry r.id).modFam k (fun x => { x with phys := ph, valid := valid, drain := false })).modFab (fun f => { f with
        draining := f.draining.filter (fun d => !(d.2.1 == core * 128 + slot)) })
      .next ((s1.releaseHeld k).decideOp core slot 0x01 0 (famWord (s.op core slot) e.phys.toNat e.valid 0))
  | _, _ => .next s

/-! ### Packets from other packages (R330, R331, R261) -/

/-- The source that stands for another package among those of this one. -/
def farSource (src : Nat) : Nat := 8192 + src
/-- A message that a packet brought: a START for a unit's leader goes to the job's lowest core (R103; log entry 32). -/
def State.farMsg (s : State) (src : Nat) (words : Vector Word 8) (asid : BitVec 16) (pkg : BitVec 12) : State :=
  let m0 := mkMsg words asid pkg
  let lead := m0.kind == 0 && isService m0.dest
  let w0 := match (if lead then s.job asid else none) with
    | some j => header 0 (BitVec.ofNat 6 m0.chan) m0.tag (BitVec.ofNat 12 j.lowestCore) (words[0].extractLsb' 14 12) (words[0].extractLsb' 0 14)
    | none => words[0]
  let newTask := m0.kind == 0 && m0.tag != 0 && m0.tag != words[4].extractLsb' 0 16
  s.inject (farSource src) { mkMsg (words.set 0 w0) asid pkg with acq := m0.kind == 11, newTask := newTask }
/-- A packet takes effect; none while it must wait. -/
def State.packetEffect (s : State) (src : Nat) : FabIn → Option State
  | .msg words asid pkg => some (s.farMsg src words asid pkg)
  | .beat asid dst data =>
    let (s1, pg) := s.pages 0 asid false .wr (pagesIn [dst.toNat])
    match s1.placed asid false pg dst.toNat with
    | .error _ => some s1
    | .ok pl => match s1.placeWrite asid false (cellsAt pl (leBytes 64 data.toNat)) with
      | none => none
      | some (.error _) => some s1
      | some (.ok t) => some t
  | .barrier asid name n err =>
    let k := barKey name
    let ok := name.extractLsb' 22 10 == 0 && name.extractLsb' 50 14 == 0 &&
      (match s.job asid with | some j => j.holds (k / 1024) && decide (k % 1024 < j.nbOn (k / 1024)) | none => false)
    some (if ok then s.launchPkt (farSource src) 0 0 0 (.barrier k (if n = 0 then .error else .bytes n err) asid) else s)
  | .atomic pa op size x c =>
    let a := pa.toNat % 2 ^ 40
    let n := atomBytes size
    if dramSize < a + n then some s
    else if (s.homeTrans (lineOf a)).isSome then none
    else
      let s1 := s.obtainLine a true
      let old := leNat (memBytes s1.mem.cells a n)
      some (if s1.dramPoisoned a then s1 else s1.modMem (fun m => m.writeDram (cellsAt a (leBytes n (atomNew op n old x.toNat c.toNat).1))))
  | .line pa data =>
    let a := 64 * lineOf (pa.toNat % 2 ^ 40)
    if dramSize < a + 64 then some s
    else if (s.homeTrans (lineOf a)).isSome then none
    else
      let cells := cellsAt a (leBytes 64 data.toNat)
      let s1 := s.obtainLine a true
      some (if s1.dramWriteRefused cells then s1 else s1.modMem (fun m => m.writeDram cells))
  | .marker => if s.mail.any (fun m => m.src == farSource src) then none else some s
  | .coh pa member kind data =>
    let a := pa.toNat
    if s.homeHere a && (s.transOn a).isSome then none
    else match (if kind = 0 then execCohGets a member s else if kind = 1 then execCohGetx a member s
        else if kind < 5 then execCohEviction a member (kind - 2) data s else execCohProbe a (kind - 5) s) with
      | .next t => some t
      | _ => none
/-- The packet is the one to take effect (R330, R331): the next of the pair's ordered ones, or a bulk one not seen before. -/
def State.packetDue (s : State) (src seq : Nat) (body : FabIn) : Bool :=
  if body.ordered then seq == tabGet s.fabric.nextIn src 0 else !s.fabric.seen.contains (src, seq)
/-- The packet has taken effect: a duplicate of it is discarded from now on. -/
def State.packetTaken (s : State) (src seq : Nat) (body : FabIn) : State :=
  s.modFab (fun f => if body.ordered then { f with nextIn := tabSet f.nextIn src (seq + 1) } else { f with seen := (src, seq) :: f.seen })
/-- PACKET_ARRIVAL (R330, R331): over an UP circuit; an ordered packet waits for those before it, and a duplicate is discarded by its
number. -/
def execPacketArrival (src seq : Nat) (body : FabIn) (s : State) : Out :=
  if !s.upTo src || !s.packetDue src seq body then .next s
  else match s.packetEffect src body with
    | none => .next s
    | some t => .next (t.packetTaken src seq body)

/-! ### Cancellation at the unit (R250, R298, R302, R324, R332, R339) -/

/-- CANCEL_AT_ENGINE (R250): a RUNNING operation that has been cancelled stops at its unit. -/
def execCancelAtEngine (core slot : Nat) (s : State) : Out :=
  let o := s.op core slot
  if o.state ≠ .running ∨ o.cancel = 0 ∨ (o.status ≠ 0 ∧ o.status ≠ 0x08 ∧ (o.status ≠ 0x10 ∨ (o.beats = [] ∧ o.unacked = 0))) then .next s
  else match (if o.form.isCopy then 0 else o.form.cls) with
    | 0 =>
      if o.unacked ≠ 0 then .next s
      else
        let s1 := s.dropBeats core slot
        .next (s1.decideOp core slot 0x11 o.cancel (s1.cancelWord (s1.op core slot)))
    | 1 => .next (s.cancelMat core slot)
    | 2 => .next (s.cancelColl core slot)
    | _ =>
      if o.form = .circ then
        let p := fabPort o.record
        if (s.port p).op = some (core * 128 + slot) ∧ (s.port p).reason ≠ 0 then .next (s.setupFails p 0x11 o.cancel (s.port p).reason.toNat)
        else .next s
      else .next (s.endDrain core slot 0x11 o.cancel)

end Sys2Proof.Machine
end

