-- ==== Sys2Proof/Machine/Crypto.lean ====
section
/-!
DEFINITION. The digest and the signature check that the manual names and defines by their standards: SHA-256 of FIPS 180-4 (R360, R408, R410,
R413) and the ECDSA verification of FIPS 186-5 on the curve P-256 (R410).
-/
namespace Sys2Proof.Machine

/-! ### SHA-256 -/

/-- The constants of the 64 rounds. -/
def shaK : List (BitVec 32) :=
  [0x428a2f98, 0x71374491, 0xb5c0fbcf, 0xe9b5dba5, 0x3956c25b, 0x59f111f1, 0x923f82a4, 0xab1c5ed5] ++
  [0xd807aa98, 0x12835b01, 0x243185be, 0x550c7dc3, 0x72be5d74, 0x80deb1fe, 0x9bdc06a7, 0xc19bf174] ++
  [0xe49b69c1, 0xefbe4786, 0x0fc19dc6, 0x240ca1cc, 0x2de92c6f, 0x4a7484aa, 0x5cb0a9dc, 0x76f988da] ++
  [0x983e5152, 0xa831c66d, 0xb00327c8, 0xbf597fc7, 0xc6e00bf3, 0xd5a79147, 0x06ca6351, 0x14292967] ++
  [0x27b70a85, 0x2e1b2138, 0x4d2c6dfc, 0x53380d13, 0x650a7354, 0x766a0abb, 0x81c2c92e, 0x92722c85] ++
  [0xa2bfe8a1, 0xa81a664b, 0xc24b8b70, 0xc76c51a3, 0xd192e819, 0xd6990624, 0xf40e3585, 0x106aa070] ++
  [0x19a4c116, 0x1e376c08, 0x2748774c, 0x34b0bcb5, 0x391c0cb3, 0x4ed8aa4a, 0x5b9cca4f, 0x682e6ff3] ++
  [0x748f82ee, 0x78a5636f, 0x84c87814, 0x8cc70208, 0x90befffa, 0xa4506ceb, 0xbef9a3f7, 0xc67178f2]
/-- The digest that the first block starts from. -/
def shaInit : List (BitVec 32) := [0x6a09e667, 0xbb67ae85, 0x3c6ef372, 0xa54ff53a, 0x510e527f, 0x9b05688c, 0x1f83d9ab, 0x5be0cd19]
/-- One round: the working variables a to h, with a constant and a message word. -/
def shaRound (x : List (BitVec 32)) (k w : BitVec 32) : List (BitVec 32) :=
  let a := x.getD 0 0
  let b := x.getD 1 0
  let c := x.getD 2 0
  let e := x.getD 4 0
  let s1 := e.rotateRight 6 ^^^ e.rotateRight 11 ^^^ e.rotateRight 25
  let ch := (e &&& x.getD 5 0) ^^^ (~~~e &&& x.getD 6 0)
  let t1 := x.getD 7 0 + s1 + ch + k + w
  let s0 := a.rotateRight 2 ^^^ a.rotateRight 13 ^^^ a.rotateRight 22
  let maj := (a &&& b) ^^^ (a &&& c) ^^^ (b &&& c)
  [t1 + (s0 + maj), a, b, c, x.getD 3 0 + t1, e, x.getD 5 0, x.getD 6 0]
/-- Rounds under the remaining constants. `w` holds the next 16 message words. -/
def shaRounds : List (BitVec 32) → List (BitVec 32) → List (BitVec 32) → List (BitVec 32)
  | [], _, x => x
  | k :: ks, w, x =>
    let p := w.getD 1 0
    let q := w.getD 14 0
    let s0 := p.rotateRight 7 ^^^ p.rotateRight 18 ^^^ (p >>> 3)
    let s1 := q.rotateRight 17 ^^^ q.rotateRight 19 ^^^ (q >>> 10)
    shaRounds ks (w.drop 1 ++ [s1 + w.getD 9 0 + s0 + w.getD 0 0]) (shaRound x k (w.getD 0 0))
/-- The big-endian number of a list of bytes. -/
def beNat (bs : List Byte) : Nat := leNat bs.reverse
/-- The bytes of a number, big-endian. -/
def beBytes (n x : Nat) : List Byte := (leBytes n x).reverse
/-- The digest after the blocks of 64 bytes that the list still holds. -/
def shaBlocks : Nat → List Byte → List (BitVec 32) → List (BitVec 32)
  | 0, _, h => h
  | n + 1, m, h =>
    let w := (List.range 16).map (fun (i : Nat) => BitVec.ofNat 32 (beNat ((m.drop (4 * i)).take 4)))
    shaBlocks n (m.drop 64) (List.zipWith (· + ·) h (shaRounds shaK w h))
/-- A message with its padding to whole blocks. -/
def shaPad (m : List Byte) : List Byte :=
  m ++ [0x80] ++ List.replicate ((119 - m.length % 64) % 64) 0 ++ beBytes 8 (8 * m.length)
/-- SHA-256 of a message, its first digest byte in bits [255:248]. -/
def sha256 (m : List Byte) : BitVec 256 :=
  let p := shaPad m
  BitVec.ofNat 256 (beNat ((shaBlocks (p.length / 64) p shaInit).flatMap (fun (x : BitVec 32) => beBytes 4 x.toNat)))

/-! ### ECDSA on P-256 -/

/-- The field of P-256. -/
def ecP : Nat := 0xffffffff00000001000000000000000000000000ffffffffffffffffffffffff
/-- The order of its base point. -/
def ecN : Nat := 0xffffffff00000000ffffffffffffffffbce6faada7179e84f3b9cac2fc632551
/-- The constant term of the curve, y² = x³ - 3x + b. -/
def ecB : Nat := 0x5ac635d8aa3a93e7b3ebbd55769886bc651d06b0cc53b0f63bce3c3e27d2604b
/-- The base point. -/
def ecG : Nat × Nat :=
  (0x6b17d1f2e12c4247f8bce6e563a440f277037d812deb33a0f4a13945d898c296,
   0x4fe342e2fe1a7f9b8ee7eb4a7c0f9e162bce33576b315ececbb6406837bf51f5)
/-- b to the power e modulo m, over the low bits of e. -/
def powMod (m : Nat) : Nat → Nat → Nat → Nat
  | 0, _, _ => 1 % m
  | k + 1, b, e => if e % 2 = 1 then b * powMod m k (b * b % m) (e / 2) % m else powMod m k (b * b % m) (e / 2)
/-- The inverse modulo a prime of 256 bits. -/
def invMod (m x : Nat) : Nat := powMod m 256 (x % m) (m - 2)
/-- The sum of two points of the curve; none is the point at infinity. -/
def ecAdd (x y : Option (Nat × Nat)) : Option (Nat × Nat) :=
  match x, y with
  | none, q => q
  | p, none => p
  | some (x1, y1), some (x2, y2) =>
    if x1 = x2 ∧ (y1 + y2) % ecP = 0 then none
    else
      let l := if x1 = x2 then (3 * x1 * x1 + ecP - 3) * invMod ecP (2 * y1) % ecP
               else (y2 + ecP - y1) * invMod ecP (x2 + ecP - x1) % ecP
      let x3 := (l * l + 2 * ecP - x1 - x2) % ecP
      some (x3, (l * (x1 + ecP - x3) + ecP - y1) % ecP)
/-- A multiple of a point, over the low bits of the factor. -/
def ecMul : Nat → Nat → Option (Nat × Nat) → Option (Nat × Nat)
  | 0, _, _ => none
  | k + 1, e, p => if e % 2 = 1 then ecAdd p (ecMul k (e / 2) (ecAdd p p)) else ecMul k (e / 2) (ecAdd p p)
/-- The pair is a point of the curve. -/
def ecOn (q : Nat × Nat) : Bool :=
  decide (q.1 < ecP) && decide (q.2 < ecP) && q.2 * q.2 % ecP == (q.1 * q.1 * q.1 + (ecP - 3) * q.1 + ecB) % ecP
/-- ECDSA verification of a digest under a public key. -/
def ecdsaVerify (q : Nat × Nat) (h : BitVec 256) (r t : Nat) : Bool :=
  if r = 0 ∨ ecN ≤ r ∨ t = 0 ∨ ecN ≤ t ∨ ecOn q = false then false
  else
    let w := invMod ecN t
    match ecAdd (ecMul 256 (h.toNat * w % ecN) (some ecG)) (ecMul 256 (r * w % ecN) (some q)) with
    | none => false
    | some (x, _) => x % ecN == r

end Sys2Proof.Machine
end

