-- ==== Sys2Proof/Machine/Kill.lean ====
section
/-!
DEFINITION. TKILL (R351 to R355) and the fostering of detached operations (R245).
-/
namespace Sys2Proof.Machine

/-- An activation ended by TKILL (R352): buffered sends discarded, loads abandoned, the message slot freed, no record; its
stores still drain. The atomic whose handler it was is acknowledged (R353). -/
def State.endKilled (s : State) (key : Nat) : State :=
  let core := coreOf key
  let c := s.ctx key
  let s1 := match (s.core core).inbox.find? (fun x => some x.id == c.slot) with
    | some x => if x.msg.kind = 4 then s.answer x.msg.ackKey x.msg.ackId .nothing else s
    | none => s
  (s1.freeMySlot key).modCtx key (fun c =>
    if c.st = 0 then freed c
    else { settled c with
      phase := .drain, buffered := [], deferred := [], rpt := none, delay := none, ld := 0, cp := 0, tl := 0
      pend := c.pend.filter (fun p => !p.load && p.counted), trapRec := 0 })

/-- A task's record on some core of a job, its own core first. -/
def State.taskRec (s : State) (asid : BitVec 16) (core : Nat) (t : BitVec 16) : Option TaskRec :=
  match (s.core core).tasks.find? (fun r => r.tag == t) with
  | some r => some r
  | none => match s.cores.findSome? (fun p => if p.2.asid = asid then p.2.tasks.find? (fun r => r.tag == t) else none) with
    | some r => some r
    | none => s.saved.findSome? (fun x => if x.asid = asid then x.cores.findSome? (fun p => p.2.tasks.find? (fun r => r.tag == t)) else none)
/-- The nearest live ancestor of a task, or the root (R245). -/
def State.heirOf (s : State) (asid : BitVec 16) (core : Nat) (t : BitVec 16) : BitVec 16 :=
  match s.taskRec asid core t with
  | some r => liveTask s.deadTags asid s.deadTags.length r.heir
  | none => 0
/-- The task records of a job changed, on the cores that run it and in what a job switch saved of it (R359). -/
def State.mapTasks (s : State) (asid : BitVec 16) (f : TaskRec → TaskRec) : State :=
  let on (c : Core) : Core := { c with tasks := c.tasks.map f }
  { s with
    cores := s.cores.map (fun p => if p.2.asid = asid then (p.1, on p.2) else p)
    saved := s.saved.map (fun x => if x.asid = asid then { x with cores := x.cores.map (fun p => (p.1, on p.2)) } else x) }
/-- Where the notice of an operation fostered from a task goes (R245). -/
def State.fosterOf (s : State) (asid : BitVec 16) (core : Nat) (t : BitVec 16) : BitVec 16 × Nat × Nat × Nat :=
  let h := s.heirOf asid core t
  let root := s.rootNotice asid
  match s.taskRec asid core t with
  | some r => if h = 0 then (0, (s.pkgOf asid).toNat, root.1, root.2) else (h, r.pkg, r.creator, r.foster)
  | none => (0, (s.pkgOf asid).toNat, root.1, root.2)
/-- The task that owns an operation: its own, or the one that adopted it (R238, R245). -/
def Op.owner (o : Op) : BitVec 16 := match o.foster with | some (h, _) => h | none => o.task

/-- TKILL (R351, R352): the filter entry is installed in every router, and the cores purge; a wait for a free entry is a
blocking wait. -/
def execTkill (a : Reg) (s : State) : Out :=
  let key := s.sched.cur
  let core := s.myCore
  let x := rdG s.me a
  let t := x.extractLsb' 0 16
  let svc := s.svc key
  let asid := if svc then x.extractLsb' 16 16 else (s.core core).asid
  if svc = false ∧ (x.extractLsb' 16 48 ≠ 0 ∨ t = 0) then .next (trapNow s cPRIV)
  else if svc = true ∧ (x.extractLsb' 32 32 ≠ 0 ∨ t = 0) then sendBad s 0
  else match s.me.await with
    | .kill n => if s.kills.any (fun k => k.id == n) then .next (holdBack s) else .next (retire s)
    | _ =>
      if 64 ≤ s.deadTags.length then .next (blockOn s .nothing 0)
      else
        let id := s.sched.nextId
        let cores := match s.job asid with | some j => (List.range 4096).filter j.holds | none => []
        let h := s.heirOf asid core t
        let k : Kill := { id := id, core := core, key := key, asid := asid, tag := t, todo := cores
                          ended := 0, discarded := 0, cancelled := 0, fostered := 0, creators := []
                          heir := s.fosterOf asid core t }
        let s1 : State := { s.bump.mapTasks asid (fun r => if r.heir = t then { r with heir := h } else r) with
          deadTags := s.deadTags ++ [{ asid := asid, tag := t, born := s.time, heir := h, since := id }], kills := s.kills ++ [k] }
        .next ((holdBack s1).modMe (fun c => { c with await := .kill id }))

/-- Where a core's detached operations of a killed task go (R245): by the task's record, or, where the purge has taken the last one
away, by what it said when TKILL began. -/
def State.fosterFor (s : State) (k : Kill) (core : Nat) : BitVec 16 × Nat × Nat × Nat :=
  if (s.taskRec k.asid core k.tag).isSome then s.fosterOf k.asid core k.tag else k.heir
/-- Creators noted with those of further records, one to each creator core and foster channel (R352). -/
def noteCreators (known : List (Nat × Nat × Nat × BitVec 16)) : List TaskRec → List (Nat × Nat × Nat × BitVec 16)
  | [] => known
  | r :: t => noteCreators (if known.any (fun c => c.1 == r.pkg && c.2.1 == r.creator && c.2.2.1 == r.foster) then known
      else known ++ [(r.pkg, r.creator, r.foster, r.parent)]) t
/-- One slot of the killed task (R245): the state, with what it adds to the counts of cancelled and fostered operations. -/
def State.killSlot (s : State) (k : Kill) (core n : Nat) : State × Nat × Nat :=
  let o := s.op core n
  if o.state = .free ∨ o.asid ≠ k.asid ∨ o.owner ≠ k.tag then (s, 0, 0)
  else if o.det then
    let s1 := s.setOp core n { o with foster := some (s.fosterFor k core) }
    (if o.state.terminal then s1.opNotice core n else s1, 0, 1)
  else if o.state.terminal then (s.retireOp core n, 0, 0)
  else ((s.setOp core n { o with ntf := false, killed := true }).cancelOp core n 0x42, 1, 0)
/-- TKILL_PURGE (R352, R353): one core. A core whose job is switched out purges when it is back (log entry 20). -/
def execTkillPurge (n core : Nat) (s : State) : Out :=
  match s.kills.find? (fun k => k.id == n) with
  | none => .next s
  | some k =>
    if !k.todo.contains core || !((s.core core).hasJob && (s.core core).asid == k.asid) then .next s
    else
      let ends := ((List.range 8).map (fun j => core * 8 + j)).filter (fun key =>
        decide ((s.ctx key).phase = .run) && (s.ctx key).taskTag == k.tag && decide ((s.ctx key).await ≠ .kill n))
      let s1 := ends.foldl (fun s key => s.endKilled key) s
      let gone := (s1.core core).inbox.filter (fun x => !x.busy && x.msg.tag == k.tag)
      let s2 := gone.foldl (fun s x =>
        (if x.msg.kind = 4 then s.answer x.msg.ackKey x.msg.ackId .nothing else s).freeSlot core x.id) s1
      let s3 := (List.range 32).foldl (fun s i =>
        let r := s.region core i
        if r.nbank ≠ 0 ∧ r.reclaim = 0 ∧ r.origin = .ralloc ∧ r.task = k.tag ∧ r.asid = k.asid then
          s.setRegion core i { r with reclaim := 1 } else s) s2
      let s4 := (List.range 256).foldl (fun s g =>
        match (s.group g).member core with
        | some m => if m.task = k.tag ∧ s.groupHere g core = true then s.withdraw g core 0x11 0x42 false else s
        | none => s) s3
      let (s5, c, f) := (List.range 128).foldl (fun (acc : State × Nat × Nat) i =>
        let (t, a, b) := acc.1.killSlot k core i
        (t, acc.2.1 + a, acc.2.2 + b)) (s4, 0, 0)
      let recs := (s5.core core).tasks.filter (fun r => r.tag == k.tag)
      let s6 := (s5.retireKilled core).modCore core (fun x => { x with
        tasks := x.tasks.filter (fun r => !(r.tag == k.tag)), fwds := x.fwds.filter (fun w => !(w.tag == k.tag)) })
      .next { s6 with kills := s6.kills.map (fun q => if q.id = n then
        { q with todo := q.todo.filter (· != core), ended := q.ended + ends.length, discarded := q.discarded + gone.length
                 cancelled := q.cancelled + c, fostered := q.fostered + f
                 creators := noteCreators q.creators recs }
        else q) }
/-- A DEATH notice (R354). One whose creator's package is bound no more goes to the job root's trap channel (log entry 51). -/
def State.deathNotice (s : State) (k : Kill) (pkg dest chan : Nat) (parent : BitVec 16) : State :=
  let w0 := header 9 (BitVec.ofNat 6 chan) parent (BitVec.ofNat 12 dest) (BitVec.ofNat 12 k.core) (s.core k.core).serial
  let m := mkMsg #v[w0, k.tag.setWidth 64, BitVec.ofNat 64 (k.ended + 2 ^ 32 * k.discarded), BitVec.ofNat 64 (k.cancelled + 2 ^ 32 * k.fostered),
    s.time, 0, 0, 0] k.asid (s.pkgOf k.asid)
  let s1 := s.takeSerial k.core
  if pkg = (s.pkgOf k.asid).toNat then s1.inject k.core m
  else match (s.job k.asid).bind (fun j => (s.famOf j pkg).map (fun _ => j.fld 11 0 12 + pkg)) with
    | some e => s1.fabSend k.asid e true none 0 0 (.msg m none)
    | none => s1.inject k.core (m.sentTo (s.rootNotice k.asid))
/-- TKILL_COMPLETE (R352): every core has acknowledged; DEATH notices go out, and an issuer of the task itself ends. -/
def execTkillComplete (n : Nat) (s : State) : Out :=
  match s.kills.find? (fun k => k.id == n) with
  | none => .next s
  | some k =>
    if k.todo ≠ [] then .next s
    else
      let s1 := k.creators.foldl (fun s c => s.deathNotice k c.1 c.2.1 c.2.2.1 c.2.2.2) s
      let s2 : State := { s1 with kills := s1.kills.filter (fun q => !(q.id == n)) }
      let c := s2.ctx k.key
      if c.phase = .run ∧ c.await = .kill n ∧ c.taskTag = k.tag ∧ (s2.core k.core).asid = k.asid then .next (s2.endKilled k.key)
      else .next s2

end Sys2Proof.Machine
end

