-- ==== Sys2Proof/Machine/Job.lean ====
section
/-!
DEFINITION. Jobs: the launch (R376 to R383), the end of a job (R369, R246) and job switches (R358 to R362).
-/
namespace Sys2Proof.Machine

/-! ### The Kamlan's own reads of this package's DRAM -/

/-- Bytes at a local address, read as a local read is (R206); none where a line is poisoned or is not DRAM. -/
def State.takeLocal (s : State) (a n : Nat) : State × Option (List Byte) :=
  let lines := (List.range ((a + n + 63) / 64 - a / 64)).map (· + a / 64)
  if dramSize < a + n || lines.any (fun l => s.dramPoisoned (l * 64)) then (s, none)
  else
    let s1 := lines.foldl (fun s l => s.obtainLine (l * 64) false) s
    if lines.any (fun l => s1.dramPoisoned (l * 64)) then (s1, none) else (s1, some (memBytes s1.mem.cells a n))
/-- The PA of an object of a job lies in this package's DRAM (R194, R369): its member bits are zero or the package's own. -/
def State.ownPa (s : State) (j : Job) (pa : Nat) : Bool :=
  decide (pa / 2 ^ 40 = 0) || decide (pa / 2 ^ 40 = s.ownMember j)
/-- Numbers in groups of eight bytes. -/
def wordsOf : Nat → List Byte → List Word
  | 0, _ => []
  | n + 1, bs => BitVec.ofNat 64 (leNat (bs.take 8)) :: wordsOf n (bs.drop 8)

/-! ### The checks of a launch (R378, R379, R381) -/

/-- Words whose condition holds. -/
def wordsWhere (xs : List (Nat × Bool)) : List Nat := (xs.filter (·.2)).map (·.1)
/-- Bits of a word from a place on are not all zero. -/
def Job.above (j : Job) (i lo : Nat) : Bool := decide ((j.word i).toNat / 2 ^ lo ≠ 0)
/-- NBANK of a region entry. -/
def Job.nbank (j : Job) (i : Nat) : Nat := j.fld (128 + i) 0 8

/-- Reason 2: header fields outside their maps (R378). -/
def Job.headerBad (j : Job) : List Nat :=
  wordsWhere ([(0, decide (j.fld 0 19 5 ≠ 0) || decide (j.fld 0 24 8 ≠ 1) || j.above 0 44),
    (2, decide (503 < j.fld 2 16 9) || j.above 2 34),
    (3, decide (1024 < j.fld 3 10 11) || decide (2048 < j.fld 3 32 12) || j.above 3 44),
    (8, decide (j.fld 8 0 2 ≠ 0) || j.above 8 57),
    (9, decide (j.fld 9 52 5 < 4) || decide (16 < j.fld 9 52 5) || j.above 9 57),
    (10, j.above 10 36),
    (11, decide (4096 < j.fld 11 12 13) || j.above 11 25),
    (12, decide (j.fld 12 0 6 ≠ 0) || j.above 12 52),
    (13, decide (j.fld 13 0 5 ≠ 0) || j.above 13 52)] ++
    (List.range 5).map (fun i => (27 + i, j.above (27 + i) 0)))
/-- Reason 2: level entries outside their maps (R379); those above NLEVEL are all zero. -/
def Job.levelsBad (j : Job) : List Nat :=
  wordsWhere ((List.range 8).flatMap (fun l =>
    let w := 32 + 4 * l
    if j.nlevel < l then (List.range 4).map (fun i => (w + i, j.above (w + i) 0))
    else [(w, decide (j.fld w 13 3 ≠ 0) || decide (j.fld w 16 13 = 0) || decide (4096 < j.fld w 16 13) || j.above w 29),
      (w + 1, decide (j.fld (w + 1) 0 32 = 0) || decide (1024 < j.fld (w + 1) 32 11) || j.above (w + 1) 43),
      (w + 2, j.above (w + 2) 40), (w + 3, j.above (w + 3) 0)]))
/-- Reason 2: channel and region entries outside their maps (R379). -/
def Job.tablesBad (j : Job) : List Nat :=
  wordsWhere ((List.range 64).map (fun c => (64 + c, decide (j.fld (64 + c) 0 2 ≠ 0) || j.above (64 + c) 57)) ++
    (List.range 32).map (fun i => (128 + i, decide (192 < j.nbank i) || j.above (128 + i) 10 || decide (j.fld (128 + i) 8 2 = 3) ||
      (decide (j.nbank i = 0) && j.above (128 + i) 0))))
/-- The partitions of a stratum form a rectangle, or there are none (R16). -/
def rectangle (ps : List Nat) : Bool :=
  let ys := ps.map (· / 4 % 4)
  let xs := ps.map (· % 4)
  let least (l : List Nat) : Nat := 3 - maxOf (l.map (3 - ·))
  ps.isEmpty || (maxOf ys + 1 - least ys) * (maxOf xs + 1 - least xs) == ps.length
/-- Partitions of the record. -/
def Job.parts (j : Job) : List Nat := (List.range 64).filter (fun p => (j.word 1).getLsbD p)
/-- A partition is held by another job (R381, reason 4): one runs or is being ended there, or a switch is bringing one. A
partition whose job is switched out with nothing in its place is free (log entry 35). -/
def State.partHeld (s : State) (p : Nat) : Bool :=
  s.cores.any (fun c => c.2.hasJob && partitionOf c.1 == p) ||
  s.jobs.any (fun j => !j.active && (j.word 1).getLsbD p) ||
  (match s.switch with | some w => w.parts.getLsbD p | none => false)
/-- Reason 4: PARTS. -/
def State.partsBad (s : State) (j : Job) : List Nat :=
  wordsWhere [(1, (List.range 4).any (fun t => !rectangle (j.parts.filter (fun p => p / 16 == t))) || j.parts.any s.partHeld)]
/-- Two ranges meet. -/
def rangesMeet (a n b m : Nat) : Bool := decide (0 < n) && decide (0 < m) && decide (a < b + m) && decide (b < a + n)
/-- Reason 5: what another job holds, or a range past its limit. An engine comes with its tiles. -/
def State.sharesBad (s : State) (j : Job) : List Nat :=
  wordsWhere ([(2, decide (504 < j.fld 2 16 9 + j.fld 2 25 9) || s.jobs.any (fun k => decide (k.fld 2 0 16 &&& j.fld 2 0 16 ≠ 0))),
    (3, decide (1024 < j.fld 3 0 10 + j.fld 3 10 11) || decide (2048 < j.fld 3 21 11 + j.fld 3 32 12) ||
        s.jobs.any (fun k => rangesMeet (k.fld 3 0 10) (k.fld 3 10 11) (j.fld 3 0 10) (j.fld 3 10 11) ||
          rangesMeet (k.fld 3 21 11) (k.fld 3 32 12) (j.fld 3 21 11) (j.fld 3 32 12)))] ++
    (List.range 4).map (fun i => (4 + i, s.jobs.any (fun k => k.word (4 + i) &&& j.word (4 + i) != 0))) ++
    [(11, decide (4096 < j.fld 11 0 12 + j.fld 11 12 13) ||
        s.jobs.any (fun k => rangesMeet (k.fld 11 0 12) (k.fld 11 12 13) (j.fld 11 0 12) (j.fld 11 12 13)))])
/-- Reason 6: channel entries. -/
def Job.chansBad (j : Job) : List Nat :=
  wordsWhere ((List.range 64).map (fun c => (64 + c,
    if j.chanAllot c then decide (j.fld (64 + c) 2 50 = 0) else decide (j.word (64 + c) ≠ 0))))
/-- Units of a level's domain (R381, reason 7). -/
def State.unitsOf (s : State) (j : Job) (dom : Nat) : Nat :=
  if dom < 4 then ((List.range (unitCount dom)).filter (j.unitHeld dom)).length
  else if dom = 5 then ((List.range (j.fld 11 12 13)).filter (fun k => (s.fam (j.fld 11 0 12 + k)).coh)).length
  else if dom = 6 then 4096
  else j.fld 11 12 13
/-- Reason 7: levels, each condition with the lowest word that it involves: the level's own, PARTS in word 1 where its units are too few,
FAMCOUNT in word 11 where its packages are. -/
def State.levelRulesBad (s : State) (j : Job) : List Nat :=
  wordsWhere (j.levels.flatMap (fun l =>
    let w := 32 + 4 * l
    let dom := j.fld w 0 3
    let c := j.fld w 5 6
    [(w, j.chanRefused c || decide (j.fld w 11 2 ≠ j.fld (64 + c) 52 2) || (l == 0 && dom == 6) ||
       (dom != 6 && decide (j.fld (w + 2) 32 8 ≠ 0))),
     (if dom < 4 then 1 else 11, decide (s.unitsOf j dom < j.fld w 16 13)),
     (w + 2, (List.range 32).any (fun i => (j.word (w + 2)).getLsbD i && decide (j.nbank i = 0)))]))
/-- The core receives a region entry: the Collie heap, or one of a level that holds it (R380). -/
def Job.receives (j : Job) (core i : Nat) : Bool :=
  decide (i = j.fld 8 52 5) || j.levels.any (fun l => j.levelHolds l core && (j.word (34 + 4 * l)).getLsbD i)
/-- The region entries that a core receives, in declaration order. -/
def Job.regionsOn (j : Job) (core : Nat) : List Nat := (List.range 32).filter (j.receives core)
/-- Some core of the job receives both region entries. -/
def Job.regionsShare (j : Job) (i k : Nat) : Bool :=
  (List.range 4096).any (fun c => j.holds c && j.receives c i && j.receives c k)
/-- First fit of regions in declaration order (R172): entry, first bank and length of each, or the entry that does not fit. An entry
takes the lowest banks that are free on every core that receives it, so that its offset is the same on all of them (R81; log
entry 46). -/
def Job.fit (j : Job) : List Nat → List (Nat × Nat × Nat) → Except Nat (List (Nat × Nat × Nat))
  | [], done => .ok done
  | i :: t, done =>
    let n := j.nbank i
    let (lo, len) := bankGroup (j.fld (128 + i) 8 2)
    let beside := done.filter (fun r => j.regionsShare i r.1)
    let free (b : Nat) : Bool := beside.all (fun r => decide (r.2.1 + r.2.2 ≤ b) || decide (b + n ≤ r.2.1))
    match ((List.range (len + 1 - n)).map (· + lo)).find? free with
    | some b => j.fit t (done ++ [(i, b, n)])
    | none => .error i
/-- The region entries that some core receives. -/
def Job.regionsUsed (j : Job) : List Nat := (List.range 32).filter (fun i => (List.range 4096).any (fun c => j.holds c && j.receives c i))
/-- The one layout of the job's regions. -/
def Job.layout (j : Job) : Except Nat (List (Nat × Nat × Nat)) := j.fit j.regionsUsed []
/-- The regions of a core, in declaration order: its part of the layout. -/
def Job.fitOn (j : Job) (core : Nat) : Except Nat (List (Nat × Nat × Nat)) :=
  match j.layout with
  | .ok rs => .ok (rs.filter (fun r => j.receives core r.1))
  | .error i => .error i
/-- Reason 8: regions. -/
def Job.regionsBad (j : Job) : List Nat :=
  if j.nbank (j.fld 8 52 5) = 0 then [8]
  else match j.layout with | .error i => [128 + i] | .ok _ => []
/-- The decode table of a record of 1,088 bytes (R378). -/
def dtOfBytes (bs : List Byte) : List (BitVec 19) × Bool :=
  ((List.range 256).map (fun (i : Nat) => BitVec.ofNat 19 (leNat ((bs.drop (4 * i)).take 4))), (bs.getD 1024 0).getLsbD 0)
/-- Format record k of 15 (R378). -/
def ftOfBytes (bs : List Byte) (k : Nat) : BitVec 256 := BitVec.ofNat 256 (leNat ((bs.drop (32 * k)).take 32))
/-- Reason 9: the decode and format records. One that cannot be read is refused as one that breaks its rules (log entry 35). -/
def State.recordsBad (s : State) (j : Job) : List Nat :=
  let dt := j.fld 12 0 52
  let ft := j.fld 13 0 52
  wordsWhere [
    (12, dt != 0 && (!s.ownPa j dt || (match (s.takeLocal (dt % 2 ^ 40) 1088).2 with
      | some bs => !dtOrdered (dtOfBytes bs).1 (dtOfBytes bs).2
      | none => true))),
    (13, ft != 0 && (!s.ownPa j ft || (match (s.takeLocal (ft % 2 ^ 40) 480).2 with
      | some bs => (List.range 15).any (fun k => ftOfBytes bs k != 0 && !ftRecordOk (ftOfBytes bs k))
      | none => true)))]
/-- Reason 10: the trap ring, and the cores and channels of notices. -/
def Job.noticesBad (j : Job) : List Nat :=
  wordsWhere [(9, decide (j.fld 9 0 6 ≠ 0) || decide (0xC ≤ regionOf (j.fld 9 0 52))),
    (10, !j.holds (j.fld 10 0 12) || j.chanRefused (j.fld 10 12 6) || !j.holds (j.fld 10 18 12) || j.chanRefused (j.fld 10 30 6))]
/-- Reason 11: the roots (R196). -/
def State.rootsBad (s : State) (j : Job) : List Nat :=
  wordsWhere ((List.range 12).map (fun r =>
    let x := (j.word (14 + r)).toNat
    (14 + r, x != 0 && (decide (x % 2 ^ 21 ≠ 0) || decide (x / 2 ^ 40 ≠ s.ownMember j) || decide (dramSize < x % 2 ^ 40 + 2 ^ 21)))))
/-- The reasons of R381 in order, from 2 on, with the words that offend. -/
def State.launchReasons (s : State) (j : Job) : List (Nat × List Nat) :=
  [(2, j.headerBad ++ j.levelsBad ++ j.tablesBad),
   (3, if (s.job j.asid).isSome then [0] else []),
   (4, s.partsBad j), (5, s.sharesBad j), (6, j.chansBad), (7, s.levelRulesBad j), (8, j.regionsBad),
   (9, s.recordsBad j), (10, j.noticesBad), (11, s.rootsBad j)]
/-- The first failing reason, with the lowest word that offends (R381). -/
def State.launchRefusal (s : State) (j : Job) : Option (Nat × Nat) :=
  ((s.launchReasons j).find? (fun p => !p.2.isEmpty)).map (fun p => (p.1, p.2.foldl Nat.min 159))

/-! ### The allotment (R376, R380, R382) -/

/-- One core allotted: its tables written (R376, step 4). -/
def State.allotCore (s : State) (j : Job) (dt : List (BitVec 19) × Bool) (ft : Tab (BitVec 256)) (core : Nat) : State :=
  let s1 := (List.range 32).foldl (fun s i => if (s.region core i).nbank = 0 then s else s.clearRegion core i) s
  let s2 := match j.fitOn core with
    | .ok rs => rs.foldl (fun (s : State) (r : Nat × Nat × Nat) => s.setRegion core r.1
        { first := r.2.1, nbank := r.2.2, origin := .launch, task := 0, asid := j.asid, reclaim := 0 }) s1
    | .error _ => s1
  let s3 := (List.range 64).foldl (fun s c =>
    let w := j.word (64 + c)
    s.modChan core c (fun _ => { Chan.initial with
      entry := w.extractLsb' 2 50, prio := w.extractLsb' 52 2, enable := w.getLsbD 54, allot := w.getLsbD 55, atomh := w.getLsbD 56 })) s2
  let s4 := (List.range (j.nbOn core)).foldl (fun s i => s.setBar (core * 1024 + i) Barrier.initial) s3
  s4.modCore core (fun c => { tableChanged c dt.1 dt.2 with
    asid := j.asid, hasJob := true, nb := j.nbOn core, ft := ft, inbox := [], fwds := [], guards := [], tasks := [], notes := 0, late := []
    aflags := 0, trapCause := 0, hintDrop := 0 })
/-- Level 0 started (R382). -/
def State.startLevel0 (s : State) (j : Job) : State :=
  let dom := j.level 0 0 0 3
  let n := j.level 0 0 16 13
  let ch := j.level 0 0 5 6
  let own := if dom = 5 then s.ownMember j else j.fld 0 32 12
  let units : List (Nat × Nat) :=
    if dom < 4 then (((s.levelUnits j 0).take n).map (·.leader)).zipIdx.map (fun p => (p.2, p.1))
    else if own < n then [(own, j.lowestCore)] else []
  let entry : Word := ((j.word (64 + ch)).extractLsb' 2 50 ++ (0 : BitVec 2)).setWidth 64
  units.zipIdx.foldl (fun s (u : (Nat × Nat) × Nat) =>
    s.inject 4096 (mkMsg #v[header 0 (BitVec.ofNat 6 ch) 0 (BitVec.ofNat 12 u.1.2) 0 (BitVec.ofNat 14 u.2),
      entry, j.word 26, BitVec.ofNat 64 u.1.1, 0, 0, 0, 0] j.asid (BitVec.ofNat 12 (j.fld 0 32 12)))) s
/-- A launch that passes every check (R376, steps 3 to 6). -/
def State.launchJob (s : State) (j : Job) : State :=
  let dt := j.fld 12 0 52
  let ft := j.fld 13 0 52
  let (s1, table) := if dt = 0 then (s, (List.replicate 256 (0 : BitVec 19), false))
    else match s.takeLocal (dt % 2 ^ 40) 1088 with
      | (t, some bs) => (t, dtOfBytes bs)
      | (t, none) => (t, (List.replicate 256 (0 : BitVec 19), false))
  let (s2, entries) := if ft = 0 then (s1, ([] : Tab (BitVec 256)))
    else match s1.takeLocal (ft % 2 ^ 40) 480 with
      | (t, some bs) => (t, (List.range 15).foldl (fun tab k =>
          if ftOfBytes bs k = 0 then tab else tabSet tab (k + 1) (ftOfBytes bs k ||| 0x8000)) ([] : Tab (BitVec 256)))
      | (t, none) => (t, [])
  let s3 : State := { s2 with
    jobs := s2.jobs ++ [j], pkgIdx := BitVec.ofNat 12 (j.fld 0 32 12)
    sems := (List.range (j.fld 3 10 11)).foldl (fun t k => tabSet t (j.fld 3 0 10 + k) 0) s2.sems }
  let s4 := ((List.range 4096).filter j.holds).foldl (fun s c => s.allotCore j table entries c) s3
  (s4.startLevel0 j).modDev (fun d => { d with launchState := 2, launchReason := 0, launchWord := 0, launchAsid := j.asid })
/-- A refused launch (R377, R381). -/
def State.refuseLaunch (s : State) (reason word : Nat) (asid : BitVec 16) : State :=
  s.modDev (fun d => { d with launchState := 3, launchReason := BitVec.ofNat 8 reason, launchWord := BitVec.ofNat 8 word, launchAsid := asid })
/-- LAUNCH (R369, R376, R411): the whole launch is one step, so BUSY is never seen (log entry 35). -/
def execLaunch (v : Word) (s : State) : Out :=
  let pa := v.toNat
  if s.dev.bootState ≠ 3 ∨ s.dev.launchState = 1 then .next s
  else if pa % 256 ≠ 0 ∨ 2 ^ 45 ≤ pa ∨ ¬ (pa / 2 ^ 40 = 0 ∨ s.homeHere pa = true) then .next (s.refuseLaunch 1 0 0)
  else match s.takeLocal (pa % 2 ^ 40) 1280 with
    | (s1, none) => .next (s1.refuseLaunch 1 0 0)
    | (s1, some bs) =>
      let ws := wordsOf 160 bs
      let j : Job := { asid := (ws.headD 0).extractLsb' 0 16, record := ws, active := true }
      match s1.launchRefusal j with
      | some (r, w) => .next (s1.refuseLaunch r w j.asid)
      | none => .next (s1.launchJob j)

/-! ### The end of a job (R369, R246, R174, R269, R305, R384) -/

/-- A RUNNING operation of an ended job is stopped at its unit. -/
def State.stopOp (s : State) (core slot : Nat) : State :=
  let o := s.op core slot
  match (if o.form.isCopy then 0 else o.form.cls) with
  | 0 =>
    let s1 := s.modFab (fun f => { f with retry := f.retry.filter (fun r => match r.body with
      | .beat c n _ _ => !(c == core && n == slot)
      | _ => true) })
    (s1.modOp core slot (fun x => { x with unacked := 0 })).dropBeats core slot
  | 1 => s.cancelMat core slot
  | 2 => s.cancelColl core slot
  | _ =>
    let p := fabPort o.record
    if o.form = .circ ∧ (s.port p).op = some (core * 128 + slot) then s.setupFails p 0x11 o.cancel (s.port p).reason.toNat
    else s.endDrain core slot 0x11 o.cancel
/-- A slot of an ended job (R246): CANCELLED with cause 0x43 where it was not terminal, with no NOTIFY and no barrier changed,
and then retired. -/
def State.endJobOp (s : State) (core slot : Nat) : State :=
  let o := s.op core slot
  if o.state = .free then s
  else if o.state.terminal then s.retireOp core slot
  else
    let s1 := s.setOp core slot { o with bar := false, ntf := false, foster := none, cancel := 0x43 }
    let s2 := if o.state = .running ∧ (o.status = 0 ∨ o.status = 0x08) then s1.stopOp core slot else s1
    let o2 := s2.op core slot
    (s2.endOp core slot .cancelled 0x11 0x43 (if o.form.counts = true ∨ o.state ≠ .running then s2.cancelWord o2 else o2.word2)).retireOp core slot
/-- The activations, messages and records of a core whose job ends. -/
def State.endOnCore (s : State) (core : Nat) : State :=
  let s1 := ((List.range 8).map (fun i => core * 8 + i)).foldl (fun s key =>
    if (s.ctx key).phase = .run then s.endKilled key else s.modCtx key (fun c => { c with trapRec := 0 })) s
  let s2 := (s1.core core).inbox.foldl (fun s x => if x.msg.kind = 4 then s.answer x.msg.ackKey x.msg.ackId .nothing else s) s1
  s2.modCore core (fun c => { c with hasJob := false, inbox := [], fwds := [], tasks := [], notes := 0, late := [] })
/-- The completion record of an operation of a core that is switched out, when its job ends (R243, R246): CANCELLED with cause 0x43.
One in a scratchpad that is switched out with it is lost with the image. -/
def State.endSavedOp (s : State) (core slot : Nat) (o : Op) : State :=
  let a := hdrCraddr o.record
  let o1 := { o with state := .cancelled, status := 0x11, cause := 0x43, word2 := s.cancelWord o, word3 := s.time }
  if o.state = .free ∨ o.state.terminal = true ∨ a = 0 ∨ (isSp a = true ∧ ((s.core (spOwner a)).asid ≠ o.asid ∨ (s.core (spOwner a)).hasJob = false)) then s
  else (s.jobWrite32 core o.asid o.svc a (recordBytes core slot o1)).1
/-- A packet of an ended job within the package goes on only where it is a store to perform. -/
def Pkt.survives : Pkt → Bool
  | .rstore _ _ _ _ | .atom _ _ _ _ _ _ _ => true
  | .held _ _ => true
  | .sem _ (.add _) _ | .sem _ (.set _) _ => true
  | _ => false
/-- A packet names the job. -/
def Pkt.ofJob (asid : BitVec 16) : Pkt → Bool
  | .barrier _ _ a | .sem _ _ a | .chanCtl _ _ _ _ a | .flip _ _ _ _ _ _ a => a == asid
  | .bnote _ n => n.asid == asid
  | _ => false
/-- The job ends (R369): selection of its messages stops, its activations end, its slots are retired, and what it has armed,
queued or saved is discarded. Its stores drain. -/
def State.endJob (s : State) (j : Job) : State :=
  let cores := (List.range 4096).filter (fun c => (s.core c).hasJob && (s.core c).asid == j.asid)
  let s0 := (s.saved.filter (fun x => x.asid == j.asid && x.out)).foldl (fun s x => x.ops.foldl (fun s p => s.endSavedOp (p.1 / 128) (p.1 % 128) p.2) s) s
  let s1 := cores.foldl (fun s c => (List.range 128).foldl (fun s n => s.endJobOp c n) s) s0
  let s2 := cores.foldl (fun s c => s.endOnCore c) s1
  let lost (f : Flight) : Bool := !f.body.survives && (cores.contains f.src || f.body.ofJob j.asid)
  let s3 := (s2.flights.filter lost).foldl (fun s f => s.answer f.key f.op .nothing) s2
  let own (e : Option Lane) : Option Lane := match e with | some l => if l.asid = j.asid then none else some l | none => none
  let s4 := s3.modPh (fun p => { p with engines := p.engines.map (fun e =>
    (e.1, { e.2 with matrix := own e.2.matrix, phase := own e.2.phase, transfer := own e.2.transfer })) })
  { s4 with
    jobs := s4.jobs.map (fun k => if k.asid = j.asid then { k with active := false } else k)
    cores := s4.cores.map (fun p => (p.1, { p.2 with pins := p.2.pins.filter (fun q => !(q.1 == j.asid)) }))
    mem := { s4.mem with pins := s4.mem.pins.filter (fun q => !(q.2.1 == j.asid)) }
    flights := s4.flights.filter (fun f => !lost f)
    armed := s4.armed.filter (fun w => !(w.asid == j.asid))
    kills := s4.kills.filter (fun k => !(k.asid == j.asid))
    saved := s4.saved.filter (fun x => !(x.asid == j.asid && x.out))
    savedInbox := s4.savedInbox.filter (fun p => !(p.2.msg.asid == j.asid))
    groups := s4.groups.filter (fun g => !(j.word (4 + g.1 / 64)).getLsbD (g.1 % 64)) }
/-- Stores of an ended job are all performed, and its contexts are free. -/
def State.drainedJob (s : State) (cores : List Nat) : Bool :=
  cores.all (fun c => (List.range 8).all (fun i => decide ((s.ctx (c * 8 + i)).phase = .free)) && (s.core c).sb.isEmpty) &&
  !s.mem.l2q.any (fun e => cores.contains e.core) && !s.flights.any (fun f => cores.contains f.src)
/-- What an ended job held is reclaimed (R369): regions, barriers, map entries and engine entries. -/
def State.reclaimJob (s : State) (j : Job) (cores : List Nat) : State :=
  let s1 := cores.foldl (fun s c =>
    let t := (List.range 32).foldl (fun s i => if (s.region c i).nbank = 0 then s else s.setRegion c i { s.region c i with reclaim := 2 }) s
    let u := (List.range (t.core c).nb).foldl (fun s i => s.setBar (c * 1024 + i) Barrier.initial) t
    u.modCore c (fun x => { x with nb := 0 })) s
  let s2 := (List.range (j.fld 11 12 13)).foldl (fun s k => s.modFam (j.fld 11 0 12 + k) (fun _ => Fam.initial)) s1
  let s3 := ((List.range 16).filter (fun e => (j.word 2).getLsbD e)).foldl (fun s e => s.dropImages e j.asid) s2
  { s3 with jobs := s3.jobs.filter (fun k => !(k.asid == j.asid)) }
/-- JOBEND (R369): the write ends the job, and the same step reclaims what it held once its stores have drained (log entry
35). -/
def execJobend (v : Word) (s : State) : Out :=
  match s.job (v.extractLsb' 0 16) with
  | none => .next s
  | some j =>
    if j.active then .next (s.endJob j)
    else
      let cores := (List.range 4096).filter (fun c => j.holds c && !(s.core c).hasJob && (s.core c).asid == j.asid)
      if s.drainedJob cores then .next (s.reclaimJob j cores) else .next s

/-! ### Job switches (R358 to R362) -/

/-- Slots of a save area: 60 for a partition with service cores, else 64 (R360). -/
def areaSlots (parts : Word) : Nat :=
  ((List.range 64).filter (fun p => parts.getLsbD p)).foldl (fun n p => n + (if p % 16 = 0 then 60 else 64)) 0
/-- Bytes of a save area (R360). -/
def areaSize (parts : Word) : Nat := 0x10000 + areaSlots parts * 0x200000
/-- Job cores of a set of partitions, in increasing order. -/
def coresIn (parts : Word) : List Nat := (List.range 4096).filter (fun c => !isService c && parts.getLsbD (partitionOf c))
/-- An area is a multiple of 64 KiB and lies wholly in this package's DRAM. -/
def State.areaOk (s : State) (pa : Word) (parts : Word) : Bool :=
  decide (pa.toNat % 0x10000 = 0) && decide (pa.toNat < 2 ^ 45) && (decide (pa.toNat / 2 ^ 40 = 0) || s.homeHere pa.toNat) &&
  decide (pa.toNat % 2 ^ 40 + areaSize parts ≤ dramSize)
/-- The job of each partition of a set, or none. -/
def State.partJobs (s : State) (parts : Word) : List (Option (BitVec 16)) :=
  ((List.range 64).filter (fun p => parts.getLsbD p)).map (fun p =>
    (s.cores.find? (fun c => c.2.hasJob && partitionOf c.1 == p)).map (·.2.asid))
/-- The bytes of an area, poisoned lines apart. -/
def State.areaBytes (s : State) (pa : Word) (off n : Nat) : Option (List Byte) := (s.takeLocal (pa.toNat % 2 ^ 40 + off) n).2
/-- A header field of an area. -/
def hdrNum (h : List Byte) (lo n : Nat) : Nat := leNat ((h.drop lo).take n)
/-- The header that a switch asks for (R360, reason 5). -/
def headerOk (h : List Byte) (asid : BitVec 16) (parts : Word) : Bool :=
  hdrNum h 0 4 == 0x53574150 && hdrNum h 4 4 == 1 && hdrNum h 8 8 == Config.serial.toNat && hdrNum h 16 2 == asid.toNat &&
  hdrNum h 24 8 == parts.toNat
/-- A digest of 32 bytes as its bytes in order. -/
def digestBytes (d : BitVec 256) : List Byte := beBytes 32 d.toNat
/-- The reason of R360 for which a switch is refused, or 0. -/
def State.switchRefusal (s : State) (v : Word) : Nat :=
  let parts := s.dev.swParts
  let js := (s.partJobs parts).eraseDups
  let out := js.any (·.isSome)
  let into := !v.getLsbD 16
  let save := s.dev.swSave
  let load := s.dev.swLoad
  let n := areaSize parts
  let hdr := (s.areaBytes load 0 0x10000).getD []
  if s.switch.isSome then 1
  else if parts = 0 ∨ 1 < js.length then 2
  else if out && !s.areaOk save parts then 3
  else if into && (!s.areaOk load parts || rangesMeet (save.toNat % 2 ^ 40) n (load.toNat % 2 ^ 40) n) then 4
  else if into && !headerOk hdr (v.extractLsb' 0 16) parts then 5
  else if into && (match s.areaBytes load 0x10000 (n - 0x10000) with
      | some bs => digestBytes (sha256 bs) != (hdr.drop 48).take 32
      | none => true) then 6
  else 0
/-- JOB_SWITCH (R358, R360): a write of SWASID. -/
def execJobSwitch (v : Word) (s : State) : Out :=
  let s0 := s.modDev (fun d => { d with swAsid := v.extractLsb' 0 17 })
  let r := s.switchRefusal v
  if r ≠ 0 then .next (s0.modDev (fun d => { d with swRefused := true, swReason := BitVec.ofNat 4 r }))
  else
    let parts := s.dev.swParts
    let hdr := (s.areaBytes s.dev.swLoad 0 0x10000).getD []
    let into := if v.getLsbD 16 then none
      else some (v.extractLsb' 0 16, BitVec.ofNat 256 (beNat ((hdr.drop 48).take 32)))
    let w : Switch := { parts := parts, out := (s.partJobs parts).headD none, into := into, save := s.dev.swSave.toNat % 2 ^ 40, born := s.time
                        resting := (List.range 16).filter (fun e => (s.engine e).bnew && match (s.engine e).phase with
                          | some l => l.waiting && parts.getLsbD (partitionOf (l.op / 128))
                          | none => false) }
    .next { s0.modDev (fun d => { d with swRefused := false }) with switch := some w }

/-- An operation that a switch must let finish before it is taken up (R247, R319): a QUEUED FAB operation, and a collective of a
member. -/
def State.mustFinish (s : State) (core slot : Nat) : Bool :=
  let o := s.op core slot
  (decide (o.state = .queued) && decide (o.form.cls = 3)) ||
  ((decide (o.state = .queued) || decide (o.state = .pending)) && o.form.isData && ((s.group o.unit.toNat).member core).isSome)
/-- An operation that a switch need not wait for (R247): one that neither runs nor must finish, a PH form that waits under R268, or a
join or leave that waits for a boundary. -/
def State.opRests (s : State) (core slot : Nat) : Bool :=
  let o := s.op core slot
  (!decide (o.state = .running) && !s.mustFinish core slot) || (decide (o.state = .running) && decide (o.status = 0) && (decide (o.form = .gjoin) || decide (o.form = .gleave) ||
    (o.form.isPh && (match (s.engine o.unit.toNat).phase with
      | some l => l.op == core * 128 + slot && l.waiting && s.laneRests o.unit.toNat core
      | none => false))))
/-- Steps 2 and 3 of R358 are over on a core. -/
def State.coreRests (s : State) (core : Nat) : Bool :=
  (List.range 8).all (fun i => decide ((s.ctx (core * 8 + i)).phase = .free)) && (s.core core).fwds.isEmpty && (s.core core).sb.isEmpty &&
  !s.mem.l2q.any (fun e => e.core == core) && !s.flights.any (fun f => f.src == core && (match f.body with
    | .rstore _ _ _ _ | .atom _ _ _ _ _ _ _ | .held _ _ | .chanCtl _ _ _ _ _ => true
    | _ => false)) &&
  (List.range 128).all (s.opRests core) && (List.range 32).all (fun i => decide ((s.region core i).reclaim < 2))
/-- A join or leave that waits is QUEUED again, and taken up anew when the job is back (R319). -/
def State.untake (s : State) (core slot : Nat) : State :=
  let o := s.op core slot
  let g := o.unit.toNat
  let x := s.group g
  if o.state = .running ∧ o.form = .gjoin then
    (s.setGroup g { x with joining := x.joining.filter (fun j => !(j.1 == core && j.2.1 == slot)) }).setOp core slot { o with state := .queued }
  else if o.state = .running ∧ o.form = .gleave then
    (s.setGroup g { x with members := x.members.map (fun (m : Member) => if m.at core then { m with leaving := false } else m) }).setOp core slot
      { o with state := .queued }
  else s
/-- The part of a table that belongs to a core, `n` keys to a core. -/
def tabOf {α : Type} (t : Tab α) (core n : Nat) : Tab α := t.filter (fun p => p.1 / n == core)
/-- A table with that part replaced. -/
def tabPut {α : Type} (t : Tab α) (core n : Nat) (new : Tab α) : Tab α :=
  new.foldl (fun t p => tabSet t p.1 p.2) (t.filter (fun p => !(p.1 / n == core)))
/-- The bytes of the live regions of a core. -/
def State.regionHolds (s : State) (core a : Nat) : Bool :=
  decide (spAddr core 0 ≤ a) && decide (a < spAddr core spSize) && (List.range 32).any (fun i =>
    let r := s.region core i
    decide (r.first * 4096 ≤ spOff a) && decide (spOff a < (r.first + r.nbank) * 4096))
/-- A core's share of the image (R359). -/
def Saved.add (x : Saved) (s : State) (core : Nat) : Saved :=
  { x with
    cores := x.cores ++ [(core, s.core core)], chans := x.chans ++ tabOf s.chans core 64, regions := x.regions ++ tabOf s.regions core 32
    ops := x.ops ++ tabOf s.ops core 128, barriers := x.barriers ++ tabOf s.barriers core 1024
    cells := x.cells ++ s.mem.cells.filter (fun c => s.regionHolds core c.1)
    poison := x.poison ++ s.mem.poison.filter (fun l => s.regionHolds core (l * 64)) }
/-- A core emptied: its banks zeroed and its tables gone (R358). The generations of its slots step, as at a retirement, so that no token of
the job that leaves names an operation of the next: the spec says of neither (R233; log entry 51). Its L1 keeps its lines (R183). -/
def State.emptyCore (s : State) (core : Nat) : State :=
  let s1 := (List.range 32).foldl (fun s i => if (s.region core i).nbank = 0 then s else s.clearRegion core i) s
  let s2 : State := { s1 with
    chans := tabPut s1.chans core 64 [], regions := tabPut s1.regions core 32 [], barriers := tabPut s1.barriers core 1024 []
    ops := tabPut s1.ops core 128 ((tabOf s1.ops core 128).map (fun p => (p.1, { Op.initial with gen := nextGen p.2.gen }))) }
  s2.modCore core (fun c => { c with hasJob := false, nb := 0, inbox := [], guards := [], tasks := [], notes := 0, late := [] })
/-- The header of a save area (R360). -/
def areaHeader (asid : BitVec 16) (parts : Word) (t : Word) (digest : BitVec 256) : List Byte :=
  leBytes 4 0x53574150 ++ leBytes 4 1 ++ leBytes 8 Config.serial.toNat ++ leBytes 2 asid.toNat ++ leBytes 6 0 ++ leBytes 8 parts.toNat ++
    leBytes 4 (areaSlots parts) ++ leBytes 4 0 ++ leBytes 8 t.toNat ++ digestBytes digest ++ List.replicate (0x10000 - 80) 0
/-- The outgoing job saved (R359, R360): the image, and an area whose slots are free bytes (log entry 17). -/
def State.saveJob (s : State) (w : Switch) (asid : BitVec 16) (cores : List Nat) : State :=
  let n := areaSlots w.parts * 0x200000
  let slots := (List.range n).map (fun i => Config.slotByte (s.sched.fresh + i))
  let s1 := (cores.foldl (fun s c => (List.range 128).foldl (fun s i => s.untake c i) s) s).refreshBy n
  let digest := sha256 slots
  let x : Saved := cores.foldl (fun x c => x.add s1 c)
    { asid := asid, parts := w.parts, digest := digest, out := true, cores := [], chans := [], regions := [], ops := [], barriers := [], cells := [], poison := [] }
  let s2 := cores.foldl (fun s c => s.emptyCore c) { s1 with saved := x :: s1.saved }
  let s3 := (s2.putLocal (w.save + 0x10000) slots).getD s2
  (s3.putLocal w.save (areaHeader asid w.parts s.time digest)).getD s3
/-- A core restored (R358, R359): AGE and HINTDROP, which counts for the running job (R143), are zero, copies SUSPENDED with cause 0 are QUEUED, and the messages that came while the job was out
stand at the end of the inbox (R362). What is not saved stays as it is on the core. -/
def State.restoreCore (s : State) (x : Saved) (core : Nat) : State :=
  let y := tabGet x.cores core Core.initial
  let late := (s.savedInbox.filter (fun p => p.1 == core && p.2.msg.asid == x.asid)).map (·.2)
  let s1 : State := { s with
    chans := tabPut s.chans core 64 ((tabOf x.chans core 64).map (fun p => (p.1, { p.2 with age := 0 })))
    regions := tabPut s.regions core 32 (tabOf x.regions core 32)
    ops := tabPut s.ops core 128 (tabOf x.ops core 128)
    barriers := tabPut s.barriers core 1024 (tabOf x.barriers core 1024)
    savedInbox := s.savedInbox.filter (fun p => !(p.1 == core && p.2.msg.asid == x.asid)) }
  let s2 := s1.modCore core (fun c => { c with
    asid := x.asid, hasJob := true, nb := y.nb, last := y.last, serial := y.serial, aflags := y.aflags, trapCause := y.trapCause
    trapPc := y.trapPc, trapMsg := y.trapMsg, trapAddr := y.trapAddr, inbox := y.inbox ++ late, guards := y.guards, tasks := y.tasks
    dt := y.dt, dmode := y.dmode, ord := y.ord, ft := y.ft, notes := y.notes, late := y.late ++ c.late, hintDrop := 0 })
  (List.range 128).foldl (fun s n =>
    let o := s.op core n
    if o.state = .suspended ∧ o.cause = 0 then s.queueOp core n o else s) s2
/-- The incoming job restored: the image of the area that SWLOAD names, known by its digest. An area that the Kamlan did not
write restores nothing (log entry 17). -/
def State.loadJob (s : State) (w : Switch) (asid : BitVec 16) (digest : BitVec 256) (cores : List Nat) : State :=
  match (if s.jobLive asid then s.saved.find? (fun x => x.asid == asid && x.parts == w.parts && x.digest == digest) else none) with
  | none => s
  | some x =>
    let s1 := s.modMem (fun m => { m with cells := memWrite m.cells x.cells, poison := m.poison ++ x.poison })
    let s2 : State := { s1 with saved := s1.saved.map (fun y => if y.asid = asid ∧ y.parts = w.parts then { y with out := false } else y) }
    cores.foldl (fun s c => s.restoreCore x c) s2
/-- JOB_SWITCH_COMPLETE (R358): steps 2 to 5, once work in flight has ended. A job that has been ended
meanwhile is first reclaimed. -/
def execJobSwitchComplete (s : State) : Out :=
  match s.switch with
  | none => .next s
  | some w =>
    let cores := coresIn w.parts
    let ending := match w.out with | some a => (s.job a).isSome && !s.jobLive a | none => false
    if ending || !cores.all s.coreRests then .next s
    else
      let s1 := match w.out with
        | some a => if s.jobLive a then s.saveJob w a cores else s
        | none => s
      let s2 := match w.into with
        | some (a, d) => s1.loadJob w a d cores
        | none => s1
      .next { s2 with switch := none }

end Sys2Proof.Machine
end

