-- ==== Sys2Proof/Machine/HostWin.lean ====
section
/-!
DEFINITION. The host link: the memory window (R370, R371), the active-message window (R372 to R375), MSI-X (R390), checkpoints
(R391, R392), link training (R367) and package reset (R8).
-/
namespace Sys2Proof.Machine

/-! ### The memory window (R370, R371, R410) -/

/-- What the host is sent over the link. -/
def State.tellHost (s : State) (o : HostOut) : State := s.modDev (fun d => { d with out := d.out ++ [o] })
/-- A write TLP with EP set is reported as the standard's Poisoned TLP Received error (R367, R370). -/
def State.tlpPoisoned (s : State) : State := s.tellHost .poisonedTlp
/-- An access of the memory window is refused and counted (R369). -/
def State.mwDropped (s : State) : State := s.modDev (fun d => { d with mwDrop := sat32 d.mwDrop })
/-- Bytes of the staging buffer (R410). -/
def stagingSize : Nat := 0x400000
/-- The parts of a run of bytes that lie in one line each. -/
def linesCut (a : Nat) (bytes : List Byte) : List (List Host.Cell) :=
  let cells := cellsAt a bytes
  (linesOf cells).map (fun l => cells.filter (fun c => lineOf c.1 == l))
/-- MEMORY_WINDOW_WRITE: a posted write, performed line by line at PACKAGE scope; before READY it reaches the staging buffer. -/
def execMemoryWindowWrite (off : Nat) (ep : Bool) (bytes : List Byte) (s : State) : Out :=
  if ep then .next s.mwDropped.tlpPoisoned
  else if s.dev.bootState ≠ 3 then
    if off + bytes.length ≤ stagingSize then .next (s.modDev (fun d => { d with staging := memWrite d.staging (cellsAt off bytes) }))
    else .next s
  else if dramSize < off + bytes.length then .next s.mwDropped
  else .next ((linesCut off bytes).foldl (fun s cells =>
    let s1 := s.obtainLine (cells.headD (0, 0)).1 true
    if s1.dramWriteRefused cells then s1.mwDropped else s1.modMem (fun m => m.writeDram cells)) s)
/-- MEMORY_WINDOW_READ: a completion for each line, with EP and all ones for a poisoned one. -/
def execMemoryWindowRead (off len : Nat) (s : State) : Out :=
  if s.dev.bootState ≠ 3 then
    .next (s.tellHost (if off + len ≤ stagingSize then .data (memBytes s.dev.staging off len) false else .unsupported))
  else if dramSize < off + len then .next (s.tellHost .unsupported)
  else .next ((linesCut off (List.replicate len 0)).foldl (fun s cells =>
    let a := (cells.headD (0, 0)).1
    let s1 := s.obtainLine a false
    s1.tellHost (if s1.dramPoisoned a then .data (List.replicate cells.length 0xFF) true
      else .data (memBytes s1.mem.cells a cells.length) false)) s)

/-! ### The active-message window (R370, R372 to R375) -/

/-- The source under which the messages of a page travel, so that they keep their order (R375). -/
def pageSrc (page : Nat) : Nat := 16384 + page
/-- A refusal counted for a page, and recorded if it is the first since AMERR was read (R369, R374). -/
def State.amRefuse (s : State) (page reason : Nat) (word0 : Word) : State :=
  s.modDev (fun d => { d with
    amDrop := tabSet d.amDrop page (sat32 (tabGet d.amDrop page 0))
    amErr := if tabGet d.amErr page 0 = 0 then tabSet d.amErr page (word0.extractLsb' 14 50 ++ BitVec.ofNat 14 reason) else d.amErr })
/-- The handler-table entry of a job's channel on a core, in its saved image while the job is out (R359). -/
def State.chanOf (s : State) (asid : BitVec 16) (core c : Nat) : Chan :=
  if (s.core core).hasJob && (s.core core).asid == asid then s.chan core c
  else match s.saved.find? (fun x => x.out && x.asid == asid && x.cores.any (fun p => p.1 == core)) with
    | some x => tabGet x.chans (core * 64 + c) Chan.initial
    | none => Chan.initial
/-- The reason for which a block is refused, or 0 (R374, R410). -/
def State.amReason (s : State) (page : Nat) (b : Vector Word 8) : Nat :=
  let p := tabGet s.dev.amPage page 0
  let asid := p.extractLsb' 0 16
  let m := mkMsg b asid 0
  let held (c : Nat) : Bool := match s.job asid with | some j => j.holds c | none => false
  if s.dev.bootState ≠ 3 ∨ p.getLsbD 16 = false ∨ s.jobLive asid = false then 2
  else if 1 < m.kind then 3
  else if !held m.dest then 4
  else if !(s.chanOf asid m.dest m.chan).allot || (s.chanOf asid m.dest m.chan).atomh then 5
  else if m.kind = 0 ∧ b[1].extractLsb' 0 2 ≠ 0 then 6
  else 0
/-- One block: refused, or a message with TAG 0, SRC 0 and the page's serial (R373). -/
def State.amBlock (s : State) (page : Nat) (b : Vector Word 8) : State :=
  let r := s.amReason page b
  if r ≠ 0 then s.amRefuse page r b[0]
  else
    let asid := (tabGet s.dev.amPage page 0).extractLsb' 0 16
    let m := mkMsg b asid (s.pkgOf asid)
    let n := tabGet s.dev.amSerial page 0
    let w0 := header (BitVec.ofNat 4 m.kind) (BitVec.ofNat 6 m.chan) 0 (BitVec.ofNat 12 m.dest) 0 n
    (s.modDev (fun d => { d with amSerial := tabSet d.amSerial page (n + 1) })).inject (pageSrc page) { m with words := b.set 0 w0 }
/-- ACTIVE_MESSAGE_BLOCK: a write TLP of the window. While it would hold more than 256 messages the write stalls (R375). -/
def execActiveMessageBlock (page : Nat) (whole ep : Bool) (blocks : List (Vector Word 8)) (s : State) : Out :=
  if 64 ≤ page ∨ 8 < blocks.length then .next s
  else
    let w0 := match blocks with | b :: _ => b[0] | [] => Config.amWord s.sched.fresh
    if ep then .next (s.refresh.amRefuse page 7 w0).tlpPoisoned
    else if !whole then .next (s.refresh.amRefuse page 1 w0)
    else if 256 < (s.mail.filter (fun m => decide (pageSrc 0 ≤ m.src))).length + blocks.length then .next s
    else .next (blocks.foldl (fun s b => s.amBlock page b) s)

/-! ### MSI-X (R390) -/

/-- Pending vectors that may be sent now are sent (R390). -/
def State.msixFlush (s : State) : State :=
  (s.dev.msixPending.filter s.dev.msixLets).foldl (fun s v => s.msixSend v) s
/-- MSIX_UNMASK: the vector's Mask bit is cleared. -/
def execMsixUnmask (vec : Nat) (s : State) : Out :=
  if 2048 ≤ vec then .next s
  else .next ((s.modDev (fun d => { d with msixOpen := if d.msixOpen.contains vec then d.msixOpen else d.msixOpen ++ [vec] })).msixFlush)

/-! ### Checkpoints (R391, R392) -/

/-- The package of a number is bound: some map entry names it (log entry 36). -/
def State.pkgBound (s : State) (phys : Nat) : Bool := s.fabric.fam.any (fun p => p.2.valid && p.2.phys.toNat == phys)
/-- CHECKPOINT: a write of CKPTPTR. -/
def execCheckpoint (v : Word) (s : State) : Out :=
  let a := v.toNat % 2 ^ 40
  match s.takeLocal a 32 with
  | (_, none) => .next s
  | (s1, some bs) =>
    let w0 : Word := BitVec.ofNat 64 (leNat (bs.take 8))
    let dest : Word := BitVec.ofNat 64 (leNat ((bs.drop 8).take 8))
    let w2 : Word := BitVec.ofNat 64 (leNat ((bs.drop 16).take 8))
    let peer := w0.getLsbD 0
    let phys := (w0.extractLsb' 1 12).toNat
    if s1.dev.ckpt.isSome || w0.extractLsb' 13 51 != 0 || w2.extractLsb' 8 24 != 0 || dest.extractLsb' 0 16 != 0 then .next (s1.ckptStatus a 3 0 0)
    else if peer && !s1.pkgBound phys then .next (s1.ckptFails a 0 0)
    else .next ((s1.ckptStatus a 0 0 0).modDev (fun d => { d with ckpt := some { desc := a, peer := peer, phys := phys, dest := dest, sent := none } }))
/-- Poisoned lines among the first n. -/
def State.ckptPoison (s : State) (n : Nat) : List Nat := (List.range n).filter (fun l => s.dramPoisoned (l * 64))
/-- What a checkpoint sends of a line: 64 zero bytes for a poisoned one. -/
def State.ckptLine (s : State) (l : Nat) : VWord :=
  if s.dramPoisoned (l * 64) then 0 else BitVec.ofNat 512 (leNat (memBytes s.mem.cells (l * 64) 64))
/-- The first n lines sent in increasing order (R392): posted writes to the host, or bulk packets to the peer. -/
def State.ckptSend (s : State) (c : Ckpt) (n : Nat) : State :=
  if c.peer then (List.range n).foldl (fun t l =>
    t.fabSend 0 0 false (some c.phys) 0 0 (.line (c.dest.toNat + l * 64) (s.ckptLine l))) s
  else s.modDev (fun d => { d with out := d.out ++ (List.range n).map (fun l =>
    .write (c.dest + BitVec.ofNat 64 (l * 64)) (s.ckptLine l)) })
/-- The first n lines read as local reads (R206). -/
def State.ckptRead (s : State) (n : Nat) : State :=
  ((s.mem.lmeta.map (·.1)).filter (fun l => decide (l < n))).foldl (fun s l => s.obtainLine (l * 64) false) s
/-- CHECKPOINT_COMPLETE: every line has been read and sent, or the host aborted a write after some (log entry 36). To a peer the lines are
sent first; the checkpoint is DONE when the peer has acknowledged them, and a peer not reached within FABLIFE is PACKET_LIFETIME_EXPIRY. -/
def execCheckpointComplete (ok : Bool) (s : State) : Out :=
  match s.dev.ckpt with
  | none => .next s
  | some c =>
    if c.peer && !ok then .next s
    else match c.sent with
      | some (n, first) =>
        if s.fabric.retry.any Retry.isLine then .next s
        else .next ((s.modDev (fun d => { d with ckpt := none })).ckptStatus c.desc 1 n first)
      | none =>
        let total := dramSize / 64
        let n := if ok then total else Config.ckptSent s.sched.fresh % total
        let s1 := s.refresh.ckptRead n
        let bad := s1.ckptPoison n
        let first := (bad.headD 0) * 64
        let s2 := s1.ckptSend c n
        .next (if c.peer then s2.modDev (fun d => { d with ckpt := some { c with sent := some (bad.length, first) } })
          else if ok then (s2.modDev (fun d => { d with ckpt := none })).ckptStatus c.desc 1 bad.length first
          else (s2.modDev (fun d => { d with ckpt := none })).ckptFails c.desc bad.length first)

/-! ### The link and the reset -/

/-- PCIE_LINK_TRAINING (R367): the link trains at the rate of a generation of the standard, 1 to 7, and a width. -/
def execPcieLinkTraining (rate width : Nat) (s : State) : Out :=
  if 1 ≤ rate ∧ rate ≤ 7 ∧ [1, 2, 4, 8, 16].contains width = true then
    .next (s.modDev (fun d => { d with linkRate := rate, linkWidth := width }))
  else .next s
/-- PACKAGE_RESET (R8): every field takes its reset value; what is fused stays, and global time goes on. -/
def execPackageReset (s : State) : Out :=
  .next { State.reset with
    sched := { s.sched with cur := 0 }, timeBase := s.time
    dev := { Device.initial with svnMin := s.dev.svnMin, linkRate := s.dev.linkRate, linkWidth := s.dev.linkWidth, out := s.dev.out } }

end Sys2Proof.Machine
end

