-- ==== Sys2Proof/Machine/Trust.lean ====
section
/-!
DEFINITION. Loading and verifying firmware (R408 to R411) and attestation (R412, R413).
-/
namespace Sys2Proof.Machine

/-! ### Firmware (R410, R411) -/

/-- A number in the staged image. -/
def Device.staged (d : Device) (lo n : Nat) : Nat := leNat (memBytes d.staging lo n)
/-- Reason 2: the length. -/
def Device.lengthBad (d : Device) (v : Nat) : Bool :=
  let n := d.staged 8 8
  decide (v ≠ n) || decide (n < 256) || decide (stagingSize < n) || decide (n % 64 ≠ 0)
/-- Reason 1: the header. -/
def Device.imageHeaderBad (d : Device) : Bool :=
  decide (d.staged 0 4 ≠ 0x57464D4B) || decide (d.staged 4 4 ≠ 1) || decide (d.staged 16 8 % 4 ≠ 0) || decide (d.staged 28 4 ≠ 0) ||
  decide (d.staged 160 96 ≠ 0)
/-- The least key that is not revoked and whose digest is that of Q (R410). -/
def Device.keyOf (d : Device) : Option Nat :=
  (List.range 4).find? (fun k => Config.keyHash k == sha256 (memBytes d.staging 32 64) && !Config.keyRevoke.getLsbD k)
/-- The image with its signature read as zero. -/
def Device.signedImage (d : Device) : List Byte :=
  memBytes d.staging 0 96 ++ List.replicate 64 0 ++ memBytes d.staging 160 (d.staged 8 8 - 160)
/-- The signature is one of the image's digest under Q. -/
def Device.signatureOk (d : Device) (h : BitVec 256) : Bool :=
  let be (lo : Nat) : Nat := beNat (memBytes d.staging lo 32)
  ecdsaVerify (be 32, be 64) h (be 96) (be 128)
/-- Verification fails with a reason. -/
def bootFails (s : State) (reason : BitVec 8) : State := s.modDev (fun d => { d with bootState := 4, bootReason := reason })
/-- The service cores (R14). -/
def serviceCores : List Nat := (List.range 4).flatMap (fun t => (List.range 4).map (fun i => t * 1024 + i))
/-- The image copied to a service core's scratchpad, as far as it fits, and its context 0 started at the entry (log entry 16). -/
def State.startService (s : State) (core : Nat) : State :=
  let n := Nat.min (s.dev.staged 8 8) spSize
  let b := BitVec.ofNat 32 serviceBudget
  (s.modMem (fun m => m.writeSp (cellsAt (spAddr core 0) (memBytes s.dev.staging 0 n)))).bump.setCtx (core * 8)
    { Ctx.initial with phase := .run, pc := BitVec.ofNat 52 (spAddr core (s.dev.staged 16 8)), budget := b, budgetLeft := b, waitLimit := b
                       act := s.sched.nextId }
/-- BOOTGO: the boot ROM begins to verify the staged image. A write while it verifies, or later, is ignored. -/
def execBootgo (v : Word) (s : State) : Out :=
  if s.dev.bootState ≠ 0 ∧ s.dev.bootState ≠ 4 then .next s
  else .next (s.modDev (fun d => { d with bootState := 1, bootGo := v }))
/-- The boot ROM's checks of the staged image in their order, and what follows them. -/
def State.bootEnds (s : State) : State :=
  let d := s.dev
  if d.lengthBad d.bootGo.toNat then bootFails s 2
  else if d.imageHeaderBad then bootFails s 1
  else match d.keyOf with
    | none => bootFails s 3
    | some k =>
      let h := sha256 d.signedImage
      let svn := BitVec.ofNat 32 (d.staged 24 4)
      if !d.signatureOk h then bootFails s 4
      else if svn.toNat < d.svnMin.toNat then bootFails s 5
      else serviceCores.foldl (fun s c => s.startService c)
        (s.modDev (fun d => { d with bootState := 2, bootReason := 0, keySlot := BitVec.ofNat 2 k, svn := svn, fwHash := h }))
/-- Cycles pass, in which a verification that the boot ROM had begun ends (log entry 16). -/
def elapse (s : State) (n : Nat) : State :=
  let s1 := passTime s n
  if s1.dev.bootState = 1 then s1.bootEnds else s1
/-- FIRMWARE_READY (R411): firmware has zeroed DRAM, regions and tile stores, written every line as HOME, lit the modules, and sets READY.
From then on its own code can be fetched and its data reached through its address space, an ASID and roots that are free values (R380,
R439; log entry 10). What else it writes into registers it writes by steps of its own. -/
def execFirmwareReady (s : State) : Out :=
  if s.dev.bootState ≠ 2 then .next s
  else
    let kept (a : Nat) : Bool := isSp a && isService (spOwner a)
    let s1 := s.modMem (fun m => { m with
      cells := m.cells.filter (fun c => kept c.1), poison := m.poison.filter (fun l => kept (l * 64)), lmeta := [] })
    let s2 := s1.modPh (fun p => { p with laserPresent := 0xF, laserLit := 0xF })
    let s3 := serviceCores.foldl (fun s c => s.modCore c (fun x => { x with asid := Config.svcAsid })) s2
    .next (s3.modDev (fun d => { d with
      bootState := 3, staging := [], svcAsid := Config.svcAsid, svcRoots := (List.range 12).map Config.svcRoot }))
/-- SVNBURN: SVNMIN only ever rises (R408). -/
def execSvnburn (v : Word) (s : State) : Out :=
  let n := v.extractLsb' 0 32
  .next (if s.dev.svnMin.toNat < n.toNat then s.modDev (fun d => { d with svnMin := n }) else s)
/-- FWHASH: zero before READY (R408). -/
def Device.fwHashNow (d : Device) : BitVec 256 := if d.bootState = 3 then d.fwHash else 0
/-- BOOTSTAT (R409): KEYSLOT and SVN are those of the running image, and zero before READY. -/
def Device.bootstat (d : Device) : Word :=
  let ready := decide (d.bootState = 3)
  (0 : BitVec 16) ++ (if ready then d.svn else 0) ++ (0 : BitVec 3) ++ (if ready then d.keySlot else 0) ++
    (if d.bootState = 4 then d.bootReason else 0) ++ d.bootState

/-! ### Attestation (R412, R413) -/

/-- Bytes 0 to 127 of a report. -/
def State.attBody (s : State) (asid : BitVec 16) : List Byte :=
  let runs := s.jobLive asid
  let record := match s.job asid with | some j => j.record.flatMap (fun w => leBytes 8 w.toNat) | none => []
  leBytes 32 s.dev.attNonce.toNat ++ digestBytes s.dev.fwHashNow ++ leBytes 8 Config.serial.toNat ++
    leBytes 4 (if s.dev.bootState = 3 then s.dev.svn.toNat else 0) ++ leBytes 2 asid.toNat ++ leBytes 2 (if runs then 1 else 0) ++
    (if runs then digestBytes (sha256 record) else leBytes 32 0) ++ leBytes 8 s.time.toNat ++ leBytes 8 0
/-- ATTESTATION_GO (R412): a write of ATTCTL. -/
def execAttestationGo (v : Word) (s : State) : Out :=
  let asid := v.extractLsb' 0 16
  let go := v.getLsbD 16
  if go && s.dev.attBusy then .next (s.modDev (fun d => { d with attErr := true }))
  else
    let s1 := s.modDev (fun d => { d with attAsid := asid, attErr := d.attErr && !v.getLsbD 18 })
    .next (if go then s1.modDev (fun d => { d with attBusy := true, attCapture := BitVec.ofNat 1024 (leNat (s1.attBody asid)) }) else s1)
/-- The device's signature of a digest: free, but that it verifies under DEVPUB wherever some signature does (R413; log entry 16). -/
def signatureOf (h : BitVec 256) (free : BitVec 512) : Nat :=
  freeWithin (fun n => ecdsaVerify (Config.devPub.toNat / 2 ^ 256, Config.devPub.toNat % 2 ^ 256) h (n / 2 ^ 256) (n % 2 ^ 256)) (2 ^ 512) free.toNat
/-- ATTESTATION_DONE (R413): the report is complete, signed by the device. -/
def execAttestationDone (s : State) : Out :=
  if !s.dev.attBusy then .next s
  else
    let body := leBytes 128 s.dev.attCapture.toNat
    let sig := beBytes 64 (signatureOf (sha256 body) (Config.deviceSign (sha256 body) s.sched.fresh))
    .next (s.refresh.modDev (fun d => { d with attBusy := false, attRep := BitVec.ofNat 1536 (leNat (body ++ sig)) }))

end Sys2Proof.Machine
end

