-- ==== Sys2Proof/Machine/Regs.lean ====
section
/-!
DEFINITION. The registers of the control window (R368) as the host reads and writes them, eight bytes at a time: device block (R369),
identity block (R408), memory control block (R201), semaphore block (R389), MSI-X table (R390), thermal block (R404), engine
control blocks (R282) and fabric control block (R328). Offsets from 0x100_0000 stand for the function's configuration space, of which the
model holds the MSI-X message control word (R390), and offsets from 0x200_0000 for reads of the active-message window (R373; log entry 36).
Service firmware reaches the same blocks by the same two events (R282, R368): the spec gives it no instruction for them.
-/
namespace Sys2Proof.Machine

/-- Word i of a wide value, little-endian. -/
def wordAt {n : Nat} (x : BitVec n) (i : Nat) : Word := x.extractLsb' (64 * i) 64
/-- Word i of bytes in order. -/
def wordOfBytes (bs : List Byte) (i : Nat) : Word := BitVec.ofNat 64 (leNat ((bs.drop (8 * i)).take 8))
/-- Word i of a 256-bit value replaced. -/
def putWord (x : BitVec 256) (i : Nat) (v : Word) : BitVec 256 :=
  let w (k : Nat) : Word := if k = i then v else wordAt x k
  w 3 ++ w 2 ++ w 1 ++ w 0

/-! ### Reads -/

/-- LAUNCHSTAT (R377). -/
def Device.launchstat (d : Device) : Word := (0 : BitVec 30) ++ d.launchAsid ++ d.launchWord ++ d.launchReason ++ d.launchState
/-- The device block (R369). -/
def State.readDevice (s : State) (off : Nat) : Word :=
  let d := s.dev
  if off = 0x08 then d.launchstat
  else if off = 0x18 then d.swParts
  else if off = 0x20 then d.swAsid.setWidth 64
  else if off = 0x28 then (0 : BitVec 56) ++ d.swReason ++ (0 : BitVec 2) ++ BitVec.ofBool d.swRefused ++ BitVec.ofBool s.switch.isSome
  else if off = 0x30 then d.swSave
  else if off = 0x38 then d.swLoad
  else if off = 0x40 then d.rasRing
  else if off = 0x48 then d.rasLen.setWidth 64
  else if off = 0x50 then d.mwDrop.setWidth 64
  else if off = 0x58 then d.cwDrop.setWidth 64
  else if 0x100 ≤ off ∧ off < 0x300 then (tabGet d.amPage ((off - 0x100) / 8) 0).setWidth 64
  else if 0x300 ≤ off ∧ off < 0x500 then (tabGet d.amDrop ((off - 0x300) / 8) 0).setWidth 64
  else if 0x500 ≤ off ∧ off < 0x700 then tabGet d.amErr ((off - 0x500) / 8) 0
  else 0
/-- The identity block (R408, R409, R412). -/
def Device.readIdentity (d : Device) (off : Nat) : Word :=
  if off = 0x000 then d.bootstat
  else if off = 0x010 then d.svnMin.setWidth 64
  else if off = 0x018 then Config.serial
  else if 0x040 ≤ off ∧ off < 0x060 then wordOfBytes (digestBytes d.fwHashNow) ((off - 0x040) / 8)
  else if 0x080 ≤ off ∧ off < 0x0C0 then wordOfBytes (beBytes 64 Config.devPub.toNat) ((off - 0x080) / 8)
  else if 0x100 ≤ off ∧ off < 0x180 then wordOfBytes (digestBytes (Config.keyHash ((off - 0x100) / 32))) (off % 32 / 8)
  else if off = 0x180 then Config.keyRevoke.setWidth 64
  else if 0x200 ≤ off ∧ off < 0x220 then wordAt d.attNonce ((off - 0x200) / 8)
  else if off = 0x220 then (0 : BitVec 45) ++ BitVec.ofBool d.attErr ++ BitVec.ofBool d.attBusy ++ (0 : BitVec 1) ++ d.attAsid
  else if 0x240 ≤ off ∧ off < 0x300 then wordAt d.attRep ((off - 0x240) / 8)
  else if 0x400 ≤ off ∧ off < 0xC00 then wordOfBytes ((List.range 8).map (fun i => Config.devCert (off - 0x400 + i))) 0
  else 0
/-- A transient window as its four words (R209). -/
def Window.word (w : Window) (i : Nat) : Word :=
  if i = 0 then (0 : BitVec 24) ++ w.base ++ (0 : BitVec 19) ++ BitVec.ofBool w.expired ++ BitVec.ofBool w.valid
  else if i = 1 then w.nframe.setWidth 64
  else if i = 2 then w.deadline
  else 0
/-- A transient window as its register shows it: EXPIRED is set from its deadline on (R209, R210). -/
def State.windowSeen (s : State) (k : Nat) : Window := { s.window k with expired := (s.window k).past s.time }
/-- The memory control block (R201). MOVEPTR has no access code: a read of it answers 0 (log entry 44). -/
def State.readMemory (s : State) (off : Nat) : Word :=
  let m := s.mem
  if off = 0x10 then (0 : BitVec 62) ++ BitVec.ofBool m.xinvErr ++ BitVec.ofBool m.xinv.isSome
  else if 0x100 ≤ off ∧ off < 0x300 then (s.windowSeen ((off - 0x100) / 32)).word (off % 32 / 8)
  else if 0x400 ≤ off ∧ off < 0x440 then (tabGet m.rcsize ((off - 0x400) / 8) 0).setWidth 64
  else if 0x440 ≤ off ∧ off < 0x480 then (tabGet m.refpre ((off - 0x440) / 8) 0).setWidth 64
  else if 0x480 ≤ off ∧ off < 0x4C0 then tabGet m.remapErr ((off - 0x480) / 8) 0
  else 0
/-- The MSI-X table and its pending bits (R368, R390). -/
def Device.readMsix (d : Device) (off : Nat) : Word :=
  if off < 0x8000 then
    let e := tabGet d.msixTable (off / 16) 0
    if off % 16 = 0 then e.extractLsb' 0 64
    else (0 : BitVec 31) ++ BitVec.ofBool (!d.msixOpen.contains (off / 16)) ++ e.extractLsb' 64 32
  else if off < 0x8100 then
    BitVec.ofNat 64 ((List.range 64).foldl (fun (n : Nat) (i : Nat) => if d.msixPending.contains ((off - 0x8000) * 8 + i) then n + 2 ^ i else n) 0)
  else 0
/-- The thermal, laser and deck block (R404). -/
def State.readThermal (s : State) (off : Nat) : Word :=
  let p := s.photonic
  if off < 0x20 then
    let m := off / 8
    (0 : BitVec 40) ++ tabGet p.laserPower m 0 ++ (0 : BitVec 6) ++ BitVec.ofBool (p.laserLit.getLsbD m) ++ BitVec.ofBool (p.laserPresent.getLsbD m)
  else if off = 0x40 then p.pwrNow.setWidth 64
  else if off = 0x48 then p.pwrAlert.setWidth 64
  else if off = 0x80 then p.thring
  else if off = 0x88 then p.thrlog.setWidth 64
  else if off = 0x90 then p.thwr
  else if off = 0x98 then p.thrd
  else if off = 0xA0 then p.thPeriod.setWidth 64
  else if off = 0xA8 then p.thDrop.setWidth 64
  else if off = 0x100 then p.scrubPpm.setWidth 64
  else if off = 0x108 then p.calPpm.setWidth 64
  else if off = 0x110 then p.wlMoves.setWidth 64
  else if off = 0x118 then p.telPpm.setWidth 64
  else if off = 0x120 then p.wlAbort.setWidth 64
  else 0
/-- A resident entry as its four words (R282). -/
def Resent.word (r : Resent) (i : Nat) : Word :=
  if i = 0 then (0 : BitVec 8) ++ r.rev ++ (0 : BitVec 3) ++ BitVec.ofBool r.valid ++ r.asid ++ r.tag
  else if i = 1 then r.swapSeq
  else if i = 2 then r.s1 ++ r.s0
  else r.s3 ++ r.s2
/-- The first trim of a word of a trim block: the table (false for the detector trims) and the key. -/
def trimPlace (e off : Nat) : Bool × Nat :=
  if 0x10000 ≤ off then (true, (e * 4 + (off - 0x10000) / 0x4000) * 8192 + (off - 0x10000) % 0x4000 / 2)
  else (false, (e * 4 + (off - 0x800) / 128) * 64 + (off - 0x800) % 128 / 2)
/-- The offset of an engine's block lies in its trims. -/
def isTrim (off : Nat) : Bool := (decide (0x800 ≤ off) && decide (off < 0xA00)) || (decide (0x10000 ≤ off) && decide (off < 0x20000))
/-- An engine's control block (R282). -/
def State.readEngine (s : State) (e off : Nat) : Word :=
  let x := s.engine e
  if off = 0 then (0 : BitVec 30) ++ BitVec.ofBool x.migIn ++ BitVec.ofBool x.migOut ++ x.migWait
  else if off = 8 then
    Config.engineWait s.sched.fresh ++ (0 : BitVec 24) ++ BitVec.ofBool x.matrix.isSome ++ BitVec.ofNat 7 (s.inboxOf e).length
  else if off = 0x10 then
    (0 : BitVec 54) ++ BitVec.ofBool (s.laneOp e 0 (· == .phswp)).isSome ++ BitVec.ofBool x.bnew ++ BitVec.ofBool x.backV ++ x.backIx ++ BitVec.ofBool x.frontV ++ x.frontIx
  else if 0x40 ≤ off ∧ off < 0x60 then
    let d := s.deck (e * 4 + (off - 0x40) / 8)
    d.xpass ++ (0 : BitVec 25) ++ BitVec.ofBool d.qoff ++ d.calEbc ++ d.avail
  else if 0x100 ≤ off ∧ off < 0x200 then (x.entry ((off - 0x100) / 32)).word (off % 32 / 8)
  else if isTrim off then
    let (code, k) := trimPlace e off
    let t (i : Nat) : BitVec 16 := tabGet (if code then s.photonic.trims else s.photonic.dtrims) (k + i) 0
    t 3 ++ t 2 ++ t 1 ++ t 0
  else 0
/-- An entry of the Fabric Address Map (R329). -/
def Fam.word (f : Fam) : Word :=
  (0 : BitVec 44) ++ BitVec.ofBool f.drain ++ f.member ++ BitVec.ofBool f.coh ++ BitVec.ofBool f.valid ++ f.phys
/-- The fabric control block (R328). -/
def State.readFabric (s : State) (off : Nat) : Word :=
  if off < 0x200 then portStat (s.port (off / 8))
  else if off = 0x400 then s.fabric.fablife.setWidth 64
  else if off = 0x408 then s.fabric.famdrop.setWidth 64
  else if 0x800 ≤ off ∧ off < 0xA00 then
    BitVec.ofNat 64 ((List.range 64).foldl (fun (n : Nat) (i : Nat) =>
      if s.fabric.pkgAllot.contains ((off - 0x800) * 8 + i) then n + 2 ^ i else n) 0)
  else if 0x10000 ≤ off ∧ off < 0x18000 then (s.fam ((off - 0x10000) / 8)).word
  else 0
/-- The eight bytes at an aligned offset of the control window (R368); unassigned ones read zero. -/
def State.readReg (s : State) (off : Nat) : Word :=
  if off % 8 ≠ 0 then 0
  else if off < 0x8000 then s.readDevice off
  else if off < 0x10000 then s.dev.readIdentity (off - 0x8000)
  else if off < 0x20000 then s.readMemory (off - 0x10000)
  else if off < 0x22000 then s.sem ((off - 0x20000) / 8)
  else if off < 0x24000 then s.sem ((off - 0x22000) / 8)
  else if 0x80000 ≤ off ∧ off < 0x90000 then s.dev.readMsix (off - 0x80000)
  else if 0x100000 ≤ off ∧ off < 0x200000 then s.readThermal (off - 0x100000)
  else if 0x200000 ≤ off ∧ off < 0x400000 then s.readEngine ((off - 0x200000) / 0x20000) (off % 0x20000)
  else if 0x400000 ≤ off ∧ off < 0x1000000 then s.readFabric (off - 0x400000)
  else if off = 0x1000000 then
    (0 : BitVec 48) ++ BitVec.ofBool s.dev.msixEnable ++ BitVec.ofBool s.dev.msixFunctionMask ++ (0 : BitVec 3) ++ (2047 : BitVec 11)
  else 0 -- the active-message window too (R373)
/-- What a read clears: the RC registers alone (R8). -/
def State.clearReg (s : State) (off : Nat) : State :=
  if off = 0x50 then s.modDev (fun d => { d with mwDrop := 0 })
  else if off = 0x58 then s.modDev (fun d => { d with cwDrop := 0 })
  else if 0x300 ≤ off ∧ off < 0x500 then s.modDev (fun d => { d with amDrop := tabSet d.amDrop ((off - 0x300) / 8) 0 })
  else if 0x500 ≤ off ∧ off < 0x700 then s.modDev (fun d => { d with amErr := tabSet d.amErr ((off - 0x500) / 8) 0 })
  else if 0x10440 ≤ off ∧ off < 0x10480 then s.modMem (fun m => { m with refpre := tabSet m.refpre ((off - 0x10440) / 8) 0 })
  else if 0x10480 ≤ off ∧ off < 0x104C0 then s.modMem (fun m => { m with remapErr := tabSet m.remapErr ((off - 0x10480) / 8) 0 })
  else if off = 0x1000A8 then s.modPh (fun p => { p with thDrop := 0 })
  else if off = 0x100110 then s.modPh (fun p => { p with wlMoves := 0 })
  else if off = 0x100120 then s.modPh (fun p => { p with wlAbort := 0 })
  else if off = 0x400408 then s.modFab (fun f => { f with famdrop := 0 })
  else s
/-- READ_CLEAR (R8): a read of the control window returns the register's value; an RC register is then clear. -/
def execReadClear (off : Nat) (s : State) : Out :=
  .next ((if off % 8 = 0 then s.clearReg off else s).refresh.tellHost (.register off (s.readReg off)))

/-! ### Writes -/

/-- The device block. -/
def State.writeDevice (s : State) (off : Nat) (v : Word) : Out :=
  if off = 0x00 then execLaunch v s
  else if off = 0x10 then execJobend v s
  else if off = 0x18 then .next (s.modDev (fun d => { d with swParts := v }))
  else if off = 0x20 then execJobSwitch v s
  else if off = 0x30 then .next (s.modDev (fun d => { d with swSave := v }))
  else if off = 0x38 then .next (s.modDev (fun d => { d with swLoad := v }))
  else if off = 0x40 then .next (s.modDev (fun d => { d with rasRing := v &&& ~~~0x3F#64 }))
  else if off = 0x48 then .next (s.modDev (fun d => { d with rasLen := v.extractLsb' 0 5 }))
  else if 0x100 ≤ off ∧ off < 0x300 then .next (s.modDev (fun d => { d with amPage := tabSet d.amPage ((off - 0x100) / 8) (v.extractLsb' 0 17) }))
  else if off = 0x800 then execCheckpoint v s
  else .next s
/-- The identity block. -/
def State.writeIdentity (s : State) (off : Nat) (v : Word) : Out :=
  if off = 0x008 then execBootgo v s
  else if off = 0x020 then execSvnburn v s
  else if 0x200 ≤ off ∧ off < 0x220 then .next (s.modDev (fun d => { d with attNonce := putWord d.attNonce ((off - 0x200) / 8) v }))
  else if off = 0x220 then execAttestationGo v s
  else .next s
/-- The first two words of a transient window (R209): writing 1 to EXPIRED re-arms it. -/
def State.writeWindow (s : State) (k i : Nat) (v : Word) : Out :=
  if i = 0 then
    let s1 := s.modWindow k (fun w => { w with valid := v.getLsbD 0, base := v.extractLsb' 21 19 })
    if v.getLsbD 1 then execTransientRearm k s1 else .next s1
  else if i = 1 then .next (s.modWindow k (fun w => { w with nframe := v.extractLsb' 0 18 }))
  else if i = 2 then execDeadlineWrite k v s
  else .next s
/-- The memory control block. -/
def State.writeMemory (s : State) (off : Nat) (v : Word) : Out :=
  if off = 0x00 then execXinv v s.mem.xinvHi s
  else if off = 0x08 then .next (s.modMem (fun m => { m with xinvHi := v }))
  else if off = 0x10 then .next (s.modMem (fun m => { m with xinvErr := m.xinvErr && !v.getLsbD 1 }))
  else if off = 0x40 then execPageMove v.toNat s
  else if 0x100 ≤ off ∧ off < 0x300 then s.writeWindow ((off - 0x100) / 32) (off % 32 / 8) v
  else if 0x400 ≤ off ∧ off < 0x440 then
    .next (s.modMem (fun m => { m with rcsize := tabSet m.rcsize ((off - 0x400) / 8) (if 8 < (v.extractLsb' 0 4).toNat then 8 else v.extractLsb' 0 4) }))
  else .next s
/-- The MSI-X table (R390): clearing a Mask bit sends what is pending. -/
def State.writeMsix (s : State) (off : Nat) (v : Word) : Out :=
  if 0x8000 ≤ off then .next s
  else
    let k := off / 16
    let s1 := s.modDev (fun d =>
      let e := tabGet d.msixTable k 0
      { d with msixTable := tabSet d.msixTable k (if off % 16 = 0 then e.extractLsb' 64 32 ++ v else v.extractLsb' 0 32 ++ e.extractLsb' 0 64) })
    if off % 16 = 0 then .next s1
    else if v.getLsbD 32 then .next (s1.modDev (fun d => { d with msixOpen := d.msixOpen.filter (· != k) }))
    else execMsixUnmask k s1
/-- The thermal block. -/
def State.writeThermal (s : State) (off : Nat) (v : Word) : Out :=
  if 0x20 ≤ off ∧ off < 0x40 then (if v.getLsbD 0 then execLaserRelight ((off - 0x20) / 8) s else .next s)
  else if off = 0x48 then .next (s.modPh (fun p => { p with pwrAlert := v.extractLsb' 0 32 }))
  else if off = 0x80 then execThringWrite v s
  else if off = 0x88 then .next (s.modPh (fun p => { p with thrlog := v.extractLsb' 0 5 }))
  else if off = 0x98 then .next (s.modPh (fun p => { p with thrd := v }))
  else if off = 0xA0 then .next (s.modPh (fun p => { p with thPeriod := v.extractLsb' 0 20 }))
  else .next s
/-- An engine's control block: a trim write that arrives while a command runs, or behind one that is held, is held (R270). -/
def State.writeEngine (s : State) (e off : Nat) (v : Word) : State :=
  if off = 0 then s.modEngine e (fun x => { x with migWait := v.extractLsb' 0 32, migOut := v.getLsbD 32, migIn := v.getLsbD 33 })
  else if 0x40 ≤ off ∧ off < 0x60 then
    s.modDeck (e * 4 + (off - 0x40) / 8) (fun d => { d with calEbc := v.extractLsb' 2 4, qoff := v.getLsbD 6 })
  else if isTrim off then
    if (s.engine e).matrix.isSome ∨ (s.engine e).trimHeld ≠ [] then s.modEngine e (fun x => { x with trimHeld := x.trimHeld ++ [(off, v)] })
    else s.trimPut e off v
  else s
/-- The fabric control block. -/
def State.writeFabric (s : State) (off : Nat) (v : Word) : State :=
  if off < 0x200 then s.modPort (off / 8) (fun x => { x with jobp := v.getLsbD 37 })
  else if off = 0x400 then
    s.modFab (fun f => { f with fablife := BitVec.ofNat 20 (Nat.max 1 (Nat.min 1000000 (v.extractLsb' 0 20).toNat)) })
  else if 0x800 ≤ off ∧ off < 0xA00 then
    let base := (off - 0x800) * 8
    s.modFab (fun f => { f with pkgAllot := f.pkgAllot.filter (fun k => k < base || base + 64 ≤ k) ++
      (((List.range 64).filter (fun i => v.getLsbD i)).map (base + ·)) })
  else if 0x10000 ≤ off ∧ off < 0x18000 then
    s.modFam ((off - 0x10000) / 8) (fun f =>
      { f with phys := v.extractLsb' 0 12, valid := v.getLsbD 12, coh := v.getLsbD 13, member := v.extractLsb' 14 5 })
  else s
/-- Eight bytes written at an aligned offset of the control window (R368); a write elsewhere is ignored. -/
def State.writeReg (s : State) (off : Nat) (v : Word) : Out :=
  if off % 8 ≠ 0 then .next s
  else if off < 0x8000 then s.writeDevice off v
  else if off < 0x10000 then s.writeIdentity (off - 0x8000) v
  else if off < 0x20000 then s.writeMemory (off - 0x10000) v
  else if off < 0x22000 then execSemvalWrite ((off - 0x20000) / 8) v s
  else if off < 0x24000 then execSemincWrite ((off - 0x22000) / 8) v s
  else if 0x80000 ≤ off ∧ off < 0x90000 then s.writeMsix (off - 0x80000) v
  else if 0x100000 ≤ off ∧ off < 0x200000 then s.writeThermal (off - 0x100000) v
  else if 0x200000 ≤ off ∧ off < 0x400000 then .next (s.writeEngine ((off - 0x200000) / 0x20000) (off % 0x20000) v)
  else if 0x400000 ≤ off ∧ off < 0x1000000 then .next (s.writeFabric (off - 0x400000) v)
  else if off = 0x1000000 then
    .next ((s.modDev (fun d => { d with msixEnable := v.getLsbD 15, msixFunctionMask := v.getLsbD 14 })).msixFlush)
  else .next s
/-- REGISTER_WRITE (R8, R368, R370): a poisoned write changes nothing and is counted. -/
def execRegisterWrite (off : Nat) (ep : Bool) (v : Word) (s : State) : Out :=
  if ep then .next (if off < 0x1000000 then s.modDev (fun d => { d with cwDrop := sat32 d.cwDrop }) else s).tlpPoisoned
  else s.writeReg off v

end Sys2Proof.Machine
end

