-- ==== Sys2Proof/Machine/Sfp.lean ====
section
/-!
DEFINITION. The scalar floating group (R142, R155 to R158).
-/
namespace Sys2Proof.Machine

/-- The rounding mode of a word: its own code, or FRM for 5 (R63, R155). -/
def modeOf (c : Ctx) (r : Fld3) : Nat := if r = 5 then c.frm.toNat else r.toNat
/-- A scalar operand read as a format (R142). -/
def fval (c : Ctx) (t : Fld3) (r : Reg) : FVal := unpack (fmtOf t.toNat) (rdG c r).toNat
/-- An exact result rounded into a register, its flags raised (R115 to R119, R142). -/
def setF (s : State) (d : Reg) (t r : Fld3) (x : FVal × BitVec 5) : Out :=
  let c := s.me
  let (v, fl, seed) := drawRound (fmtOf t.toNat) (modeOf c r) c.seed x.1
  .next (retireWith s (fun c => wrG { orFlags c (x.2 ||| fl) with seed := seed } d (BitVec.ofNat 64 v)))
/-- A result that does not round, with its flags (R157). -/
def setFlagged (s : State) (d : Reg) (x : Nat × BitVec 5) : Out :=
  .next (retireWith s (fun c => wrG (orFlags c x.2) d (BitVec.ofNat 64 x.1)))

/-- FADD (R156). -/
def execFadd (d a b : Reg) (t r : Fld3) (s : State) : Out :=
  setF s d t r (sumExact (modeOf s.me r) [fval s.me t a, fval s.me t b])
/-- FSUB (R156). -/
def execFsub (d a b : Reg) (t r : Fld3) (s : State) : Out :=
  setF s d t r (sumExact (modeOf s.me r) [fval s.me t a, (fval s.me t b).flip])
/-- FMUL (R156). -/
def execFmul (d a b : Reg) (t r : Fld3) (s : State) : Out := setF s d t r (mulExact (fval s.me t a) (fval s.me t b))
/-- FDIV (R156). -/
def execFdiv (d a b : Reg) (t r : Fld3) (s : State) : Out := setF s d t r (divExact (fval s.me t a) (fval s.me t b))
/-- FSQRT (R156). -/
def execFsqrt (d a : Reg) (t r : Fld3) (s : State) : Out := setF s d t r (sqrtExact (fval s.me t a))
/-- FMA (R156): d is a source too. -/
def execFma (d a b : Reg) (t r : Fld3) (s : State) : Out :=
  setF s d t r (fmaExact (modeOf s.me r) (fval s.me t a) (fval s.me t b) (fval s.me t d))

/-- FMIN (R157). -/
def execFmin (d a b : Reg) (t : Fld3) (s : State) : Out :=
  setFlagged s d (minMax (fmtOf t.toNat) false (rdG s.me a).toNat (rdG s.me b).toNat)
/-- FMAX (R157). -/
def execFmax (d a b : Reg) (t : Fld3) (s : State) : Out :=
  setFlagged s d (minMax (fmtOf t.toNat) true (rdG s.me a).toNat (rdG s.me b).toNat)
/-- A relation's result as a number. -/
def ofTruth (x : Bool × BitVec 5) : Nat × BitVec 5 := (if x.1 then 1 else 0, x.2)
/-- FCEQ (R157). -/
def execFceq (d a b : Reg) (t : Fld3) (s : State) : Out := setFlagged s d (ofTruth (cmpEq (fval s.me t a) (fval s.me t b)))
/-- FCLT (R157). -/
def execFclt (d a b : Reg) (t : Fld3) (s : State) : Out := setFlagged s d (ofTruth (cmpLt (fval s.me t a) (fval s.me t b)))
/-- FCLE (R157). -/
def execFcle (d a b : Reg) (t : Fld3) (s : State) : Out := setFlagged s d (ofTruth (cmpLe (fval s.me t a) (fval s.me t b)))
/-- FABS (R157). -/
def execFabs (d a : Reg) (t : Fld3) (s : State) : Out := setFlagged s d (absBits (fmtOf t.toNat) (rdG s.me a).toNat)
/-- FNEG (R157). -/
def execFneg (d a : Reg) (t : Fld3) (s : State) : Out := setFlagged s d (negBits (fmtOf t.toNat) (rdG s.me a).toNat)
/-- FCLASS (R157). -/
def execFclass (d a : Reg) (t : Fld3) (s : State) : Out :=
  setG s d (BitVec.ofNat 64 (2 ^ classBit (fmtOf t.toNat) (rdG s.me a).toNat))

/-- A value rounded to a 64-bit integer of a range into a register (R158). -/
def setInt (s : State) (d : Reg) (r : Fld3) (lo hi : Int) (x : FVal) : Out :=
  let (v, fl, seed) := drawInt lo hi (modeOf s.me r) s.me.seed x
  .next (retireWith s (fun c => wrG { orFlags c fl with seed := seed } d (BitVec.ofInt 64 v)))
/-- FTOI (R158). -/
def execFtoi (d a : Reg) (t r : Fld3) (s : State) : Out := setInt s d r (-2 ^ 63) (2 ^ 63 - 1) (fval s.me t a)
/-- FTON (R158). -/
def execFton (d a : Reg) (t r : Fld3) (s : State) : Out := setInt s d r 0 (2 ^ 64 - 1) (fval s.me t a)
/-- ITOF (R158). -/
def execItof (d a : Reg) (t r : Fld3) (s : State) : Out := setF s d t r (FVal.ofInt (rdG s.me a).toInt, 0)
/-- NTOF (R158). -/
def execNtof (d a : Reg) (t r : Fld3) (s : State) : Out := setF s d t r (FVal.ofInt ((rdG s.me a).toNat : Int), 0)
/-- FCVT (R158): from the source type to T. -/
def execFcvt (d a : Reg) (u t r : Fld3) (s : State) : Out := setF s d t r (fval s.me u a, 0)

end Sys2Proof.Machine
end

