-- ==== Sys2Proof/Machine/Vec.lean ====
section
/-!
DEFINITION. The vector groups (R57 to R63, R140, R141, R159 to R168).
-/
namespace Sys2Proof.Machine

/-! ### Lane by lane (R141) -/

/-- A vector register written lane by lane under a mask, with the flags and the generator (R141). -/
def vLanes (s : State) (d : Reg) (mask : Word) (t : Nat) (f : Nat → Word → Nat × BitVec 5 × Word) : Out :=
  let r := eachLane f mask (rdV s.me d) (laneBits t) (List.range (laneCount t)) s.me.seed
  .next (retireWith s (fun c => { orFlags (wrV c d (ofLanes (laneBits t) r.lanes)) r.flags with seed := r.seed }))
/-- Lane i of a register for a type. -/
def laneOf (c : Ctx) (r : Reg) (t i : Nat) : Nat := lane (rdV c r) (laneBits t) i
/-- Lane i of a register read as a floating value. -/
def flane (c : Ctx) (r : Reg) (t i : Nat) : FVal := unpack (fmtOf t) (laneOf c r t i)
/-- Lane i of a register read as a signed integer. -/
def ilane (c : Ctx) (r : Reg) (t i : Nat) : Int := signedOf (laneBits t) (laneOf c r t i)
/-- A lane rounded under FRM with its draw (R119, R141). -/
def roundLane (c : Ctx) (t : Nat) (x : FVal × BitVec 5) (seed : Word) : Nat × BitVec 5 × Word :=
  let (v, fl, sd) := drawRound (fmtOf t) c.frm.toNat seed x.1
  (v, x.2 ||| fl, sd)
/-- A lane operation: floating for types 0 to 3, whole numbers modulo 2^c for the others (R160). -/
def vBoth (s : State) (d a b : Reg) (m t : Fld3) (f : FVal → FVal → FVal × BitVec 5) (g : Int → Int → Int) : Out :=
  let c := s.me
  let n := t.toNat
  vLanes s d (rdM c m) n (fun i seed =>
    if n < 4 then roundLane c n (f (flane c a n i) (flane c b n i)) seed
    else (lowBits (laneBits n) (g (ilane c a n i) (ilane c b n i)), 0, seed))
/-- A lane operation on patterns, with flags and without rounding. -/
def vBits (s : State) (d a b : Reg) (m t : Fld3) (f : Nat → Nat → Nat × BitVec 5) : Out :=
  let c := s.me
  let n := t.toNat
  vLanes s d (rdM c m) n (flagLane (fun i => f (laneOf c a n i) (laneOf c b n i)))
/-- An integer lane operation on signed lanes. -/
def vSigned (s : State) (d a b : Reg) (m t : Fld3) (g : Int → Int → Int) : Out :=
  let w := laneBits t.toNat
  vBits s d a b m t (fun x y => (lowBits w (g (signedOf w x) (signedOf w y)), 0))
/-- An integer lane operation on natural lanes. -/
def vNatural (s : State) (d a b : Reg) (m t : Fld3) (g : Int → Int → Int) : Out :=
  vBits s d a b m t (fun x y => (lowBits (laneBits t.toNat) (g (x : Int) (y : Int)), 0))
/-- The least signed value of c bits. -/
def sMin (c : Nat) : Int := -((2 ^ (c - 1) : Nat) : Int)
/-- The greatest signed value of c bits. -/
def sMax (c : Nat) : Int := ((2 ^ (c - 1) : Nat) : Int) - 1
/-- The greatest natural value of c bits. -/
def nMax (c : Nat) : Int := ((2 ^ c : Nat) : Int) - 1

/-! ### VARITH (R160) -/

/-- VADD (R160). -/
def execVadd (d a b : Reg) (m t : Fld3) (s : State) : Out :=
  vBoth s d a b m t (fun x y => sumExact s.me.frm.toNat [x, y]) (fun x y => x + y)
/-- VSUB (R160). -/
def execVsub (d a b : Reg) (m t : Fld3) (s : State) : Out :=
  vBoth s d a b m t (fun x y => sumExact s.me.frm.toNat [x, y.flip]) (fun x y => x - y)
/-- VMUL (R160). -/
def execVmul (d a b : Reg) (m t : Fld3) (s : State) : Out := vBoth s d a b m t mulExact (fun x y => x * y)
/-- VDIV (R160). -/
def execVdiv (d a b : Reg) (m t : Fld3) (s : State) : Out := vBoth s d a b m t divExact (fun _ _ => 0)
/-- VSQRT (R160). -/
def execVsqrt (d a : Reg) (m t : Fld3) (s : State) : Out := vBoth s d a a m t (fun x _ => sqrtExact x) (fun _ _ => 0)
/-- The lesser or the greater lane: as FMIN and FMAX, or signed (R160). -/
def vMinMax (s : State) (d a b : Reg) (m t : Fld3) (wantMax : Bool) : Out :=
  let w := laneBits t.toNat
  vBits s d a b m t (fun x y =>
    if t.toNat < 4 then minMax (fmtOf t.toNat) wantMax x y
    else (if decide (signedOf w x < signedOf w y) == wantMax then y else x, 0))
/-- VMIN (R160). -/
def execVmin (d a b : Reg) (m t : Fld3) (s : State) : Out := vMinMax s d a b m t false
/-- VMAX (R160). -/
def execVmax (d a b : Reg) (m t : Fld3) (s : State) : Out := vMinMax s d a b m t true
/-- VMINN (R160). -/
def execVminn (d a b : Reg) (m t : Fld3) (s : State) : Out := vNatural s d a b m t min
/-- VMAXN (R160). -/
def execVmaxn (d a b : Reg) (m t : Fld3) (s : State) : Out := vNatural s d a b m t max
/-- VABS (R160): the most negative integer maps to itself. -/
def execVabs (d a : Reg) (m t : Fld3) (s : State) : Out :=
  let w := laneBits t.toNat
  vBits s d a a m t (fun x _ => if t.toNat < 4 then absBits (fmtOf t.toNat) x else (lowBits w ((signedOf w x).natAbs : Int), 0))
/-- VNEG (R160). -/
def execVneg (d a : Reg) (m t : Fld3) (s : State) : Out :=
  let w := laneBits t.toNat
  vBits s d a a m t (fun x _ => if t.toNat < 4 then negBits (fmtOf t.toNat) x else (lowBits w (-(x : Int)), 0))
/-- VADDS (R160). -/
def execVadds (d a b : Reg) (m t : Fld3) (s : State) : Out :=
  let w := laneBits t.toNat
  vSigned s d a b m t (fun x y => clampInt (sMin w) (sMax w) (x + y))
/-- VSUBS (R160). -/
def execVsubs (d a b : Reg) (m t : Fld3) (s : State) : Out :=
  let w := laneBits t.toNat
  vSigned s d a b m t (fun x y => clampInt (sMin w) (sMax w) (x - y))
/-- VADDSN (R160). -/
def execVaddsn (d a b : Reg) (m t : Fld3) (s : State) : Out :=
  vNatural s d a b m t (fun x y => clampInt 0 (nMax (laneBits t.toNat)) (x + y))
/-- VSUBSN (R160). -/
def execVsubsn (d a b : Reg) (m t : Fld3) (s : State) : Out :=
  vNatural s d a b m t (fun x y => clampInt 0 (nMax (laneBits t.toNat)) (x - y))
/-- VAND (R160). -/
def execVand (d a b : Reg) (m t : Fld3) (s : State) : Out := vBits s d a b m t (fun x y => (x &&& y, 0))
/-- VOR (R160). -/
def execVor (d a b : Reg) (m t : Fld3) (s : State) : Out := vBits s d a b m t (fun x y => (x ||| y, 0))
/-- VXOR (R160). -/
def execVxor (d a b : Reg) (m t : Fld3) (s : State) : Out := vBits s d a b m t (fun x y => (x ^^^ y, 0))
/-- VSLL (R160). -/
def execVsll (d a b : Reg) (m t : Fld3) (s : State) : Out :=
  vBits s d a b m t (fun x y => (x * 2 ^ (y % laneBits t.toNat) % 2 ^ laneBits t.toNat, 0))
/-- VSRL (R160). -/
def execVsrl (d a b : Reg) (m t : Fld3) (s : State) : Out := vBits s d a b m t (fun x y => (x / 2 ^ (y % laneBits t.toNat), 0))
/-- VSRA (R160). -/
def execVsra (d a b : Reg) (m t : Fld3) (s : State) : Out :=
  let w := laneBits t.toNat
  vBits s d a b m t (fun x y => (lowBits w (signedOf w x / ((2 ^ (y % w) : Nat) : Int)), 0))
/-- VMOV (R160): bit for bit. -/
def execVmov (d a : Reg) (m t : Fld3) (s : State) : Out := vBits s d a a m t (fun x _ => (x, 0))
/-- The bits that a scalar gives a lane (R141): an .AF19 lane takes 19. -/
def scalarLane (t : Nat) (x : Word) : Nat := x.toNat % 2 ^ (if t = 3 then 19 else laneBits t)
/-- VSPLAT (R160). -/
def execVsplat (d a : Reg) (m t : Fld3) (s : State) : Out :=
  vBits s d d d m t (fun _ _ => (scalarLane t.toNat (rdG s.me a), 0))

/-! ### VFMA (R161) -/

/-- The fused forms: the sign of the product and of vd. -/
def vFused (s : State) (d a b : Reg) (m t : Fld3) (negProd negAcc : Bool) : Out :=
  let c := s.me
  let n := t.toNat
  vLanes s d (rdM c m) n (fun i seed =>
    let x := flane c a n i
    let z := flane c d n i
    roundLane c n (fmaExact c.frm.toNat (if negProd then x.flip else x) (flane c b n i) (if negAcc then z.flip else z)) seed)
/-- VFMA (R161). -/
def execVfma (d a b : Reg) (m t : Fld3) (s : State) : Out := vFused s d a b m t false false
/-- VFMS (R161). -/
def execVfms (d a b : Reg) (m t : Fld3) (s : State) : Out := vFused s d a b m t false true
/-- VFNMA (R161). -/
def execVfnma (d a b : Reg) (m t : Fld3) (s : State) : Out := vFused s d a b m t true false
/-- VFNMS (R161). -/
def execVfnms (d a b : Reg) (m t : Fld3) (s : State) : Out := vFused s d a b m t true true
/-- VMAC (R161). -/
def execVmac (d a b : Reg) (m t : Fld3) (s : State) : Out :=
  let c := s.me
  let n := t.toNat
  vLanes s d (rdM c m) n (pureLane (fun i => (laneOf c d n i + laneOf c a n i * laneOf c b n i) % 2 ^ laneBits n))

/-! ### VCMP (R162) -/

/-- Bits of a mask from its lanes. -/
def maskOf (L : Nat) (f : Nat → Bool) : Word := BitVec.ofNat 64 ((List.range L).foldr (fun i a => (if f i then 1 else 0) + 2 * a) 0)
/-- A compare (R162): active lanes that hold set their bits; the other bits are written 0. -/
def vCompare (s : State) (d : Fld3) (a b : Reg) (m t : Fld3) (f : FVal → FVal → Bool × BitVec 5) (g : Nat → Nat → Bool) : Out :=
  let c := s.me
  let n := t.toNat
  let act (i : Nat) : Bool := (rdM c m).getLsbD i
  let r (i : Nat) : Bool × BitVec 5 :=
    if n < 4 then f (flane c a n i) (flane c b n i) else (g (laneOf c a n i) (laneOf c b n i), 0)
  let fl := (List.range (laneCount n)).foldl (fun x i => if act i then x ||| (r i).2 else x) (0 : BitVec 5)
  .next (retireWith s (fun c => wrM (orFlags c fl) d (maskOf (laneCount n) (fun i => act i && (r i).1))))
/-- An order on signed lanes. -/
def onSigned (t : Fld3) (r : Int → Int → Bool) (x y : Nat) : Bool := r (signedOf (laneBits t.toNat) x) (signedOf (laneBits t.toNat) y)
/-- VCEQ (R162). -/
def execVceq (d : Fld3) (a b : Reg) (m t : Fld3) (s : State) : Out := vCompare s d a b m t cmpEq (fun x y => x == y)
/-- VCNE (R162): 1 for unordered operands. -/
def execVcne (d : Fld3) (a b : Reg) (m t : Fld3) (s : State) : Out :=
  vCompare s d a b m t (fun x y => (!(cmpEq x y).1, (cmpEq x y).2)) (fun x y => x != y)
/-- VCLT (R162). -/
def execVclt (d : Fld3) (a b : Reg) (m t : Fld3) (s : State) : Out :=
  vCompare s d a b m t cmpLt (onSigned t (fun x y => decide (x < y)))
/-- VCLE (R162). -/
def execVcle (d : Fld3) (a b : Reg) (m t : Fld3) (s : State) : Out :=
  vCompare s d a b m t cmpLe (onSigned t (fun x y => decide (x ≤ y)))
/-- VCLTN (R162). -/
def execVcltn (d : Fld3) (a b : Reg) (m t : Fld3) (s : State) : Out := vCompare s d a b m t cmpLt (fun x y => decide (x < y))
/-- VCLEN (R162). -/
def execVclen (d : Fld3) (a b : Reg) (m t : Fld3) (s : State) : Out := vCompare s d a b m t cmpLe (fun x y => decide (x ≤ y))
/-- VCUN (R162). -/
def execVcun (d : Fld3) (a b : Reg) (m t : Fld3) (s : State) : Out := vCompare s d a b m t cmpUn (fun _ _ => false)
/-- VSEL (R162): every lane is written. -/
def execVsel (d a b : Reg) (m t : Fld3) (s : State) : Out :=
  let c := s.me
  let n := t.toNat
  vLanes s d (BitVec.allOnes 64) n (pureLane (fun i => if (rdM c m).getLsbD i then laneOf c a n i else laneOf c b n i))
/-- A mask register written. -/
def setM (s : State) (d : Fld3) (x : Word) : Out := .next (retireWith s (fun c => wrM c d x))
/-- MAND (R162). -/
def execMand (d a b : Fld3) (s : State) : Out := setM s d (rdM s.me a &&& rdM s.me b)
/-- MOR (R162). -/
def execMor (d a b : Fld3) (s : State) : Out := setM s d (rdM s.me a ||| rdM s.me b)
/-- MXOR (R162). -/
def execMxor (d a b : Fld3) (s : State) : Out := setM s d (rdM s.me a ^^^ rdM s.me b)
/-- MANDN (R162). -/
def execMandn (d a b : Fld3) (s : State) : Out := setM s d (rdM s.me a &&& ~~~(rdM s.me b))
/-- MNOT (R162). -/
def execMnot (d a : Fld3) (s : State) : Out := setM s d (~~~(rdM s.me a))
/-- MSET (R162). -/
def execMset (d : Fld3) (a : Reg) (s : State) : Out := setM s d (rdG s.me a)
/-- MGET (R162). -/
def execMget (d : Reg) (a : Fld3) (s : State) : Out := setG s d (rdM s.me a)
/-- MPOPC (R162). -/
def execMpopc (d : Reg) (a : Fld3) (s : State) : Out := setG s d (BitVec.ofNat 64 (popCount (rdM s.me a)))

/-! ### VPERM (R163) -/

/-- Whole containers moved under the mask. -/
def vMove (s : State) (d : Reg) (m t : Fld3) (f : Nat → Nat) : Out := vLanes s d (rdM s.me m) t.toNat (pureLane f)
/-- VPERM (R163). -/
def execVperm (d a b : Reg) (m t : Fld3) (s : State) : Out :=
  let n := t.toNat
  vMove s d m t (fun i => laneOf s.me a n (laneOf s.me b n i % laneCount n))
/-- VZIP (R163). -/
def execVzip (d a b : Reg) (m t : Fld3) (s : State) : Out :=
  let n := t.toNat
  vMove s d m t (fun i => if i % 2 = 0 then laneOf s.me a n (i / 2) else laneOf s.me b n (i / 2))
/-- VUNZIP (R163). -/
def execVunzip (d a b : Reg) (m t : Fld3) (s : State) : Out :=
  let n := t.toNat
  let h := laneCount n / 2
  vMove s d m t (fun i => if i < h then laneOf s.me a n (2 * i) else laneOf s.me b n (2 * (i - h)))
/-- VROTL (R163): lane i takes lane i - n. -/
def execVrotl (d a b : Reg) (m t : Fld3) (s : State) : Out :=
  let n := t.toNat
  let L := laneCount n
  vMove s d m t (fun i => laneOf s.me a n ((i + (L - (rdG s.me b).toNat % L)) % L))
/-- VEXT (R163). It moves no container: of an .AF19 lane it reads the 19 bits of the value (R114, R141). -/
def execVext (d a b : Reg) (t : Fld3) (s : State) : Out :=
  let n := t.toNat
  let x := laneOf s.me a n ((rdG s.me b).toNat % laneCount n)
  setG s d (BitVec.ofNat 64 (if n = 3 then x % 2 ^ 19 else x))
/-- VINS (R163). -/
def execVins (d a b : Reg) (t : Fld3) (s : State) : Out :=
  let n := t.toNat
  let k := (rdG s.me b).toNat % laneCount n
  vLanes s d (BitVec.allOnes 64) n (pureLane (fun i => if i = k then scalarLane n (rdG s.me a) else laneOf s.me d n i))

/-! ### VRED (R164) -/

/-- Two entries of the tree combined: an absent one gives way. -/
def joinRed (op : Nat → Nat → Word → Nat × BitVec 5 × Word) (x y : Option Nat) (fl : BitVec 5) (seed : Word) :
    Option Nat × BitVec 5 × Word :=
  match x, y with
  | x, none => (x, fl, seed)
  | none, y => (y, fl, seed)
  | some p, some q =>
    let (r, f, sd) := op p q seed
    (some r, fl ||| f, sd)
/-- One level of the tree: the first half with the second, in increasing order. -/
def redLevel (op : Nat → Nat → Word → Nat × BitVec 5 × Word) :
    List (Option Nat) → List (Option Nat) → BitVec 5 → Word → List (Option Nat) × BitVec 5 × Word
  | x :: xs, y :: ys, fl, seed =>
    let (r, f1, sd1) := joinRed op x y fl seed
    let (t, f2, sd2) := redLevel op xs ys f1 sd1
    (r :: t, f2, sd2)
  | _, _, fl, seed => ([], fl, seed)
/-- The tree, level by level: the entries left, the flags and the generator. -/
def redTree (op : Nat → Nat → Word → Nat × BitVec 5 × Word) :
    Nat → List (Option Nat) → BitVec 5 → Word → List (Option Nat) × BitVec 5 × Word
  | 0, xs, fl, seed => (xs, fl, seed)
  | n + 1, xs, fl, seed =>
    let h := xs.length / 2
    if h = 0 then (xs, fl, seed)
    else
      let (ys, f, sd) := redLevel op (xs.take h) (xs.drop h) fl seed
      redTree op n ys f sd
/-- A reduction (R164): the active lanes into lane 0, the other lanes zero. -/
def vReduce (s : State) (d a : Reg) (m t : Fld3) (op : Nat → Nat → Word → Nat × BitVec 5 × Word) (ident : Nat) : Out :=
  let c := s.me
  let n := t.toNat
  let xs := (List.range (laneCount n)).map (fun i =>
    if (rdM c m).getLsbD i then some (laneOf c a n i % (if n = 3 then 2 ^ 19 else 2 ^ laneBits n)) else none)
  let (r, fl, seed) := redTree op 6 xs 0 c.seed
  .next (retireWith s (fun c => { orFlags (wrV c d (BitVec.ofNat 512 (((r.headD none)).getD ident))) fl with seed := seed }))
/-- An integer step of a reduction. -/
def redInt (t : Fld3) (g : Nat → Nat → Nat) (x y : Nat) (seed : Word) : Nat × BitVec 5 × Word :=
  (g x y % 2 ^ laneBits t.toNat, 0, seed)
/-- VRSUM (R164). -/
def execVrsum (d a : Reg) (m t : Fld3) (s : State) : Out :=
  vReduce s d a m t (fun x y seed =>
    if t.toNat < 4 then
      roundLane s.me t.toNat (sumExact s.me.frm.toNat [unpack (fmtOf t.toNat) x, unpack (fmtOf t.toNat) y]) seed
    else redInt t (· + ·) x y seed) 0
/-- VRMIN and VRMAX (R164). -/
def vExtreme (s : State) (d a : Reg) (m t : Fld3) (wantMax : Bool) : Out :=
  let w := laneBits t.toNat
  vReduce s d a m t (fun x y seed =>
    if t.toNat < 4 then
      let (v, fl) := minMax (fmtOf t.toNat) wantMax x y
      (v, fl, seed)
    else redInt t (fun x y => if decide (signedOf w x < signedOf w y) == wantMax then y else x) x y seed)
    (if t.toNat < 4 then (fmtOf t.toNat).infBits wantMax else if wantMax then 2 ^ (w - 1) else 2 ^ (w - 1) - 1)
/-- VRMIN (R164). -/
def execVrmin (d a : Reg) (m t : Fld3) (s : State) : Out := vExtreme s d a m t false
/-- VRMAX (R164). -/
def execVrmax (d a : Reg) (m t : Fld3) (s : State) : Out := vExtreme s d a m t true
/-- VRAND (R164). -/
def execVrand (d a : Reg) (m t : Fld3) (s : State) : Out := vReduce s d a m t (redInt t (· &&& ·)) (2 ^ laneBits t.toNat - 1)
/-- VROR (R164). -/
def execVror (d a : Reg) (m t : Fld3) (s : State) : Out := vReduce s d a m t (redInt t (· ||| ·)) 0
/-- VRXOR (R164). -/
def execVrxor (d a : Reg) (m t : Fld3) (s : State) : Out := vReduce s d a m t (redInt t (· ^^^ ·)) 0

/-! ### VCVT (R165) -/

/-- A lane of a type as a value: floating, decoded, or an integer. -/
def laneVal (core : Core) (t x : Nat) : FVal :=
  if t < 4 then unpack (fmtOf t) x
  else if t = 7 then dtValue core.dt core.dmode x
  else FVal.ofInt (signedOf (laneBits t) x)
/-- One lane converted (R123, R131, R165). -/
def convLane (core : Core) (ts td mode : Nat) (sat : Bool) (x : Nat) (seed : Word) : Nat × BitVec 5 × Word :=
  let w := laneBits td
  if 4 ≤ ts ∧ ts ≤ 6 ∧ 4 ≤ td ∧ td ≤ 6 then
    let i := signedOf (laneBits ts) x
    if sat then
      let j := clampInt (sMin w) (sMax w) i
      (lowBits w j, flagIf (decide (j ≠ i)) fNV, seed)
    else (lowBits w i, 0, seed)
  else
    let v := laneVal core ts x
    if td < 4 then drawRound (fmtOf td) mode seed v
    else if td = 7 then
      let (c, fl) := t8Encode core.dt core.dmode v
      (c, fl, seed)
    else
      let (i, fl, sd) := drawInt (sMin w) (sMax w) mode seed v
      (lowBits w i, fl, sd)
/-- VCVT and VCVTS (R165): lanes beyond the source's are written zero. -/
def vConvert (s : State) (d a : Reg) (ts m td r : Fld3) (sat : Bool) : Out :=
  let c := s.me
  let core := s.core s.myCore
  let n := min (laneCount ts.toNat) (laneCount td.toNat)
  if td = 7 ∧ core.outOfOrder = true then .next (trapNow s cDTORDER)
  else vLanes s d (rdM c m ||| BitVec.allOnes 64 <<< n) td.toNat (fun i seed =>
    if n ≤ i then (0, 0, seed) else convLane core ts.toNat td.toNat (modeOf c r) sat (laneOf c a ts.toNat i) seed)
/-- VCVT (R165). -/
def execVcvt (d a : Reg) (ts m td r : Fld3) (s : State) : Out := vConvert s d a ts m td r false
/-- VCVTS (R165). -/
def execVcvts (d a : Reg) (ts m td r : Fld3) (s : State) : Out := vConvert s d a ts m td r true

/-! ### VQNT and VDQNT (R166) -/

/-- The entry traps FMT for an instruction of L lanes (R125, R166). -/
def qntRefused (e : BitVec 256) (L : Nat) : Bool :=
  !ftValid e || (decide (ftBlog e ≠ 0) && decide (L < 2 ^ ftBlog e)) || (ftKind e == 5 && ftBlog e == 0)
/-- The flags that the active elements raise: those of their blocks without the masked-off elements (R117; log entry 34). -/
def qntFlags (dt : List (BitVec 19)) (dm : Bool) (kind w blog mode : Nat) (mask : Word) (xs : List (FVal × Nat)) : BitVec 5 :=
  let act (ps : List ((FVal × Nat) × Nat)) : List (FVal × Nat) := (ps.filter (fun p => mask.getLsbD p.2)).map (·.1)
  if blog = 0 then (quantise dt dm kind w 0 mode (act xs.zipIdx)).1.flags
  else (chunksOf (2 ^ blog) xs.length xs.zipIdx).foldl (fun f b => f ||| (quantBlock dt dm kind w mode (act b)).2.flags) 0
/-- VQNT (R166): the divisors are waited for; the whole of vd is written. -/
def execVqnt (d a : Reg) (ix : BitVec 4) (m t r : Fld3) (s : State) : Out :=
  let core := s.core s.myCore
  let e := core.ftEntry ix.toNat
  let L := laneCount t.toNat
  let kind := ftKind e
  let blog := ftBlog e
  let w := ftW e
  if qntRefused e L then .next (trapNow s cFMT)
  else if kind = 5 ∧ core.outOfOrder = true then .next (trapNow s cDTORDER)
  else
    let go (s : State) (ds : List Byte) : Out :=
      let c := s.me
      let mask := rdM c m
      let mode := modeOf c r
      let raw := (List.range L).map (fun i => if mask.getLsbD i then flane c a t.toNat i else .fin false 0 0)
      let (xs, _) := smoothBy e raw ds
      let smooth := (raw.zip (List.range L)).foldl (fun f p =>
        if ftSmen e && mask.getLsbD p.2 then
          f ||| (smoothOne p.1 ((fp32Bytes ds).getD (p.2 % ftSlen e) (.fin false 0 0))).2 else f) (0 : BitVec 5)
      let (rs, seed) := takeDraws ((quantDraws kind blog xs (fun i => mask.getLsbD i)).map (fun x => x && decide (mode = 4))) c.seed
      let ps := xs.zip rs
      let (q, scales) := quantise core.dt core.dmode kind w blog mode ps
      let bits := streamOf w q.codes % 2 ^ 256 + 2 ^ 256 * streamOf 8 scales
      let code := if blog = 0 then streamOf w q.codes else bits
      .next (retireWith s (fun c => { orFlags (wrV c d (BitVec.ofNat 512 code)) (smooth ||| qntFlags core.dt core.dmode kind w blog mode mask ps)
                                        with seed := seed }))
    if ftSmen e then readNow s false (divisorAddrs e L) go else go s []
/-- VDQNT (R121, R133, R166): active lanes alone are written. -/
def execVdqnt (d a : Reg) (ix : BitVec 4) (m t r : Fld3) (s : State) : Out :=
  let c := s.me
  let core := s.core s.myCore
  let e := core.ftEntry ix.toNat
  let n := t.toNat
  if qntRefused e (laneCount n) then .next (trapNow s cFMT)
  else vLanes s d (rdM c m) n (fun i seed =>
    let x := (rdV c a).toNat
    let v := codeValue core.dt core.dmode (ftKind e) (ftW e) (streamGet (ftW e) x i)
    drawRound (fmtOf n) (modeOf c r) seed
      (if ftBlog e = 0 then v else scaled v (streamGet 8 (x / 2 ^ 256) (i / 2 ^ ftBlog e))))

/-! ### VDOT (R167, R168) -/

/-- Products accumulated into a 32-bit lane: integers modulo 2^32, or one rounding to FP32. -/
def dotLane (c : Ctx) (core : Core) (t acc : Nat) (ps : List (Nat × Nat)) (seed : Word) : Nat × BitVec 5 × Word :=
  if t = 5 ∨ t = 6 then
    let w := laneBits t
    (lowBits 32 (ps.foldl (fun x p => x + signedOf w p.1 * signedOf w p.2) (acc : Int)), 0, seed)
  else
    let qs := ps.map (fun p => mulExact (laneVal core t p.1) (laneVal core t p.2))
    let (x, f) := sumExact c.frm.toNat (unpack (fmtOf 0) acc :: qs.map (·.1))
    roundLane c 0 (x, qs.foldl (fun a q => a ||| q.2) f) seed
/-- VDOT (R167). -/
def execVdot (d a b : Reg) (m t : Fld3) (s : State) : Out :=
  let c := s.me
  let n := t.toNat
  let k := 32 / laneBits n
  vLanes s d (rdM c m) 4 (fun j seed => dotLane c (s.core s.myCore) n (laneOf c d 4 j)
    ((List.range k).map (fun i => (laneOf c a n (j * k + i), laneOf c b n (j * k + i)))) seed)
/-- VDOT.SP (R168). -/
def execVdotSp (d a b : Reg) (m t : Fld3) (s : State) : Out :=
  let c := s.me
  let n := t.toNat
  let g := if laneBits n = 8 then 4 else 2
  let word (j : Nat) : Nat := (rdM c m).toNat / 2 ^ (16 * j) % 2 ^ 16
  let ok (j : Nat) : Bool := (List.range 8).any (fun k => sparseOk (word j) (k + 1))
  if !(List.range g).all ok then .next (trapNow s cFMT)
  else vLanes s d (BitVec.ofNat 64 (2 ^ g - 1)) 4 (fun j seed => dotLane c (s.core s.myCore) n (laneOf c d 4 j)
    ((sparseKept (word j)).zipIdx.map (fun p => (laneOf c a n (12 * j + p.1), laneOf c b n (8 * j + p.2)))) seed)

end Sys2Proof.Machine
end

