-- ==== Sys2Proof/Machine/Dispatch.lean ====
section
/-!
DEFINITION. One arm per row of spec/opcode_table.json: a direct call of its meaning.
-/
namespace Sys2Proof.Machine

/-- The meaning of an instruction. -/
def exec (i : Instr) (s : State) : Host.Outcome State Fault Refusal :=
  match i with
  | .add d a b => Sys2Proof.Machine.execAdd d a b s
  | .sub d a b => Sys2Proof.Machine.execSub d a b s
  | .and d a b => Sys2Proof.Machine.execAnd d a b s
  | .or d a b => Sys2Proof.Machine.execOr d a b s
  | .xor d a b => Sys2Proof.Machine.execXor d a b s
  | .andn d a b => Sys2Proof.Machine.execAndn d a b s
  | .nor d a b => Sys2Proof.Machine.execNor d a b s
  | .xnor d a b => Sys2Proof.Machine.execXnor d a b s
  | .slt d a b => Sys2Proof.Machine.execSlt d a b s
  | .sltn d a b => Sys2Proof.Machine.execSltn d a b s
  | .min d a b => Sys2Proof.Machine.execMin d a b s
  | .max d a b => Sys2Proof.Machine.execMax d a b s
  | .minn d a b => Sys2Proof.Machine.execMinn d a b s
  | .maxn d a b => Sys2Proof.Machine.execMaxn d a b s
  | .sll d a b => Sys2Proof.Machine.execSll d a b s
  | .srl d a b => Sys2Proof.Machine.execSrl d a b s
  | .sra d a b => Sys2Proof.Machine.execSra d a b s
  | .ror d a b => Sys2Proof.Machine.execRor d a b s
  | .mul d a b => Sys2Proof.Machine.execMul d a b s
  | .mulh d a b => Sys2Proof.Machine.execMulh d a b s
  | .mulhn d a b => Sys2Proof.Machine.execMulhn d a b s
  | .div d a b => Sys2Proof.Machine.execDiv d a b s
  | .divn d a b => Sys2Proof.Machine.execDivn d a b s
  | .rem d a b => Sys2Proof.Machine.execRem d a b s
  | .remn d a b => Sys2Proof.Machine.execRemn d a b s
  | .clz d a => Sys2Proof.Machine.execClz d a s
  | .ctz d a => Sys2Proof.Machine.execCtz d a s
  | .popc d a => Sys2Proof.Machine.execPopc d a s
  | .sxb d a => Sys2Proof.Machine.execSxb d a s
  | .sxh d a => Sys2Proof.Machine.execSxh d a s
  | .sxw d a => Sys2Proof.Machine.execSxw d a s
  | .qrd d a => Sys2Proof.Machine.execQrd d a s
  | .wwr d b => Sys2Proof.Machine.execWwr d b s
  | .wclr => Sys2Proof.Machine.execWclr s
  | .addi d a im => Sys2Proof.Machine.execAddi d a im s
  | .andi d a im => Sys2Proof.Machine.execAndi d a im s
  | .ori d a im => Sys2Proof.Machine.execOri d a im s
  | .xori d a im => Sys2Proof.Machine.execXori d a im s
  | .slti d a im => Sys2Proof.Machine.execSlti d a im s
  | .sltni d a im => Sys2Proof.Machine.execSltni d a im s
  | .muli d a im => Sys2Proof.Machine.execMuli d a im s
  | .movi d im => Sys2Proof.Machine.execMovi d im s
  | .movh d a im => Sys2Proof.Machine.execMovh d a im s
  | .addpi d a im => Sys2Proof.Machine.execAddpi d a im s
  | .slli d a sh => Sys2Proof.Machine.execSlli d a sh s
  | .srli d a sh => Sys2Proof.Machine.execSrli d a sh s
  | .srai d a sh => Sys2Proof.Machine.execSrai d a sh s
  | .rori d a sh => Sys2Proof.Machine.execRori d a sh s
  | .addp d a b => Sys2Proof.Machine.execAddp d a b s
  | .subp d a b => Sys2Proof.Machine.execSubp d a b s
  | .tagget d a => Sys2Proof.Machine.execTagget d a s
  | .tagset d a b => Sys2Proof.Machine.execTagset d a b s
  | .pclr d a => Sys2Proof.Machine.execPclr d a s
  | .ldB t b sh o => Sys2Proof.Machine.execLdB t b sh o s
  | .ldBn t b sh o => Sys2Proof.Machine.execLdBn t b sh o s
  | .ldH t b sh o => Sys2Proof.Machine.execLdH t b sh o s
  | .ldHn t b sh o => Sys2Proof.Machine.execLdHn t b sh o s
  | .ldW t b sh o => Sys2Proof.Machine.execLdW t b sh o s
  | .ldWn t b sh o => Sys2Proof.Machine.execLdWn t b sh o s
  | .ldD t b sh o => Sys2Proof.Machine.execLdD t b sh o s
  | .stB t b sh o => Sys2Proof.Machine.execStB t b sh o s
  | .stH t b sh o => Sys2Proof.Machine.execStH t b sh o s
  | .stW t b sh o => Sys2Proof.Machine.execStW t b sh o s
  | .stD t b sh o => Sys2Proof.Machine.execStD t b sh o s
  | .vld t b sh o => Sys2Proof.Machine.execVld t b sh o s
  | .vst t b sh o => Sys2Proof.Machine.execVst t b sh o s
  | .ldAcq d a sh n z => Sys2Proof.Machine.execLdAcq d a sh n z s
  | .stRel a b sh z => Sys2Proof.Machine.execStRel a b sh z s
  | .vldf v a m => Sys2Proof.Machine.execVldf v a m s
  | .vstf v a m => Sys2Proof.Machine.execVstf v a m s
  | .pref a l => Sys2Proof.Machine.execPref a l s
  | .prefResPin a b l => Sys2Proof.Machine.execPrefResPin a b l s
  | .prefResUnpin a b l => Sys2Proof.Machine.execPrefResUnpin a b l s
  | .fence sh k => Sys2Proof.Machine.execFence sh k s
  | .l1inv a b => Sys2Proof.Machine.execL1inv a b s
  | .l1wb a b => Sys2Proof.Machine.execL1wb a b s
  | .atomAdd d a b z r => Sys2Proof.Machine.execAtomAdd d a b z r s
  | .atomAnd d a b z r => Sys2Proof.Machine.execAtomAnd d a b z r s
  | .atomOr d a b z r => Sys2Proof.Machine.execAtomOr d a b z r s
  | .atomXor d a b z r => Sys2Proof.Machine.execAtomXor d a b z r s
  | .atomSwap d a b z r => Sys2Proof.Machine.execAtomSwap d a b z r s
  | .atomCas d a b z => Sys2Proof.Machine.execAtomCas d a b z s
  | .atomMin d a b z r => Sys2Proof.Machine.execAtomMin d a b z r s
  | .atomMax d a b z r => Sys2Proof.Machine.execAtomMax d a b z r s
  | .atomMinn d a b z r => Sys2Proof.Machine.execAtomMinn d a b z r s
  | .atomMaxn d a b z r => Sys2Proof.Machine.execAtomMaxn d a b z r s
  | .atomFadd d a b z r => Sys2Proof.Machine.execAtomFadd d a b z r s
  | .brEq a b d => Sys2Proof.Machine.execBrEq a b d s
  | .brNe a b d => Sys2Proof.Machine.execBrNe a b d s
  | .brLt a b d => Sys2Proof.Machine.execBrLt a b d s
  | .brGe a b d => Sys2Proof.Machine.execBrGe a b d s
  | .brLtn a b d => Sys2Proof.Machine.execBrLtn a b d s
  | .brGen a b d => Sys2Proof.Machine.execBrGen a b d s
  | .j d => Sys2Proof.Machine.execJ d s
  | .jl d => Sys2Proof.Machine.execJl d s
  | .jr a => Sys2Proof.Machine.execJr a s
  | .jlr d a => Sys2Proof.Machine.execJlr d a s
  | .rpt n c d a b => Sys2Proof.Machine.execRpt n c d a b s
  | .waitc l sh c t => Sys2Proof.Machine.execWaitc l sh c t s
  | .send => Sys2Proof.Machine.execSend s
  | .sendC => Sys2Proof.Machine.execSendC s
  | .start a b => Sys2Proof.Machine.execStart a b s
  | .spawn a b => Sys2Proof.Machine.execSpawn a b s
  | .endAct => Sys2Proof.Machine.execEndAct s
  | .yield => Sys2Proof.Machine.execYield s
  | .migr a => Sys2Proof.Machine.execMigr a s
  | .align => Sys2Proof.Machine.execAlign s
  | .chen a => Sys2Proof.Machine.execChen a s
  | .chdis a => Sys2Proof.Machine.execChdis a s
  | .chpri a b => Sys2Proof.Machine.execChpri a b s
  | .ralloc d a b => Sys2Proof.Machine.execRalloc d a b s
  | .rfree a => Sys2Proof.Machine.execRfree a s
  | .tkill a => Sys2Proof.Machine.execTkill a s
  | .sysrd d sh => Sys2Proof.Machine.execSysrd d sh s
  | .syswr a sh => Sys2Proof.Machine.execSyswr a sh s
  | .trap c => Sys2Proof.Machine.execTrap c s
  | .irq a => Sys2Proof.Machine.execIrq a s
  | .vadd d a b m t => Sys2Proof.Machine.execVadd d a b m t s
  | .vsub d a b m t => Sys2Proof.Machine.execVsub d a b m t s
  | .vmul d a b m t => Sys2Proof.Machine.execVmul d a b m t s
  | .vmin d a b m t => Sys2Proof.Machine.execVmin d a b m t s
  | .vmax d a b m t => Sys2Proof.Machine.execVmax d a b m t s
  | .vabs d a m t => Sys2Proof.Machine.execVabs d a m t s
  | .vneg d a m t => Sys2Proof.Machine.execVneg d a m t s
  | .vdiv d a b m t => Sys2Proof.Machine.execVdiv d a b m t s
  | .vsqrt d a m t => Sys2Proof.Machine.execVsqrt d a m t s
  | .vminn d a b m t => Sys2Proof.Machine.execVminn d a b m t s
  | .vmaxn d a b m t => Sys2Proof.Machine.execVmaxn d a b m t s
  | .vadds d a b m t => Sys2Proof.Machine.execVadds d a b m t s
  | .vsubs d a b m t => Sys2Proof.Machine.execVsubs d a b m t s
  | .vaddsn d a b m t => Sys2Proof.Machine.execVaddsn d a b m t s
  | .vsubsn d a b m t => Sys2Proof.Machine.execVsubsn d a b m t s
  | .vand d a b m t => Sys2Proof.Machine.execVand d a b m t s
  | .vor d a b m t => Sys2Proof.Machine.execVor d a b m t s
  | .vxor d a b m t => Sys2Proof.Machine.execVxor d a b m t s
  | .vsll d a b m t => Sys2Proof.Machine.execVsll d a b m t s
  | .vsrl d a b m t => Sys2Proof.Machine.execVsrl d a b m t s
  | .vsra d a b m t => Sys2Proof.Machine.execVsra d a b m t s
  | .vmov d a m t => Sys2Proof.Machine.execVmov d a m t s
  | .vsplat d a m t => Sys2Proof.Machine.execVsplat d a m t s
  | .vfma d a b m t => Sys2Proof.Machine.execVfma d a b m t s
  | .vfms d a b m t => Sys2Proof.Machine.execVfms d a b m t s
  | .vfnma d a b m t => Sys2Proof.Machine.execVfnma d a b m t s
  | .vfnms d a b m t => Sys2Proof.Machine.execVfnms d a b m t s
  | .vmac d a b m t => Sys2Proof.Machine.execVmac d a b m t s
  | .vceq d a b m t => Sys2Proof.Machine.execVceq d a b m t s
  | .vcne d a b m t => Sys2Proof.Machine.execVcne d a b m t s
  | .vclt d a b m t => Sys2Proof.Machine.execVclt d a b m t s
  | .vcle d a b m t => Sys2Proof.Machine.execVcle d a b m t s
  | .vcltn d a b m t => Sys2Proof.Machine.execVcltn d a b m t s
  | .vclen d a b m t => Sys2Proof.Machine.execVclen d a b m t s
  | .vcun d a b m t => Sys2Proof.Machine.execVcun d a b m t s
  | .vsel d a b m t => Sys2Proof.Machine.execVsel d a b m t s
  | .mand d a b => Sys2Proof.Machine.execMand d a b s
  | .mor d a b => Sys2Proof.Machine.execMor d a b s
  | .mxor d a b => Sys2Proof.Machine.execMxor d a b s
  | .mandn d a b => Sys2Proof.Machine.execMandn d a b s
  | .mnot d a => Sys2Proof.Machine.execMnot d a s
  | .mset d a => Sys2Proof.Machine.execMset d a s
  | .mget d a => Sys2Proof.Machine.execMget d a s
  | .mpopc d a => Sys2Proof.Machine.execMpopc d a s
  | .vperm d a b m t => Sys2Proof.Machine.execVperm d a b m t s
  | .vzip d a b m t => Sys2Proof.Machine.execVzip d a b m t s
  | .vunzip d a b m t => Sys2Proof.Machine.execVunzip d a b m t s
  | .vrotl d a b m t => Sys2Proof.Machine.execVrotl d a b m t s
  | .vext d a b t => Sys2Proof.Machine.execVext d a b t s
  | .vins d a b t => Sys2Proof.Machine.execVins d a b t s
  | .vrsum d a m t => Sys2Proof.Machine.execVrsum d a m t s
  | .vrmin d a m t => Sys2Proof.Machine.execVrmin d a m t s
  | .vrmax d a m t => Sys2Proof.Machine.execVrmax d a m t s
  | .vrand d a m t => Sys2Proof.Machine.execVrand d a m t s
  | .vror d a m t => Sys2Proof.Machine.execVror d a m t s
  | .vrxor d a m t => Sys2Proof.Machine.execVrxor d a m t s
  | .vcvt d a sh m t r => Sys2Proof.Machine.execVcvt d a sh m t r s
  | .vcvts d a sh m t r => Sys2Proof.Machine.execVcvts d a sh m t r s
  | .vqnt d a x m t r => Sys2Proof.Machine.execVqnt d a x m t r s
  | .vdqnt d a x m t r => Sys2Proof.Machine.execVdqnt d a x m t r s
  | .vdot d a b m t => Sys2Proof.Machine.execVdot d a b m t s
  | .vdotSp d a b m t => Sys2Proof.Machine.execVdotSp d a b m t s
  | .fadd d a b t r => Sys2Proof.Machine.execFadd d a b t r s
  | .fsub d a b t r => Sys2Proof.Machine.execFsub d a b t r s
  | .fmul d a b t r => Sys2Proof.Machine.execFmul d a b t r s
  | .fdiv d a b t r => Sys2Proof.Machine.execFdiv d a b t r s
  | .fsqrt d a t r => Sys2Proof.Machine.execFsqrt d a t r s
  | .fma d a b t r => Sys2Proof.Machine.execFma d a b t r s
  | .fmin d a b t => Sys2Proof.Machine.execFmin d a b t s
  | .fmax d a b t => Sys2Proof.Machine.execFmax d a b t s
  | .fceq d a b t => Sys2Proof.Machine.execFceq d a b t s
  | .fclt d a b t => Sys2Proof.Machine.execFclt d a b t s
  | .fcle d a b t => Sys2Proof.Machine.execFcle d a b t s
  | .fabs d a t => Sys2Proof.Machine.execFabs d a t s
  | .fneg d a t => Sys2Proof.Machine.execFneg d a t s
  | .fclass d a t => Sys2Proof.Machine.execFclass d a t s
  | .ftoi d a t r => Sys2Proof.Machine.execFtoi d a t r s
  | .fton d a t r => Sys2Proof.Machine.execFton d a t r s
  | .itof d a t r => Sys2Proof.Machine.execItof d a t r s
  | .ntof d a t r => Sys2Proof.Machine.execNtof d a t r s
  | .fcvt d a sh t r => Sys2Proof.Machine.execFcvt d a sh t r s
  | .dtwr a b => Sys2Proof.Machine.execDtwr a b s
  | .dtrd d a => Sys2Proof.Machine.execDtrd d a s
  | .ftwr a b => Sys2Proof.Machine.execFtwr a b s
  | .ftrd a b => Sys2Proof.Machine.execFtrd a b s
  | .dtmode a => Sys2Proof.Machine.execDtmode a s
  | .twait d a => Sys2Proof.Machine.execTwait d a s
  | .tstat d a => Sys2Proof.Machine.execTstat d a s
  | .tstatR d a => Sys2Proof.Machine.execTstatR d a s
  | .tcancel a => Sys2Proof.Machine.execTcancel a s
  | .tfence c => Sys2Proof.Machine.execTfence c s
  | .tresume a => Sys2Proof.Machine.execTresume a s
  | .trec a b => Sys2Proof.Machine.execTrec a b s
  | .tdet a => Sys2Proof.Machine.execTdet a s
  | .cpy d a b x p n k => Sys2Proof.Machine.execCpy d a b x p n k s
  | .cpyX d a b x p n k => Sys2Proof.Machine.execCpyX d a b x p n k s
  | .cpySp d a b x p n k => Sys2Proof.Machine.execCpySp d a b x p n k s
  | .cpyR d a b x p n k => Sys2Proof.Machine.execCpyR d a b x p n k s
  | .cpyF d a b x p n k => Sys2Proof.Machine.execCpyF d a b x p n k s
  | .mmx d a b x p n k => Sys2Proof.Machine.execMmx d a b x p n k s
  | .mmxA d a b x p n k => Sys2Proof.Machine.execMmxA d a b x p n k s
  | .phld d a b x p n k => Sys2Proof.Machine.execPhld d a b x p n k s
  | .phdec d a b x p n k => Sys2Proof.Machine.execPhdec d a b x p n k s
  | .phswp d a b x p n k => Sys2Proof.Machine.execPhswp d a b x p n k s
  | .phres d a b x p n k => Sys2Proof.Machine.execPhres d a b x p n k s
  | .phdrop d a b x p n k => Sys2Proof.Machine.execPhdrop d a b x p n k s
  | .tcopy d a b x p n k => Sys2Proof.Machine.execTcopy d a b x p n k s
  | .tcopyBp d a b x p n k => Sys2Proof.Machine.execTcopyBp d a b x p n k s
  | .tcopyAcc d a b x p n k => Sys2Proof.Machine.execTcopyAcc d a b x p n k s
  | .binit a b => Sys2Proof.Machine.execBinit a b s
  | .barr a b => Sys2Proof.Machine.execBarr a b s
  | .bwait d a => Sys2Proof.Machine.execBwait d a s
  | .bnote a b => Sys2Proof.Machine.execBnote a b s
  | .bwdraw a => Sys2Proof.Machine.execBwdraw a s
  | .bstat d a => Sys2Proof.Machine.execBstat d a s
  | .bbytes a b => Sys2Proof.Machine.execBbytes a b s
  | .blink a b => Sys2Proof.Machine.execBlink a b s
  | .bbind a b => Sys2Proof.Machine.execBbind a b s
  | .gjoin d a b x p n k => Sys2Proof.Machine.execGjoin d a b x p n k s
  | .gleave d a b x p n k => Sys2Proof.Machine.execGleave d a b x p n k s
  | .cred d a b x p n k => Sys2Proof.Machine.execCred d a b x p n k s
  | .cbcast d a b x p n k => Sys2Proof.Machine.execCbcast d a b x p n k s
  | .cgath d a b x p n k => Sys2Proof.Machine.execCgath d a b x p n k s
  | .crscat d a b x p n k => Sys2Proof.Machine.execCrscat d a b x p n k s
  | .ca2a d a b x p n k => Sys2Proof.Machine.execCa2a d a b x p n k s
  | .semadd a b => Sys2Proof.Machine.execSemadd a b s
  | .semset a b => Sys2Proof.Machine.execSemset a b s
  | .semrd d a => Sys2Proof.Machine.execSemrd d a s
  | .semwait a b => Sys2Proof.Machine.execSemwait a b s
  | .semwaitN a b c => Sys2Proof.Machine.execSemwaitN a b c s
  | .circ d a b x p n k => Sys2Proof.Machine.execCirc d a b x p n k s
  | .circT d a b x p n k => Sys2Proof.Machine.execCircT d a b x p n k s
  | .famwr d a b x p n k => Sys2Proof.Machine.execFamwr d a b x p n k s
  | .pgate d a b x p n k => Sys2Proof.Machine.execPgate d a b x p n k s
  | .pwake d a b x p n k => Sys2Proof.Machine.execPwake d a b x p n k s
  | .ext im => Sys2Proof.Machine.execExt im s
  | .lateStoreFault key id => Sys2Proof.Machine.execLateStoreFault key id s
  | .deferredFault key => Sys2Proof.Machine.execDeferredFault key s
  | .budgetExpiry key => Sys2Proof.Machine.execBudgetExpiry key s
  | .waittimeExpiry key => Sys2Proof.Machine.execWaittimeExpiry key s
  | .messageArrival id => Sys2Proof.Machine.execMessageArrival id s
  | .channelSelection core => Sys2Proof.Machine.execChannelSelection core s
  | .spillActivation core => Sys2Proof.Machine.execSpillActivation core s
  | .replayActivation core => Sys2Proof.Machine.execReplayActivation core s
  | .atomicHandlerActivation core => Sys2Proof.Machine.execAtomicHandlerActivation core s
  | .loadReply key id => Sys2Proof.Machine.execLoadReply key id s
  | .storeAck key id => Sys2Proof.Machine.execStoreAck key id s
  | .forwardingEntryExpiry core n => Sys2Proof.Machine.execForwardingEntryExpiry core n s
  | .alignRelease key => Sys2Proof.Machine.execAlignRelease key s
  | .channelControlPacket id => Sys2Proof.Machine.execChannelControlPacket id s
  | .remoteLoad id => Sys2Proof.Machine.execRemoteLoad id s
  | .remoteStore id => Sys2Proof.Machine.execRemoteStore id s
  | .storeBufferDrain core n => Sys2Proof.Machine.execStoreBufferDrain core n s
  | .l2StoreAccept id => Sys2Proof.Machine.execL2StoreAccept id s
  | .translationWalk cluster asid va => Sys2Proof.Machine.execTranslationWalk cluster asid va s
  | .regionReclaim core n => Sys2Proof.Machine.execRegionReclaim core n s
  | .builtinAtomic id => Sys2Proof.Machine.execBuiltinAtomic id s
  | .atomicReply key id => Sys2Proof.Machine.execAtomicReply key id s
  | .cohLocalRead pa => Sys2Proof.Machine.execCohLocalRead pa s
  | .cohLocalWrite pa => Sys2Proof.Machine.execCohLocalWrite pa s
  | .cohGets pa member => Sys2Proof.Machine.execCohGets pa member s
  | .cohGetx pa member => Sys2Proof.Machine.execCohGetx pa member s
  | .cohEviction pa member kind data => Sys2Proof.Machine.execCohEviction pa member kind data s
  | .cohProbe pa kind => Sys2Proof.Machine.execCohProbe pa kind s
  | .cohTransactionComplete pa written data => Sys2Proof.Machine.execCohTransactionComplete pa written data s
  | .probeTimeout pa member => Sys2Proof.Machine.execProbeTimeout pa member s
  | .xinv lo hi => Sys2Proof.Machine.execXinv lo hi s
  | .xinvComplete => Sys2Proof.Machine.execXinvComplete s
  | .pageMove pa => Sys2Proof.Machine.execPageMove pa s
  | .pageMoveCheck => Sys2Proof.Machine.execPageMoveCheck s
  | .transientDeadline k => Sys2Proof.Machine.execTransientDeadline k s
  | .transientRearm k => Sys2Proof.Machine.execTransientRearm k s
  | .deadlineWrite k v => Sys2Proof.Machine.execDeadlineWrite k v s
  | .remapError tower both base extent => Sys2Proof.Machine.execRemapError tower both base extent s
  | .refreshPreemption tower => Sys2Proof.Machine.execRefreshPreemption tower s
  | .memoryEccError source unit addr => Sys2Proof.Machine.execMemoryEccError source unit addr s
  | .rasFoldExpiry source unit => Sys2Proof.Machine.execRasFoldExpiry source unit s
  | .copySchedule cluster => Sys2Proof.Machine.execCopySchedule cluster s
  | .copyChunk core slot => Sys2Proof.Machine.execCopyChunk core slot s
  | .copyBeat core slot n => Sys2Proof.Machine.execCopyBeat core slot n s
  | .cancelAtEngine core slot => Sys2Proof.Machine.execCancelAtEngine core slot s
  | .opTerminal core slot => Sys2Proof.Machine.execOpTerminal core slot s
  | .engineInboxEntry core slot => Sys2Proof.Machine.execEngineInboxEntry core slot s
  | .laneDispatch engine lane => Sys2Proof.Machine.execLaneDispatch engine lane s
  | .migration engine core slot => Sys2Proof.Machine.execMigration engine core slot s
  | .mmxCompletion engine => Sys2Proof.Machine.execMmxCompletion engine s
  | .phldExecution engine => Sys2Proof.Machine.execPhldExecution engine s
  | .phdecExecution engine => Sys2Proof.Machine.execPhdecExecution engine s
  | .backBankLoad engine => Sys2Proof.Machine.execBackBankLoad engine s
  | .phresExecution engine => Sys2Proof.Machine.execPhresExecution engine s
  | .phswpExecution engine => Sys2Proof.Machine.execPhswpExecution engine s
  | .phdropExecution engine => Sys2Proof.Machine.execPhdropExecution engine s
  | .tcopyBpExecution engine => Sys2Proof.Machine.execTcopyBpExecution engine s
  | .tcopyAccExecution engine => Sys2Proof.Machine.execTcopyAccExecution engine s
  | .trimApply engine => Sys2Proof.Machine.execTrimApply engine s
  | .deckStateApply engine deck => Sys2Proof.Machine.execDeckStateApply engine deck s
  | .probeCalibration engine deck mebc nprobe => Sys2Proof.Machine.execProbeCalibration engine deck mebc nprobe s
  | .matSwitchTimeout engine lane => Sys2Proof.Machine.execMatSwitchTimeout engine lane s
  | .barrierEvent id => Sys2Proof.Machine.execBarrierEvent id s
  | .parentFlip id => Sys2Proof.Machine.execParentFlip id s
  | .groupExchangeRound group rank pay err wdn far => Sys2Proof.Machine.execGroupExchangeRound group rank pay err wdn far s
  | .groupWithdrawal group core => Sys2Proof.Machine.execGroupWithdrawal group core s
  | .collectiveStart group => Sys2Proof.Machine.execCollectiveStart group s
  | .collectiveComplete group far => Sys2Proof.Machine.execCollectiveComplete group far s
  | .collectiveDrainTimeout group core => Sys2Proof.Machine.execCollectiveDrainTimeout group core s
  | .packetArrival src seq body => Sys2Proof.Machine.execPacketArrival src seq body s
  | .packetAck id answer => Sys2Proof.Machine.execPacketAck id answer s
  | .packetRetry id => Sys2Proof.Machine.execPacketRetry id s
  | .packetLifetimeExpiry id => Sys2Proof.Machine.execPacketLifetimeExpiry id s
  | .deadTagExpiry n => Sys2Proof.Machine.execDeadTagExpiry n s
  | .circExecution core slot => Sys2Proof.Machine.execCircExecution core slot s
  | .setupRequest port phys farPort asid => Sys2Proof.Machine.execSetupRequest port phys farPort asid s
  | .setupAnswer port ack far => Sys2Proof.Machine.execSetupAnswer port ack far s
  | .setupBackoffExpiry port => Sys2Proof.Machine.execSetupBackoffExpiry port s
  | .circuitTrained port skew => Sys2Proof.Machine.execCircuitTrained port skew s
  | .teardownReceived port => Sys2Proof.Machine.execTeardownReceived port s
  | .circTExecution core slot => Sys2Proof.Machine.execCircTExecution core slot s
  | .famwrExecution core slot => Sys2Proof.Machine.execFamwrExecution core slot s
  | .drainMarkerAck core slot => Sys2Proof.Machine.execDrainMarkerAck core slot s
  | .pgateExecution core slot => Sys2Proof.Machine.execPgateExecution core slot s
  | .pwakeExecution core slot => Sys2Proof.Machine.execPwakeExecution core slot s
  | .laserLoss m => Sys2Proof.Machine.execLaserLoss m s
  | .laserRelight m => Sys2Proof.Machine.execLaserRelight m s
  | .tkillPurge n core => Sys2Proof.Machine.execTkillPurge n core s
  | .tkillComplete n => Sys2Proof.Machine.execTkillComplete n s
  | .jobSwitch v => Sys2Proof.Machine.execJobSwitch v s
  | .jobSwitchComplete => Sys2Proof.Machine.execJobSwitchComplete s
  | .launch v => Sys2Proof.Machine.execLaunch v s
  | .jobend v => Sys2Proof.Machine.execJobend v s
  | .activeMessageBlock page whole ep blocks => Sys2Proof.Machine.execActiveMessageBlock page whole ep blocks s
  | .memoryWindowWrite off ep bytes => Sys2Proof.Machine.execMemoryWindowWrite off ep bytes s
  | .memoryWindowRead off len => Sys2Proof.Machine.execMemoryWindowRead off len s
  | .semUnitOp id => Sys2Proof.Machine.execSemUnitOp id s
  | .semvalWrite n v => Sys2Proof.Machine.execSemvalWrite n v s
  | .semincWrite n v => Sys2Proof.Machine.execSemincWrite n v s
  | .msixUnmask vec => Sys2Proof.Machine.execMsixUnmask vec s
  | .checkpoint v => Sys2Proof.Machine.execCheckpoint v s
  | .checkpointComplete ok => Sys2Proof.Machine.execCheckpointComplete ok s
  | .packageReset => Sys2Proof.Machine.execPackageReset s
  | .pcieLinkTraining rate width => Sys2Proof.Machine.execPcieLinkTraining rate width s
  | .monitorSample deck temp samples => Sys2Proof.Machine.execMonitorSample deck temp samples s
  | .tempRecordTimer deck => Sys2Proof.Machine.execTempRecordTimer deck s
  | .ringWrite deck bank ring v => Sys2Proof.Machine.execRingWrite deck bank ring v s
  | .ringmoveWrite deck bank v => Sys2Proof.Machine.execRingmoveWrite deck bank v s
  | .ringMoveApply deck bank => Sys2Proof.Machine.execRingMoveApply deck bank s
  | .wearMove deck bank spare heater => Sys2Proof.Machine.execWearMove deck bank spare heater s
  | .deckctlWrite deck v => Sys2Proof.Machine.execDeckctlWrite deck v s
  | .powerAlert watts => Sys2Proof.Machine.execPowerAlert watts s
  | .thringWrite v => Sys2Proof.Machine.execThringWrite v s
  | .scrub deck code bad => Sys2Proof.Machine.execScrub deck code bad s
  | .bootgo v => Sys2Proof.Machine.execBootgo v s
  | .firmwareReady => Sys2Proof.Machine.execFirmwareReady s
  | .svnburn v => Sys2Proof.Machine.execSvnburn v s
  | .attestationGo v => Sys2Proof.Machine.execAttestationGo v s
  | .attestationDone => Sys2Proof.Machine.execAttestationDone s
  | .readClear off => Sys2Proof.Machine.execReadClear off s
  | .registerWrite off ep v => Sys2Proof.Machine.execRegisterWrite off ep v s
  | .illegalInstruction key => Sys2Proof.Machine.execIllegalInstruction key s
  | .instructionFetchFault key => Sys2Proof.Machine.execInstructionFetchFault key s
  | .laserModuleRelit m => Sys2Proof.Machine.execLaserModuleRelit m s

end Sys2Proof.Machine
end

