-- ==== Sys2Proof/Machine/Pending.lean ====
section
/-!
DEFINITION. The steps that the package can take on its own, found in its state, and the carrying out of one choice of the
schedule (log entry 2).
-/
namespace Sys2Proof.Machine

/-- Steps of a context: what its outstanding operations wait for, and ALIGN's release. -/
noncomputable def ctxSteps (key : Nat) (c : Ctx) : List Instr :=
  (c.pend.flatMap (fun p =>
    if p.route = .atomic then [.atomicReply key p.id]
    else if p.load then [.loadReply key p.id] else [.storeAck key p.id, .lateStoreFault key p.id])) ++
  (if c.waiting then [.alignRelease key] else [])
/-- Steps of a core: activations, forwarding, the store buffer, regions and handled atomics. -/
noncomputable def coreSteps (core : Nat) (c : Core) : List Instr :=
  [.channelSelection core, .spillActivation core, .replayActivation core, .atomicHandlerActivation core] ++
  (c.inbox.filter (fun x => x.msg.kind == 4 && !x.busy)).map (fun x => .builtinAtomic x.id) ++
  c.fwds.zipIdx.flatMap (fun f => .forwardingEntryExpiry core f.2 :: f.1.owed.map (fun p => .loadReply (core * 8 + f.1.ctx) p.id)) ++
  (List.range c.sb.length).map (fun n => .storeBufferDrain core n)
/-- The step that a packet within the package waits for. -/
noncomputable def flightStep (f : Flight) : Instr :=
  match f.body with
  | .rload _ _ _ _ => .remoteLoad f.id
  | .rstore _ _ _ _ => .remoteStore f.id
  | .atom _ _ _ _ _ _ _ => .builtinAtomic f.id
  | .held _ _ => .builtinAtomic f.id
  | .chanCtl _ _ _ _ _ => .channelControlPacket f.id
  | .barrier _ _ _ => .barrierEvent f.id
  | .bnote _ _ => .barrierEvent f.id
  | .flip _ _ _ _ _ _ _ => .parentFlip f.id
  | .sem _ _ _ => .semUnitOp f.id
/-- Steps of a child operation at its unit. -/
noncomputable def opSteps (k : Nat) (o : Op) : List Instr :=
  let core := k / 128
  let slot := k % 128
  if o.state = .running then
    [.opTerminal core slot, .cancelAtEngine core slot] ++ (if o.form.isCopy then [.copyChunk core slot] else []) ++
      (List.range o.beats.length).map (fun n => .copyBeat core slot n)
  else if o.state = .queued then
    match o.form with
    | .circ => [.circExecution core slot]
    | .circT => [.circTExecution core slot]
    | .famwr => [.famwrExecution core slot]
    | .pgate => [.pgateExecution core slot]
    | .pwake => [.pwakeExecution core slot]
    | f => if f.cls = 0 then [.copySchedule (clusterOf core)]
           else if f.cls = 1 then [.engineInboxEntry core slot, .migration o.unit.toNat core slot]
           else [.collectiveStart o.unit.toNat]
  else []
/-- Steps of an engine: its lanes, its boundary, its decks. -/
noncomputable def engineSteps (s : State) (e : Nat) : List Instr :=
  [.laneDispatch e 0, .laneDispatch e 1, .laneDispatch e 2, .mmxCompletion e, .phldExecution e, .phdecExecution e, .phresExecution e,
   .phswpExecution e, .phdropExecution e, .backBankLoad e, .tcopyBpExecution e, .tcopyAccExecution e, .matSwitchTimeout e 0,
   .matSwitchTimeout e 1, .trimApply e] ++
  (List.range 4).flatMap (fun d => .deckStateApply e d :: .tempRecordTimer (e * 4 + d) ::
    ((List.range 64).filter (fun b => (s.bank (bankKey (e * 4 + d) b)).pending)).map (fun b => .ringMoveApply (e * 4 + d) b))
/-- Steps of a group: its exchange, its collectives, its withdrawals. -/
noncomputable def groupSteps (s : State) (g : Nat) (x : Group) : List Instr :=
  [.collectiveStart g, .collectiveComplete g []] ++
  (x.members.zipIdx.filter (fun m => !m.1.far)).flatMap (fun (m : Member × Nat) => [.groupWithdrawal g m.1.core, .collectiveDrainTimeout g m.1.core] ++
    (match m.1.bar with
      | some k => [.groupExchangeRound g m.2 (s.bar k).pay (s.bar k).err (s.bar k).wdn none]
      | none => []))
/-- The steps without an encoding that may stand ready in the state: those that the package takes on its own. What the host,
another package or the environment brings is not among them; one that is not ready changes nothing. -/
noncomputable def candidates (s : State) : List Instr :=
  s.ctxs.flatMap (fun p => ctxSteps p.1 p.2) ++
  s.cores.flatMap (fun p => coreSteps p.1 p.2) ++
  (s.regions.filter (fun p => decide (p.2.reclaim ≠ 0))).map (fun p => .regionReclaim (p.1 / 32) (p.1 % 32)) ++
  s.mail.map (fun m => .messageArrival m.id) ++
  s.flights.map flightStep ++
  s.ops.flatMap (fun p => opSteps p.1 p.2) ++
  s.mem.l2q.map (fun e => .l2StoreAccept e.id) ++
  (List.range 16).flatMap (engineSteps s) ++
  s.groups.flatMap (fun p => groupSteps s p.1 p.2) ++
  s.fabric.retry.flatMap (fun r => [.packetRetry r.id, .packetLifetimeExpiry r.id]) ++
  (s.fabric.ports.filter (fun p => p.2.reason != 0 || (p.2.op.isSome && p.2.state != 3))).map (fun p => .setupBackoffExpiry p.1) ++
  (List.range s.deadTags.length).map (fun n => .deadTagExpiry n) ++
  s.kills.flatMap (fun k => .tkillComplete k.id :: k.todo.map (fun c => .tkillPurge k.id c)) ++
  (s.jobs.filter (fun j => !j.active)).map (fun j => .jobend (j.asid.setWidth 64)) ++
  s.mem.twt.map (fun p => .transientDeadline p.1) ++
  s.dev.folds.map (fun f => .rasFoldExpiry f.source f.unit) ++
  (if s.switch.isSome then [.jobSwitchComplete] else []) ++
  (if s.mem.xinv.isSome then [.xinvComplete] else []) ++
  (if s.mem.move.isSome then [.pageMoveCheck] else []) ++
  (if s.dev.attBusy then [.attestationDone] else []) ++
  (if s.dev.ckpt.isSome then [.checkpointComplete true] else [])

/-- One choice carried out: a core issues, cycles pass, or a step without an encoding happens. -/
noncomputable def perform (ex : Instr → State → Host.Outcome State Fault Refusal) (a : Action) (s : State) :
    Host.Outcome State Fault Refusal :=
  match a with
  | .issue core => issueFrom ex s (issueOrder s core)
  | .tick n => .next (elapse s n)
  | .event i => if i.isWord then .next s else ex i s

/-- The choice that the model makes when the environment has made none: an issue of the next core that holds an
activation, then a step that stands ready, in turn (log entry 2). -/
noncomputable def ownChoice (s : State) : Action :=
  let n := s.sched.turn / 2
  if s.sched.turn % 2 = 1 then
    let cores := ((s.ctxs.filter (fun p => decide (p.2.phase = .run))).map (fun p => coreOf p.1)).eraseDups
    match cores[n % cores.length]? with
    | some c => .issue c
    | none => .tick 1
  else
    let es := candidates s
    match es[n % es.length]? with
    | some i => .event i
    | none => .tick 1

/-- One step (log entry 2): the environment's next choice, or else the model's own, after which a cycle has passed. -/
noncomputable def takeStep (ex : Instr → State → Host.Outcome State Fault Refusal) (s : State) :
    Host.Outcome State Fault Refusal :=
  match s.sched.agenda with
  | a :: rest => perform ex a { s with sched := { s.sched with agenda := rest } }
  | [] => perform ex (ownChoice s) (elapse { s with sched := { s.sched with turn := s.sched.turn + 1 } } 1)

/-- A word placed for the next step (log entry 8). -/
def State.placeWord (s : State) (w : Nat) : State :=
  let c := s.ctx 0
  let s1 := s.setCtx 0 { c with
    phase := .run, pc := BitVec.ofNat 52 (spAddr 0 0), rpt := none, delay := none, waiting := false, deferred := []
    budgetLeft := if c.budgetLeft = 0 then 0xFFFFFFFF else c.budgetLeft
    waitLimit := if c.waitLimit = 0 then 0xFFFFFFFF else c.waitLimit }
  let s2 := s1.modCore 0 (fun x => { x with rr := 7 })
  let s3 := s2.modMem (fun m => { m with
    cells := memWrite m.cells (cellsAt (spAddr 0 0) (bytesOfWord (BitVec.ofNat 32 w))), poison := m.poison.filter (fun l => !(l == lineOf (spAddr 0 0))) })
  { s3 with sched := { s3.sched with agenda := .issue 0 :: s3.sched.agenda } }

end Sys2Proof.Machine
end

