-- ==== Sys2Proof/Machine/Step.lean ====
section
/-!
DEFINITION. One step of the package: the next choice of the schedule carried out (log entry 2), and the placing of one
instruction for the next step (log entry 8).
-/
namespace Sys2Proof.Machine

/-- One step of the package. -/
noncomputable def step (s : State) : Host.Outcome State Fault Refusal := takeStep exec s

/-- The state with an instruction stored where the next step fetches: service core 0.0.0 runs context 0 at the start of
its own scratchpad, and the environment lets it issue next (log entry 8). -/
def State.withFetchWord (s : State) (_nbits w : Nat) : State := s.placeWord w

end Sys2Proof.Machine
end

