-- ==== Sys2Proof/Safety.lean ====
section
/-!
DEFINITION. What counts as a safe step: the package always goes on (R341: every error is a trap, a status, a record or a
message), and its memory stays in canonical form.
-/
namespace Sys2Proof.Safety

open Sys2Proof.Machine

/-- A step that goes on. -/
def GoesOn (o : Host.Outcome State Fault Refusal) : Prop := ∃ s', o = .next s'

/-- A state whose memory is in canonical form. -/
def MemoryCanonical (s : State) : Prop := s.mem.wf = true

end Sys2Proof.Safety
end

