-- ==== Sys2Proof/Certificates/Slice0/Obligations.lean ====
section
/-!
DEFINITION. Statements for the provers: what each instruction of the opcode table does where it completes, what it leaves
as it was, where it traps, and what holds of the whole machine. `Sys2Proof.Claims` holds the words the statements are
written in.
-/

namespace Sys2Proof.Claims

open Sys2Proof.Machine

/-- Nothing but the context at work differs: no other context, no core, no table, no byte of memory, no device. -/
def OnlyMe (s t : State) : Prop :=
  t = { s with ctxs := t.ctxs } ∧ ∀ k, k ≠ s.sched.cur → t.ctx k = s.ctx k

/-- The instruction at work has ended in `t`, and nothing else has happened but that its context became `f` of itself. -/
def Ended (s t : State) (f : Ctx → Ctx) : Prop := OnlyMe s t ∧ t.me = advance (settled (f s.me))

/-- Both states hold the same byte at every address. -/
def SameMemory (s t : State) : Prop := ∀ a, memGet t.mem.cells a = memGet s.mem.cells a

/-- No line of this package's DRAM is held exclusively elsewhere and none has a transaction in progress, so that no read of one brings its
bytes back from another package (R205, R206). -/
def LinesHere (s : State) : Prop := ∀ l, (s.lmeta l).state ≤ 1 ∧ s.homeTrans l = none

/-- How long the context at work has waited as it begins or goes on with a wait of this kind: WAITLIMIT bounds a blocking wait alone, so
one of the other kind begins anew (R356). -/
def waitedIn (s : State) (blocking : Bool) : Nat := if s.me.waiting && (s.me.blocking == blocking) then s.me.waited else 0

/-! ### Integer results (R147 to R152) -/

/-- Bits [n-1:0] of an integer as a word. -/
def wordOf (x : Int) : Word := BitVec.ofInt 64 x
/-- 1 for a relation that holds, else 0. -/
def truth (p : Prop) [Decidable p] : Word := if p then 1 else 0
/-- The quotient and the remainder of R148, by its pseudocode. -/
def divided (signed : Bool) (x y : Word) : Word × Word :=
  let sx : Int := if signed then x.toInt else (x.toNat : Int)
  let sy : Int := if signed then y.toInt else (y.toNat : Int)
  if y = 0 then (wordOf (2 ^ 64 - 1), x)
  else if signed = true ∧ sx = -2 ^ 63 ∧ sy = -1 then (wordOf (-2 ^ 63), 0)
  else (wordOf (sx.tdiv sy), wordOf (sx - sx.tdiv sy * sy))
/-- The 64-bit word of a tag and an address (R46). -/
def tagged (p : Word) (va : Int) : Word := BitVec.ofNat 64 (p.toNat / 2 ^ 52 * 2 ^ 52 + (va % 2 ^ 52).toNat)
/-- x rotated right by k below 64 places: the bits shifted out at the bottom come in at the top. -/
def rotated (x : Word) (k : Nat) : Word := BitVec.ofNat 64 (x.toNat / 2 ^ k + x.toNat % 2 ^ k * 2 ^ (64 - k))

/-- The destination and the value that R147 to R152 give an integer instruction. -/
def intResult (i : Instr) (c : Ctx) : Option (Reg × Word) :=
  let x (r : Reg) := rdG c r
  let sx (r : Reg) : Int := (rdG c r).toInt
  let nx (r : Reg) : Nat := (rdG c r).toNat
  match i with
  | .add d a b => some (d, wordOf (sx a + sx b))
  | .sub d a b => some (d, wordOf (sx a - sx b))
  | .and d a b => some (d, x a &&& x b)
  | .or d a b => some (d, x a ||| x b)
  | .xor d a b => some (d, x a ^^^ x b)
  | .andn d a b => some (d, x a &&& ~~~(x b))
  | .nor d a b => some (d, ~~~(x a) &&& ~~~(x b))
  | .xnor d a b => some (d, x a ^^^ ~~~(x b))
  | .slt d a b => some (d, truth (sx a < sx b))
  | .sltn d a b => some (d, truth (nx a < nx b))
  | .min d a b => some (d, wordOf (min (sx a) (sx b)))
  | .max d a b => some (d, wordOf (max (sx a) (sx b)))
  | .minn d a b => some (d, BitVec.ofNat 64 (min (nx a) (nx b)))
  | .maxn d a b => some (d, BitVec.ofNat 64 (max (nx a) (nx b)))
  | .sll d a b => some (d, BitVec.ofNat 64 (nx a * 2 ^ (nx b % 64)))
  | .srl d a b => some (d, BitVec.ofNat 64 (nx a / 2 ^ (nx b % 64)))
  | .sra d a b => some (d, wordOf (sx a / 2 ^ (nx b % 64)))
  | .ror d a b => some (d, rotated (x a) (nx b % 64))
  | .mul d a b => some (d, wordOf (sx a * sx b))
  | .mulh d a b => some (d, wordOf (sx a * sx b / 2 ^ 64))
  | .mulhn d a b => some (d, BitVec.ofNat 64 (nx a * nx b / 2 ^ 64))
  | .div d a b => some (d, (divided true (x a) (x b)).1)
  | .divn d a b => some (d, (divided false (x a) (x b)).1)
  | .rem d a b => some (d, (divided true (x a) (x b)).2)
  | .remn d a b => some (d, (divided false (x a) (x b)).2)
  | .clz d a => some (d, BitVec.ofNat 64 (if nx a = 0 then 64 else 63 - Nat.log2 (nx a)))
  | .ctz d a => some (d, BitVec.ofNat 64 (((List.range 64).find? (fun i => (nx a).testBit i)).getD 64))
  | .popc d a => some (d, BitVec.ofNat 64 ((List.range 64).filter (fun i => (nx a).testBit i)).length)
  | .sxb d a => some (d, wordOf (Int.bmod (sx a) (2 ^ 8)))
  | .sxh d a => some (d, wordOf (Int.bmod (sx a) (2 ^ 16)))
  | .sxw d a => some (d, wordOf (Int.bmod (sx a) (2 ^ 32)))
  | .qrd d q => some (d, c.q[q.toNat]'q.isLt)
  | .addi d a k => some (d, wordOf (sx a + k.toInt))
  | .andi d a k => some (d, x a &&& BitVec.ofNat 64 k.toNat)
  | .ori d a k => some (d, x a ||| BitVec.ofNat 64 k.toNat)
  | .xori d a k => some (d, x a ^^^ BitVec.ofNat 64 k.toNat)
  | .slti d a k => some (d, truth (sx a < k.toInt))
  | .sltni d a k => some (d, truth (nx a < (wordOf k.toInt).toNat))
  | .muli d a k => some (d, wordOf (sx a * k.toInt))
  | .movi d k => some (d, wordOf k.toInt)
  | .movh d a k => some (d, BitVec.ofNat 64 (k.toNat * 2 ^ 32 + nx a % 2 ^ 32))
  | .addpi d a k => some (d, tagged (x a) (sx a + k.toInt))
  | .slli d a k => some (d, BitVec.ofNat 64 (nx a * 2 ^ k.toNat))
  | .srli d a k => some (d, BitVec.ofNat 64 (nx a / 2 ^ k.toNat))
  | .srai d a k => some (d, wordOf (sx a / 2 ^ k.toNat))
  | .rori d a k => some (d, rotated (x a) k.toNat)
  | .addp d a b => some (d, tagged (x a) (sx a + sx b))
  | .subp d a b => some (d, tagged (x a) (sx a - sx b))
  | .tagget d a => some (d, BitVec.ofNat 64 (nx a / 2 ^ 52))
  | .tagset d a b => some (d, BitVec.ofNat 64 (nx b % 2 ^ 12 * 2 ^ 52 + nx a % 2 ^ 52))
  | .pclr d a => some (d, BitVec.ofNat 64 (nx a % 2 ^ 52))
  | _ => none

end Sys2Proof.Claims

open Sys2Proof Sys2Proof.Machine Sys2Proof.Claims

/-- R147, R149 (QRD), R150, R151, R152 with R139: each writes the value of its pseudocode to its destination, a write to
g0 is discarded, and nothing but that register, the place and the settled wait of its own context changes. -/
def Obligations.IntegerInstructionsWriteTheirResult : Prop :=
  ∀ (i : Instr) (s : State) (d : Reg) (x : Word), intResult i s.me = some (d, x) →
    ∃ t, exec i s = .next t ∧ OnlyMe s t ∧ SameMemory s t ∧
      (∀ r, rdG t.me r = if r = d ∧ d ≠ 0 then x else rdG s.me r) ∧
      t.me = { advance (settled s.me) with g := t.me.g }

/-- R149: WWR writes one of w0 to w7 and WCLR clears all eight; neither writes a general register, and nothing outside the
context changes. -/
def Sys2Proof.Claims.MessageRegistersWritten : Prop :=
  (∀ (d : Fld3) (b : Reg) (s : State), ∃ t, exec (.wwr d b) s = .next t ∧ OnlyMe s t ∧ SameMemory s t ∧
      (∀ k : Fin 8, t.me.w[k] = if k.val = d.toNat then rdG s.me b else s.me.w[k]) ∧
      t.me = { advance (settled s.me) with w := t.me.w }) ∧
  (∀ s : State, ∃ t, exec .wclr s = .next t ∧ OnlyMe s t ∧ SameMemory s t ∧
      (∀ k : Fin 8, t.me.w[k] = 0) ∧ t.me = { advance (settled s.me) with w := t.me.w })

namespace Sys2Proof.Claims

open Sys2Proof.Machine

/-! ### Control (R37 to R43, R153, R154) -/

/-- The words from an address on, fetched one after another by the context at work. -/
def FetchedFrom (s : State) (p : BitVec 52) : List IWord → State → Prop
  | [], s' => s' = s
  | w :: ws, s' => ∃ s1, s.fetch s.sched.cur p = (s1, .ok w) ∧ FetchedFrom s1 (p + 4) ws s'

/-- The condition of a branch (R38), or a jump's certainty; the target; and the register that takes the link (R154). None
for a register jump whose target is misaligned (R29). -/
def controlForm (i : Instr) (c : Ctx) : Option (Bool × BitVec 52 × Option Reg) :=
  let p := ownAddr c
  let tgt (disp : Int) : BitVec 52 := p + BitVec.ofInt 52 (4 * disp)
  let x (r : Reg) : Int := (rdG c r).toInt
  let n (r : Reg) : Nat := (rdG c r).toNat
  match i with
  | .brEq a b d => some (decide (n a = n b), tgt d.toInt, none)
  | .brNe a b d => some (decide (n a ≠ n b), tgt d.toInt, none)
  | .brLt a b d => some (decide (x a < x b), tgt d.toInt, none)
  | .brGe a b d => some (decide (x b ≤ x a), tgt d.toInt, none)
  | .brLtn a b d => some (decide (n a < n b), tgt d.toInt, none)
  | .brGen a b d => some (decide (n b ≤ n a), tgt d.toInt, none)
  | .j d => some (true, tgt d.toInt, none)
  | .jl d => some (true, tgt d.toInt, some 31)
  | .jr a => if n a % 4 = 0 then some (true, BitVec.ofNat 52 (n a), none) else none
  | .jlr d a => if n a % 4 = 0 then some (true, BitVec.ofNat 52 (n a), some d) else none
  | _ => none

/-- The instruction is a branch or a jump. -/
def isControl : Instr → Bool
  | .brEq _ _ _ | .brNe _ _ _ | .brLt _ _ _ | .brGe _ _ _ | .brLtn _ _ _ | .brGen _ _ _ | .j _ | .jl _ | .jr _ | .jlr _ _ => true
  | _ => false

end Sys2Proof.Claims

/-- R38, R39, R154: a branch or jump whose two slots may stand there transfers after them: the next two words come first, and
then the target if it is taken, else the word after the slots. JL and JLR write the address of that word to their link
register at once. -/
def Sys2Proof.Claims.BranchesAndJumpsTransferAfterTwoSlots : Prop :=
  ∀ (i : Instr) (s s2 : State) (w1 w2 : IWord) (take : Bool) (dest : BitVec 52) (link : Option Reg),
    controlForm i s.me = some (take, dest, link) → FetchedFrom s (ownAddr s.me + 4) [w1, w2] s2 →
    slotBanned w1 = false → slotBanned w2 = false →
    ∃ t, exec i s = .next t ∧ OnlyMe s2 t ∧ SameMemory s2 t ∧
      t.me.delay = some { left := 2, dest := if take then dest else ownAddr s.me + 12 } ∧
      (∀ r, rdG t.me r = if some r = link ∧ r ≠ 0 then (ownAddr s.me + 12).setWidth 64 else rdG s.me r) ∧
      t.me = { advance (settled s.me) with g := t.me.g, delay := t.me.delay }

/-- R39, R40: with a forbidden word in either slot, every branch and every jump traps DELAYSLOT. -/
def Sys2Proof.Claims.ForbiddenDelaySlotTraps : Prop :=
  ∀ (i : Instr) (s s2 : State) (w1 w2 : IWord), isControl i = true → FetchedFrom s (ownAddr s.me + 4) [w1, w2] s2 →
    (slotBanned w1 = true ∨ slotBanned w2 = true) → exec i s = .next (trapNow s2 cDELAYSLOT)

/-- R41, R42: RPT captures its frame and replays it from its first word; a frame with a word outside the arithmetic class
traps RPTBODY and names that word's place. -/
def Sys2Proof.Claims.RptCapturesArithmeticFrame : Prop :=
  ∀ (n : BitVec 4) (c : BitVec 8) (sd sa sb : Fld3) (s s2 : State) (ws : List IWord),
    ws.length = n.toNat + 1 → FetchedFrom s (s.me.pc + 4) ws s2 →
    ((∀ w ∈ ws, arithClass w = true) →
      ∃ t, exec (.rpt n c sd sa sb) s = .next t ∧ OnlyMe s2 t ∧ SameMemory s2 t ∧
        t.me = { settled s.me with rpt := some { base := s.me.pc, frame := ws, count := c.toNat + 1, sd := sd.toInt,
                                                 sa := sa.toInt, sb := sb.toInt, iter := 0, slot := 0 } }) ∧
    (∀ k w, ws[k]? = some w → arithClass w = false → (∀ j v, j < k → ws[j]? = some v → arithClass v = true) →
      exec (.rpt n c sd sa sb) s =
        .next (s2.takeTrap s2.sched.cur { trapHere s2.me cRPTBODY 0 0 0 with rpt := some (0, BitVec.ofNat 4 k) }))

/-- R36, R39, R41: where control goes after an instruction: the next replayed word of an RPT frame, its next iteration,
the word after the frame; the target after the second delay slot; else the next word, which lies eight bytes on after EXT. -/
def Sys2Proof.Claims.PlaceAfterInstruction : Prop :=
  ∀ c : Ctx,
    (∀ r, c.rpt = some r → r.slot + 1 < r.frame.length →
      (advance c).rpt = some { r with slot := r.slot + 1 } ∧ (advance c).pc = c.pc) ∧
    (∀ r, c.rpt = some r → r.frame.length ≤ r.slot + 1 → r.iter + 1 < r.count →
      (advance c).rpt = some { r with slot := 0, iter := r.iter + 1 } ∧ (advance c).pc = c.pc) ∧
    (∀ r, c.rpt = some r → r.frame.length ≤ r.slot + 1 → r.count ≤ r.iter + 1 →
      (advance c).rpt = none ∧ (advance c).pc = r.base + BitVec.ofNat 52 (4 * (r.frame.length + 1))) ∧
    (∀ d, c.rpt = none → c.delay = some d → 1 < d.left →
      (advance c).pc = c.pc + c.ilen ∧ (advance c).delay = some { d with left := d.left - 1 }) ∧
    (∀ d, c.rpt = none → c.delay = some d → d.left ≤ 1 → (advance c).pc = d.dest ∧ (advance c).delay = none) ∧
    (c.rpt = none → c.delay = none → (advance c).pc = c.pc + c.ilen ∧ (advance c).delay = none) ∧
    (advance c).g = c.g ∧ (advance c).v = c.v ∧ (advance c).m = c.m ∧ (advance c).fflags = c.fflags

/-- R43, R193: WAITC ends at once when each of its four limits is 63 or is met by its counter, and otherwise waits at its
place, where a WAITLIMIT of zero makes it trap WAITTIME. -/
def Sys2Proof.Claims.WaitcWaitsForItsLimits : Prop :=
  ∀ (l st c t : BitVec 6) (s : State),
    let met (lim : BitVec 6) (n : Nat) : Prop := lim = 63 ∨ n ≤ lim.toNat
    ((met l s.me.ld ∧ met st s.me.st ∧ met c s.me.cp ∧ met t s.me.tl) →
      ∃ s', exec (.waitc l st c t) s = .next s' ∧ OnlyMe s s' ∧ SameMemory s s' ∧ s'.me = advance (settled s.me)) ∧
    (¬(met l s.me.ld ∧ met st s.me.st ∧ met c s.me.cp ∧ met t s.me.tl) → s.me.waitLimit ≠ 0 →
      ∃ s', exec (.waitc l st c t) s = .next s' ∧ OnlyMe s s' ∧
        s'.me = { s.me with waiting := true, blocking := true, await := .nothing, awaitTok := 0
                            waited := if s.me.waiting && s.me.blocking then s.me.waited else 0 }) ∧
    (¬(met l s.me.ld ∧ met st s.me.st ∧ met c s.me.cp ∧ met t s.me.tl) → s.me.waitLimit = 0 →
      exec (.waitc l st c t) s = .next (s.takeTrap s.sched.cur (trapHere s.me cWAITTIME 0 0 0)))

namespace Sys2Proof.Claims

open Sys2Proof.Machine

/-- The destination and the value of a word of the FI majors under EXT, with its 42-bit composite (R32, R34, R150). None for
another major, for MOVI with an a field, and for MOVH with composite bits above 31. -/
def extResult (w : IWord) (k : BitVec 42) (c : Ctx) : Option (Reg × Word) :=
  let a := fA w
  let x := rdG c a
  let sx : Int := x.toInt
  let u : Nat := k.toNat
  let some' (v : Word) : Option (Reg × Word) := some (fD w, v)
  match (fMajor w).toNat with
  | 0x02 => some' (wordOf (sx + k.toInt))
  | 0x03 => some' (x &&& BitVec.ofNat 64 u)
  | 0x04 => some' (x ||| BitVec.ofNat 64 u)
  | 0x05 => some' (x ^^^ BitVec.ofNat 64 u)
  | 0x06 => some' (truth (sx < k.toInt))
  | 0x07 => some' (truth (x.toNat < (wordOf k.toInt).toNat))
  | 0x09 => some' (wordOf (sx * k.toInt))
  | 0x0A => if a = 0 then some' (wordOf k.toInt) else none
  | 0x0B => if u < 2 ^ 32 then some' (BitVec.ofNat 64 (u * 2 ^ 32 + x.toNat % 2 ^ 32)) else none
  | 0x0D => some' (tagged x (sx + k.toInt))
  | _ => none

end Sys2Proof.Claims

/-- R34, R36, R150: EXT and the immediate word after it execute as one instruction of eight bytes with the 42-bit composite. -/
def Sys2Proof.Claims.ExtExecutesCompositeImmediate : Prop :=
  ∀ (i : BitVec 26) (s s1 : State) (w : IWord) (d : Reg) (x : Word), s.me.ext = none →
    s.fetch s.sched.cur (s.me.pc + 4) = (s1, .ok w) → extResult w (i ++ fImm w) s.me = some (d, x) →
    ∃ t, exec (.ext i) s = .next t ∧ OnlyMe s1 t ∧ SameMemory s1 t ∧
      (∀ r, rdG t.me r = if r = d ∧ d ≠ 0 then x else rdG s.me r) ∧
      t.me = { advance (settled { s.me with ext := some i, ir := w, ilen := 8 }) with g := t.me.g }

/-- R35, R36: EXT before a word that takes no composite traps ILLEGAL at EXT; a word that cannot be fetched traps with that
fault at EXT's address, naming the word's own. -/
def Sys2Proof.Claims.ExtTraps : Prop :=
  ∀ (i : BitVec 26) (s s1 : State), s.me.ext = none →
    (∀ w, s.fetch s.sched.cur (s.me.pc + 4) = (s1, .ok w) → extEligible w = false →
      exec (.ext i) s = .next (trapNow s1 cILLEGAL)) ∧
    (∀ c, s.fetch s.sched.cur (s.me.pc + 4) = (s1, .error c) →
      exec (.ext i) s = .next (trapFetch s1 s.me.pc (s.me.pc + 4) c))

namespace Sys2Proof.Claims

open Sys2Proof.Machine

/-! ### Scalar floating point (R115 to R119, R142, R155 to R158) -/

/-- The destination, the pattern, the flags and the generator that R156 to R158 give a scalar floating instruction. -/
def sfpResult (i : Instr) (c : Ctx) : Option (Reg × Word × BitVec 5 × Word) :=
  let mode (r : Fld3) : Nat := if r.toNat = 5 then c.frm.toNat else r.toNat
  let val (t : Fld3) (r : Reg) : FVal := unpack (fmtOf t.toNat) (rdG c r).toNat
  let bits (r : Reg) : Nat := (rdG c r).toNat
  let rounded (d : Reg) (t r : Fld3) (x : FVal × BitVec 5) : Option (Reg × Word × BitVec 5 × Word) :=
    let (v, f, sd) := drawRound (fmtOf t.toNat) (mode r) c.seed x.1
    some (d, BitVec.ofNat 64 v, x.2 ||| f, sd)
  let exact (d : Reg) (x : Nat × BitVec 5) : Option (Reg × Word × BitVec 5 × Word) := some (d, BitVec.ofNat 64 x.1, x.2, c.seed)
  let truth (d : Reg) (x : Bool × BitVec 5) : Option (Reg × Word × BitVec 5 × Word) := some (d, if x.1 then 1 else 0, x.2, c.seed)
  let integer (d : Reg) (t r : Fld3) (a : Reg) (lo hi : Int) : Option (Reg × Word × BitVec 5 × Word) :=
    let (v, f, sd) := drawInt lo hi (mode r) c.seed (val t a)
    some (d, wordOf v, f, sd)
  match i with
  | .fadd d a b t r => rounded d t r (sumExact (mode r) [val t a, val t b])
  | .fsub d a b t r => rounded d t r (sumExact (mode r) [val t a, (val t b).flip])
  | .fmul d a b t r => rounded d t r (mulExact (val t a) (val t b))
  | .fdiv d a b t r => rounded d t r (divExact (val t a) (val t b))
  | .fsqrt d a t r => rounded d t r (sqrtExact (val t a))
  | .fma d a b t r => rounded d t r (fmaExact (mode r) (val t a) (val t b) (val t d))
  | .fmin d a b t => exact d (minMax (fmtOf t.toNat) false (bits a) (bits b))
  | .fmax d a b t => exact d (minMax (fmtOf t.toNat) true (bits a) (bits b))
  | .fceq d a b t => truth d (cmpEq (val t a) (val t b))
  | .fclt d a b t => truth d (cmpLt (val t a) (val t b))
  | .fcle d a b t => truth d (cmpLe (val t a) (val t b))
  | .fabs d a t => exact d (absBits (fmtOf t.toNat) (bits a))
  | .fneg d a t => exact d (negBits (fmtOf t.toNat) (bits a))
  | .fclass d a t => exact d (2 ^ classBit (fmtOf t.toNat) (bits a), 0)
  | .ftoi d a t r => integer d t r a (-2 ^ 63) (2 ^ 63 - 1)
  | .fton d a t r => integer d t r a 0 (2 ^ 64 - 1)
  | .itof d a t r => rounded d t r (FVal.ofInt (rdG c a).toInt, 0)
  | .ntof d a t r => rounded d t r (FVal.ofInt ((rdG c a).toNat : Int), 0)
  | .fcvt d a u t r => rounded d t r (val u a, 0)
  | _ => none

end Sys2Proof.Claims

/-- R117, R119, R142, R156 to R158: each scalar floating instruction writes the rounded result to its destination, ORs its
flags into FFLAGS, leaves the generator where its draws left it, and changes nothing else. -/
def Obligations.ScalarFloatingWritesResultAndFlags : Prop :=
  ∀ (i : Instr) (s : State) (d : Reg) (x : Word) (f : BitVec 5) (sd : Word), sfpResult i s.me = some (d, x, f, sd) →
    ∃ t, exec i s = .next t ∧ OnlyMe s t ∧ SameMemory s t ∧
      (∀ r, rdG t.me r = if r = d ∧ d ≠ 0 then x else rdG s.me r) ∧ t.me.fflags = s.me.fflags ||| f ∧ t.me.seed = sd ∧
      t.me = { advance (settled s.me) with g := t.me.g, fflags := t.me.fflags, seed := t.me.seed }

/-- R29, R154: a register jump to an address that is no multiple of 4 traps MISALIGN once its slots have passed their check. -/
def Sys2Proof.Claims.MisalignedJumpTargetTraps : Prop :=
  ∀ (d a : Reg) (s s2 : State) (w1 w2 : IWord), FetchedFrom s (ownAddr s.me + 4) [w1, w2] s2 →
    slotBanned w1 = false → slotBanned w2 = false → (rdG s.me a).toNat % 4 ≠ 0 →
    exec (.jr a) s = .next (trapAt s2 cMISALIGN (BitVec.ofNat 64 ((rdG s.me a).toNat % 2 ^ 52))) ∧
    exec (.jlr d a) s = .next (trapAt s2 cMISALIGN (BitVec.ofNat 64 ((rdG s.me a).toNat % 2 ^ 52)))

namespace Sys2Proof.Claims

open Sys2Proof.Machine

/-! ### Vectors (R57, R139 to R141, R159 to R168) -/

/-- `t` is `s` after an instruction that wrote vector register d lane by lane: active lanes of a type hold f, inactive lanes
what they held, and of the rest of its context only FFLAGS and the generator may differ. -/
def VectorWritten (s t : State) (d : Reg) (mask : Word) (ty : Nat) (f : Nat → Nat) : Prop :=
  OnlyMe s t ∧ SameMemory s t ∧
  (∀ k, k < laneCount ty → lane (rdV t.me d) (laneBits ty) k =
    if mask.getLsbD k then f k else lane (rdV s.me d) (laneBits ty) k) ∧
  (∀ r, r ≠ d → rdV t.me r = rdV s.me r) ∧
  t.me = { advance (settled s.me) with v := t.me.v, fflags := t.me.fflags, seed := t.me.seed }

/-- The destination, the mask, the type and each active lane that R160 to R163 and R167 give an instruction that neither
rounds nor raises a flag. -/
def vectorLanes (i : Instr) (c : Ctx) : Option (Reg × Word × Nat × (Nat → Nat)) :=
  let w (t : Fld3) : Nat := laneBits t.toNat
  let L (t : Fld3) : Nat := laneCount t.toNat
  let n (t : Fld3) (r : Reg) (k : Nat) : Nat := lane (rdV c r) (w t) k
  let x (t : Fld3) (r : Reg) (k : Nat) : Int := signedOf (w t) (n t r k)
  let low (t : Fld3) (v : Int) : Nat := (v % 2 ^ w t).toNat
  let hi (t : Fld3) : Int := 2 ^ (w t - 1) - 1
  let lo (t : Fld3) : Int := -2 ^ (w t - 1)
  let whole (d : Reg) (m t : Fld3) (f : Nat → Int) : Option (Reg × Word × Nat × (Nat → Nat)) :=
    if 4 ≤ t.toNat then some (d, rdM c m, t.toNat, fun k => low t (f k)) else none
  let bits (d : Reg) (m t : Fld3) (f : Nat → Nat) : Option (Reg × Word × Nat × (Nat → Nat)) := some (d, rdM c m, t.toNat, f)
  match i with
  | .vadd d a b m t => whole d m t (fun k => x t a k + x t b k)
  | .vsub d a b m t => whole d m t (fun k => x t a k - x t b k)
  | .vmul d a b m t => whole d m t (fun k => x t a k * x t b k)
  | .vmin d a b m t => whole d m t (fun k => min (x t a k) (x t b k))
  | .vmax d a b m t => whole d m t (fun k => max (x t a k) (x t b k))
  | .vabs d a m t => whole d m t (fun k => (x t a k).natAbs)
  | .vneg d a m t => whole d m t (fun k => -x t a k)
  | .vminn d a b m t => bits d m t (fun k => min (n t a k) (n t b k))
  | .vmaxn d a b m t => bits d m t (fun k => max (n t a k) (n t b k))
  | .vadds d a b m t => bits d m t (fun k => low t (max (lo t) (min (hi t) (x t a k + x t b k))))
  | .vsubs d a b m t => bits d m t (fun k => low t (max (lo t) (min (hi t) (x t a k - x t b k))))
  | .vaddsn d a b m t => bits d m t (fun k => min (2 ^ w t - 1) (n t a k + n t b k))
  | .vsubsn d a b m t => bits d m t (fun k => n t a k - n t b k)
  | .vand d a b m t => bits d m t (fun k => n t a k &&& n t b k)
  | .vor d a b m t => bits d m t (fun k => n t a k ||| n t b k)
  | .vxor d a b m t => bits d m t (fun k => n t a k ^^^ n t b k)
  | .vsll d a b m t => bits d m t (fun k => n t a k * 2 ^ (n t b k % w t) % 2 ^ w t)
  | .vsrl d a b m t => bits d m t (fun k => n t a k / 2 ^ (n t b k % w t))
  | .vsra d a b m t => bits d m t (fun k => low t (x t a k / 2 ^ (n t b k % w t)))
  | .vmov d a m t => bits d m t (n t a)
  | .vsplat d a m t => bits d m t (fun _ => (rdG c a).toNat % 2 ^ (if t.toNat = 3 then 19 else w t))
  | .vmac d a b m t => bits d m t (fun k => (n t d k + n t a k * n t b k) % 2 ^ w t)
  | .vsel d a b m t => some (d, BitVec.allOnes 64, t.toNat, fun k => if (rdM c m).getLsbD k then n t a k else n t b k)
  | .vperm d a b m t => bits d m t (fun k => n t a (n t b k % L t))
  | .vzip d a b m t => bits d m t (fun k => if k % 2 = 0 then n t a (k / 2) else n t b (k / 2))
  | .vunzip d a b m t => bits d m t (fun k => if k < L t / 2 then n t a (2 * k) else n t b (2 * (k - L t / 2)))
  | .vrotl d a b m t => bits d m t (fun k => n t a (((k : Int) - (rdG c b).toNat) % L t).toNat)
  | .vins d a b t => some (d, BitVec.allOnes 64, t.toNat, fun k =>
      if k = (rdG c b).toNat % L t then (rdG c a).toNat % 2 ^ (if t.toNat = 3 then 19 else w t) else n t d k)
  | .vdot d a b m t => if t.toNat = 5 ∨ t.toNat = 6 then
      some (d, rdM c m, 4, fun j => ((signedOf 32 (lane (rdV c d) 32 j) +
        ((List.range (32 / w t)).map (fun e => x t a (j * (32 / w t) + e) * x t b (j * (32 / w t) + e))).sum) % 2 ^ 32).toNat)
      else none
  | _ => none

/-- The destination, the mask, the type, and each active lane with the flags it raises, that R117, R141, R160, R161, R165 and
R167 give a floating lane operation when no lane draws: FRM is not SR, and so is the instruction's own rounding code. -/
def roundedLanes (i : Instr) (c : Ctx) (core : Core) : Option (Reg × Word × Nat × (Nat → Nat × BitVec 5)) :=
  let fl (t : Fld3) (r : Reg) (k : Nat) : FVal := unpack (fmtOf t.toNat) (lane (rdV c r) (laneBits t.toNat) k)
  let fr := c.frm.toNat
  let go (d : Reg) (m t : Fld3) (f : Nat → FVal × BitVec 5) : Option (Reg × Word × Nat × (Nat → Nat × BitVec 5)) :=
    if t.toNat < 4 ∧ fr ≠ 4 then
      some (d, rdM c m, t.toNat, fun k => ((roundTo (fmtOf t.toNat) fr 0 (f k).1).1, (f k).2 ||| (roundTo (fmtOf t.toNat) fr 0 (f k).1).2))
    else none
  let bits (d : Reg) (m t : Fld3) (f : Nat → Nat × BitVec 5) : Option (Reg × Word × Nat × (Nat → Nat × BitVec 5)) :=
    if t.toNat < 4 then some (d, rdM c m, t.toNat, f) else none
  let pat (t : Fld3) (r : Reg) (k : Nat) : Nat := lane (rdV c r) (laneBits t.toNat) k
  match i with
  | .vadd d a b m t => go d m t (fun k => sumExact fr [fl t a k, fl t b k])
  | .vsub d a b m t => go d m t (fun k => sumExact fr [fl t a k, (fl t b k).flip])
  | .vmul d a b m t => go d m t (fun k => mulExact (fl t a k) (fl t b k))
  | .vdiv d a b m t => go d m t (fun k => divExact (fl t a k) (fl t b k))
  | .vsqrt d a m t => go d m t (fun k => sqrtExact (fl t a k))
  | .vfma d a b m t => go d m t (fun k => fmaExact fr (fl t a k) (fl t b k) (fl t d k))
  | .vfms d a b m t => go d m t (fun k => fmaExact fr (fl t a k) (fl t b k) (fl t d k).flip)
  | .vfnma d a b m t => go d m t (fun k => fmaExact fr (fl t a k).flip (fl t b k) (fl t d k))
  | .vfnms d a b m t => go d m t (fun k => fmaExact fr (fl t a k).flip (fl t b k) (fl t d k).flip)
  | .vmin d a b m t => bits d m t (fun k => minMax (fmtOf t.toNat) false (pat t a k) (pat t b k))
  | .vmax d a b m t => bits d m t (fun k => minMax (fmtOf t.toNat) true (pat t a k) (pat t b k))
  | .vabs d a m t => bits d m t (fun k => absBits (fmtOf t.toNat) (pat t a k))
  | .vneg d a m t => bits d m t (fun k => negBits (fmtOf t.toNat) (pat t a k))
  | .vcvt d a ts m td r =>
    let mode := if r.toNat = 5 then fr else r.toNat
    let N := min (laneCount ts.toNat) (laneCount td.toNat)
    if ts.toNat < 4 ∧ td.toNat < 4 ∧ mode ≠ 4 then
      some (d, rdM c m ||| BitVec.ofNat 64 (2 ^ 64 - 2 ^ N), td.toNat, fun k =>
        if k < N then roundTo (fmtOf td.toNat) mode 0 (fl ts a k) else (0, 0))
    else none
  | .vcvts d a ts m td _ =>
    let N := min (laneCount ts.toNat) (laneCount td.toNat)
    let wd := laneBits td.toNat
    if 4 ≤ ts.toNat ∧ ts.toNat ≤ 6 ∧ 4 ≤ td.toNat ∧ td.toNat ≤ 6 then
      some (d, rdM c m ||| BitVec.ofNat 64 (2 ^ 64 - 2 ^ N), td.toNat, fun k =>
        let x := signedOf (laneBits ts.toNat) (pat ts a k)
        let y := max (-2 ^ (wd - 1)) (min (2 ^ (wd - 1) - 1) x)
        if k < N then ((y % 2 ^ wd).toNat, if y = x then 0 else fNV) else (0, 0))
    else none
  | .vdqnt d a ix m t r =>
    let mode := if r.toNat = 5 then fr else r.toNat
    let e := core.ftEntry ix.toNat
    if t.toNat < 4 ∧ mode ≠ 4 ∧ qntRefused e (laneCount t.toNat) = false then
      some (d, rdM c m, t.toNat, fun k =>
        let v := codeValue core.dt core.dmode (ftKind e) (ftW e) ((rdV c a).toNat / 2 ^ (k * ftW e) % 2 ^ ftW e)
        roundTo (fmtOf t.toNat) mode 0 (if ftBlog e = 0 then v
          else scaled v ((rdV c a).toNat / 2 ^ (256 + 8 * (k / 2 ^ ftBlog e)) % 2 ^ 8)))
    else none
  | _ => none

/-- The code that R131 gives a value, and its flags: the entry at the least distance, the least even one among several. -/
def t8Code (dt : List (BitVec 19)) (mirrored : Bool) (x0 : FVal) : Nat × BitVec 5 :=
  let x := if x0.isNan then FVal.fin false 0 0 else x0
  let n := if mirrored then 128 else 256
  let entry (k : Nat) : FVal := unpack (fmtOf 3) (dt.getD k 0).toNat
  let base := if mirrored = true ∧ x.neg = true then 128 else 0
  let v0 := if mirrored then x.abs else x
  let v := if v0.isInf then (if v0.neg then entry 0 else entry (n - 1)) else v0
  let q := min v.unit (-136)
  let dist (k : Nat) : Nat := ((entry k).units q - v.units q).natAbs
  let nearest := (List.range n).filter (fun k => (List.range n).all (fun j => decide (dist k ≤ dist j)))
  let code := base + ((nearest.find? (fun k => k % 2 == 0)).getD (nearest.headD 0))
  (code, (if x0.isNan ∨ x.isInf then fNV else 0) ||| (if valEq (unpack (fmtOf 3) (dtPattern dt mirrored code).toNat) x then 0 else fNX))

/-- The destination, the mask, the type, how many lanes have a source, whether each active one draws, and what each is and raises with
the number it drew, as R119, R123, R131, R160, R161, R165, R166 and R167 give them under any rounding mode. -/
def drawnLanes (i : Instr) (c : Ctx) (core : Core) : Option (Reg × Word × Nat × Nat × Bool × (Nat → Nat → Nat × BitVec 5)) :=
  let pat (t : Fld3) (r : Reg) (k : Nat) : Nat := lane (rdV c r) (laneBits t.toNat) k
  let fl (t : Fld3) (r : Reg) (k : Nat) : FVal := unpack (fmtOf t.toNat) (pat t r k)
  let val (t : Fld3) (r : Reg) (k : Nat) : FVal :=
    if t.toNat < 4 then fl t r k
    else if t.toNat = 7 then unpack (fmtOf 3) (dtPattern core.dt core.dmode (pat t r k)).toNat
    else FVal.ofInt (signedOf (laneBits t.toNat) (pat t r k))
  let fr := c.frm.toNat
  let rounded (d : Reg) (m : Fld3) (ty n mode : Nat) (x : Nat → FVal × BitVec 5) :=
    some (d, rdM c m, ty, n, mode == 4, fun k r => ((roundTo (fmtOf ty) mode r (x k).1).1, (x k).2 ||| (roundTo (fmtOf ty) mode r (x k).1).2))
  let go (d : Reg) (m t : Fld3) (x : Nat → FVal × BitVec 5) := if t.toNat < 4 then rounded d m t.toNat (laneCount t.toNat) fr x else none
  let convert (d a : Reg) (ts m td r : Fld3) (saturate : Bool) :=
    let mode := if r.toNat = 5 then fr else r.toNat
    let n := min (laneCount ts.toNat) (laneCount td.toNat)
    let w := laneBits td.toNat
    let lo : Int := -2 ^ (w - 1)
    let hi : Int := 2 ^ (w - 1) - 1
    let x (k : Nat) : Int := signedOf (laneBits ts.toNat) (pat ts a k)
    let whole (t : Fld3) : Bool := decide (4 ≤ t.toNat) && decide (t.toNat ≤ 6)
    if td.toNat < 4 then rounded d m td.toNat n mode (fun k => (val ts a k, 0))
    else if td.toNat = 7 then
      if core.dt.length = 256 ∧ dtOrdered core.dt core.dmode = true then
        some (d, rdM c m, 7, n, false, fun k _ => t8Code core.dt core.dmode (val ts a k))
      else none
    else if whole ts then
      some (d, rdM c m, td.toNat, n, false, fun k _ => if saturate then
        (((max lo (min hi (x k))) % 2 ^ w).toNat, if lo ≤ x k ∧ x k ≤ hi then 0 else fNV) else ((x k % 2 ^ w).toNat, 0))
    else some (d, rdM c m, td.toNat, n, mode == 4, fun k r => (((intConv lo hi mode r (val ts a k)).1 % 2 ^ w).toNat, (intConv lo hi mode r (val ts a k)).2))
  match i with
  | .vadd d a b m t => go d m t (fun k => sumExact fr [fl t a k, fl t b k])
  | .vsub d a b m t => go d m t (fun k => sumExact fr [fl t a k, (fl t b k).flip])
  | .vmul d a b m t => go d m t (fun k => mulExact (fl t a k) (fl t b k))
  | .vdiv d a b m t => go d m t (fun k => divExact (fl t a k) (fl t b k))
  | .vsqrt d a m t => go d m t (fun k => sqrtExact (fl t a k))
  | .vfma d a b m t => go d m t (fun k => fmaExact fr (fl t a k) (fl t b k) (fl t d k))
  | .vfms d a b m t => go d m t (fun k => fmaExact fr (fl t a k) (fl t b k) (fl t d k).flip)
  | .vfnma d a b m t => go d m t (fun k => fmaExact fr (fl t a k).flip (fl t b k) (fl t d k))
  | .vfnms d a b m t => go d m t (fun k => fmaExact fr (fl t a k).flip (fl t b k) (fl t d k).flip)
  | .vcvt d a ts m td r => convert d a ts m td r false
  | .vcvts d a ts m td r => convert d a ts m td r true
  | .vdqnt d a ix m t r =>
    let e := core.ftEntry ix.toNat
    if t.toNat < 4 ∧ qntRefused e (laneCount t.toNat) = false then
      rounded d m t.toNat (laneCount t.toNat) (if r.toNat = 5 then fr else r.toNat) (fun k =>
        let v := codeValue core.dt core.dmode (ftKind e) (ftW e) ((rdV c a).toNat / 2 ^ (k * ftW e) % 2 ^ ftW e)
        (if ftBlog e = 0 then v else scaled v ((rdV c a).toNat / 2 ^ (256 + 8 * (k / 2 ^ ftBlog e)) % 2 ^ 8), 0))
    else none
  | .vdot d a b m t =>
    let n := 32 / laneBits t.toNat
    let products (j : Nat) := (List.range n).map (fun e => mulExact (val t a (j * n + e)) (val t b (j * n + e)))
    if t.toNat ≠ 5 ∧ t.toNat ≠ 6 then rounded d m 0 16 fr (fun j =>
      let sum := sumExact fr (unpack (fmtOf 0) (lane (rdV c d) 32 j) :: (products j).map (·.1))
      (sum.1, (products j).foldl (fun f p => f ||| p.2) sum.2))
    else none
  | _ => none

/-- The generator after so many draws (R119). -/
def drawn (seed : Word) (n : Nat) : Word := Nat.repeat (fun s => (sr s).1) n seed

end Sys2Proof.Claims

/-- R119, R123, R131, R141, R165, R167: under every rounding mode each active lane of a floating lane operation, a conversion between any two
types or a floating VDOT is what its rule gives with the number that it drew: under SR the active lanes draw in increasing lane order, one
each where the rule draws. Lanes without a source are zero, inactive lanes stay, and FFLAGS gains the flags of the active lanes. -/
def Sys2Proof.Claims.VectorLanesUnderEveryMode : Prop :=
  ∀ (i : Instr) (s : State) (d : Reg) (mask : Word) (ty n : Nat) (draws : Bool) (f : Nat → Nat → Nat × BitVec 5),
    drawnLanes i s.me (s.core s.myCore) = some (d, mask, ty, n, draws, f) →
    let before (k : Nat) : Nat := if draws then ((List.range (min k n)).filter (fun j => mask.getLsbD j)).length else 0
    let out (k : Nat) : Nat × BitVec 5 := if n ≤ k then (0, 0) else f k (if draws then (sr (drawn s.me.seed (before k))).2 else 0)
    ∃ t, exec i s = .next t ∧ VectorWritten s t d (mask ||| BitVec.ofNat 64 (2 ^ 64 - 2 ^ n)) ty (fun k => (out k).1) ∧
      t.me.seed = drawn s.me.seed (before n) ∧
      ∀ b, t.me.fflags.getLsbD b = true ↔
        (s.me.fflags.getLsbD b = true ∨ ∃ k, k < n ∧ mask.getLsbD k = true ∧ (out k).2.getLsbD b = true)

/-- R141, R160, R161, R162 (VSEL), R163, R167: the integer and whole-container lane operations write each active lane as their
pseudocode says, keep each inactive lane, and raise no flag. -/
def Sys2Proof.Claims.VectorIntegerLanesWritten : Prop :=
  ∀ (i : Instr) (s : State) (d : Reg) (mask : Word) (ty : Nat) (f : Nat → Nat), vectorLanes i s.me = some (d, mask, ty, f) →
    ∃ t, exec i s = .next t ∧ VectorWritten s t d mask ty f ∧ t.me.fflags = s.me.fflags ∧ t.me.seed = s.me.seed

/-- R116, R117, R121, R141, R160, R161, R165, R166: each active lane of a floating lane operation that draws nothing is its exact
result rounded under the mode, each inactive lane is kept, and the flags of the active lanes alone are ORed into FFLAGS. -/
def Sys2Proof.Claims.VectorFloatingLanesRounded : Prop :=
  ∀ (i : Instr) (s : State) (d : Reg) (mask : Word) (ty : Nat) (f : Nat → Nat × BitVec 5),
    roundedLanes i s.me (s.core s.myCore) = some (d, mask, ty, f) →
    ∃ t, exec i s = .next t ∧ VectorWritten s t d mask ty (fun k => (f k).1) ∧ t.me.seed = s.me.seed ∧
      ∀ b, t.me.fflags.getLsbD b = true ↔
        (s.me.fflags.getLsbD b = true ∨ ∃ k, k < laneCount ty ∧ mask.getLsbD k = true ∧ (f k).2.getLsbD b = true)

namespace Sys2Proof.Claims

open Sys2Proof.Machine

/-- The mask destination and each bit that R162 gives a compare or a mask operation, with the flags. -/
def maskResult (i : Instr) (c : Ctx) : Option (Fld3 × (Nat → Bool) × (Nat → Bool)) :=
  let n (t : Fld3) (r : Reg) (k : Nat) : Nat := lane (rdV c r) (laneBits t.toNat) k
  let x (t : Fld3) (r : Reg) (k : Nat) : Int := signedOf (laneBits t.toNat) (n t r k)
  let fl (t : Fld3) (r : Reg) (k : Nat) : FVal := unpack (fmtOf t.toNat) (n t r k)
  let cmp (d : Fld3) (m t : Fld3) (f : Nat → Bool × BitVec 5) (g : Nat → Bool) : Option (Fld3 × (Nat → Bool) × (Nat → Bool)) :=
    let act (k : Nat) : Bool := decide (k < laneCount t.toNat) && (rdM c m).getLsbD k
    some (d, fun k => act k && (if t.toNat < 4 then (f k).1 else g k),
      fun b => decide (t.toNat < 4) && (List.range 64).any (fun k => act k && (f k).2.getLsbD b))
  let mop (d : Fld3) (f : Nat → Bool) : Option (Fld3 × (Nat → Bool) × (Nat → Bool)) := some (d, f, fun _ => false)
  match i with
  | .vceq d a b m t => cmp d m t (fun k => cmpEq (fl t a k) (fl t b k)) (fun k => decide (n t a k = n t b k))
  | .vcne d a b m t => cmp d m t (fun k => (!(cmpEq (fl t a k) (fl t b k)).1, (cmpEq (fl t a k) (fl t b k)).2)) (fun k => decide (n t a k ≠ n t b k))
  | .vclt d a b m t => cmp d m t (fun k => cmpLt (fl t a k) (fl t b k)) (fun k => decide (x t a k < x t b k))
  | .vcle d a b m t => cmp d m t (fun k => cmpLe (fl t a k) (fl t b k)) (fun k => decide (x t a k ≤ x t b k))
  | .vcltn d a b m t => cmp d m t (fun k => cmpLt (fl t a k) (fl t b k)) (fun k => decide (n t a k < n t b k))
  | .vclen d a b m t => cmp d m t (fun k => cmpLe (fl t a k) (fl t b k)) (fun k => decide (n t a k ≤ n t b k))
  | .vcun d a b m t => cmp d m t (fun k => cmpUn (fl t a k) (fl t b k)) (fun _ => false)
  | .mand d a b => mop d (fun k => (rdM c a).getLsbD k && (rdM c b).getLsbD k)
  | .mor d a b => mop d (fun k => (rdM c a).getLsbD k || (rdM c b).getLsbD k)
  | .mxor d a b => mop d (fun k => (rdM c a).getLsbD k != (rdM c b).getLsbD k)
  | .mandn d a b => mop d (fun k => (rdM c a).getLsbD k && !(rdM c b).getLsbD k)
  | .mnot d a => mop d (fun k => !(rdM c a).getLsbD k)
  | .mset d a => mop d (fun k => (rdG c a).getLsbD k)
  | _ => none

/-- The general destination and value of R162 and R163 for MGET, MPOPC and VEXT. -/
def scalarFromVector (i : Instr) (c : Ctx) : Option (Reg × Word) :=
  match i with
  | .mget d a => some (d, rdM c a)
  | .mpopc d a => some (d, BitVec.ofNat 64 ((List.range 64).filter (fun k => (rdM c a).getLsbD k)).length)
  | .vext d a b t => some (d, BitVec.ofNat 64
      (lane (rdV c a) (laneBits t.toNat) ((rdG c b).toNat % laneCount t.toNat) % 2 ^ (if t.toNat = 3 then 19 else laneBits t.toNat)))
  | _ => none

/-- The entries of the active lanes of a reduction, in increasing order (R164). -/
def activeLanes (c : Ctx) (a : Reg) (m t : Fld3) : List Nat :=
  ((List.range (laneCount t.toNat)).filter (fun k => (rdM c m).getLsbD k)).map (fun k => lane (rdV c a) (laneBits t.toNat) k)

/-- The destination, the type and lane 0 that R164 gives an integer reduction: what all active lanes combine to, in any order. -/
def reduced (i : Instr) (c : Ctx) : Option (Reg × Nat) :=
  let w (t : Fld3) : Nat := laneBits t.toNat
  let xs (a : Reg) (m t : Fld3) : List Nat := activeLanes c a m t
  let sx (a : Reg) (m t : Fld3) : List Int := (xs a m t).map (signedOf (w t))
  let whole (d : Reg) (t : Fld3) (v : Nat) : Option (Reg × Nat) := if 4 ≤ t.toNat then some (d, v) else none
  match i with
  | .vrsum d a m t => whole d t ((xs a m t).sum % 2 ^ w t)
  | .vrmin d a m t => whole d t (((sx a m t).foldl min (2 ^ (w t - 1) - 1)) % 2 ^ w t).toNat
  | .vrmax d a m t => whole d t (((sx a m t).foldl max (-2 ^ (w t - 1))) % 2 ^ w t).toNat
  | .vrand d a m t => whole d t ((xs a m t).foldl (· &&& ·) (2 ^ w t - 1))
  | .vror d a m t => whole d t ((xs a m t).foldl (· ||| ·) 0)
  | .vrxor d a m t => whole d t ((xs a m t).foldl (· ^^^ ·) 0)
  | _ => none

/-- The tree of R164 over the entries of a vector: at each level entry i with entry i + h, an absent one giving way, in increasing i. -/
def reductionTree (op : Nat → Nat → Word → Nat × BitVec 5 × Word) (lanes : Nat) (x : Nat → Option Nat) (seed : Word) :
    (Nat → Option Nat) × BitVec 5 × Word :=
  (((List.range 6).map (fun n => lanes / 2 ^ (n + 1))).filter (0 < ·)).foldl (fun a h => (List.range h).foldl (fun a i =>
    match a.1 i, a.1 (i + h) with
    | _, none => a
    | none, some q => (fun j => if j = i then some q else a.1 j, a.2)
    | some p, some q => let r := op p q a.2.2
                        (fun j => if j = i then some r.1 else a.1 j, a.2.1 ||| r.2.1, r.2.2)) a) (x, 0, seed)

/-- The destination, the source, the mask, the type, the operation and the identity that R164 gives a floating reduction. -/
def floatReduction (i : Instr) (c : Ctx) : Option (Reg × Reg × Fld3 × Nat × (Nat → Nat → Word → Nat × BitVec 5 × Word) × Nat) :=
  let fr := c.frm.toNat
  match i with
  | .vrsum d a m t => if t.toNat < 4 then some (d, a, m, t.toNat, fun x y seed =>
      let f := fmtOf t.toNat
      let sum := sumExact fr [unpack f x, unpack f y]
      let r := roundTo f fr (if fr = 4 then (sr seed).2 else 0) sum.1
      (r.1, sum.2 ||| r.2, if fr = 4 then (sr seed).1 else seed), 0) else none
  | .vrmin d a m t => if t.toNat < 4 then
      some (d, a, m, t.toNat, fun x y seed => ((minMax (fmtOf t.toNat) false x y).1, (minMax (fmtOf t.toNat) false x y).2, seed),
        (fmtOf t.toNat).infBits false) else none
  | .vrmax d a m t => if t.toNat < 4 then
      some (d, a, m, t.toNat, fun x y seed => ((minMax (fmtOf t.toNat) true x y).1, (minMax (fmtOf t.toNat) true x y).2, seed),
        (fmtOf t.toNat).infBits true) else none
  | _ => none

end Sys2Proof.Claims

/-- R164: floating VRSUM adds its active lanes in the fixed tree, rounding each sum under FRM with its own draw under SR, and VRMIN and
VRMAX combine in the same tree; lane 0 holds the result, or +0, +∞ or −∞ where no lane is active, every other bit of vd is zero, and FFLAGS
gains the flags of every combination. -/
def Sys2Proof.Claims.FloatingReductionsFollowTheTree : Prop :=
  ∀ (i : Instr) (s : State) (d a : Reg) (m : Fld3) (ty ident : Nat) (op : Nat → Nat → Word → Nat × BitVec 5 × Word),
    floatReduction i s.me = some (d, a, m, ty, op, ident) →
    let x (k : Nat) : Option Nat := if k < laneCount ty ∧ (rdM s.me m).getLsbD k = true then
      some (lane (rdV s.me a) (laneBits ty) k % (if ty = 3 then 2 ^ 19 else 2 ^ laneBits ty)) else none
    let r := reductionTree op (laneCount ty) x s.me.seed
    ∃ t, exec i s = .next t ∧ OnlyMe s t ∧ SameMemory s t ∧ rdV t.me d = BitVec.ofNat 512 ((r.1 0).getD ident) ∧
      (∀ y, y ≠ d → rdV t.me y = rdV s.me y) ∧
      t.me = { advance (settled s.me) with v := t.me.v, fflags := s.me.fflags ||| r.2.1, seed := r.2.2 }

/-- R139, R162: a compare sets the mask bits of the active lanes that hold and clears all others, raising the flags of the active
lanes; the mask operations work on all 64 bits; m0 discards what is written to it, and nothing else changes. -/
def Sys2Proof.Claims.MaskInstructionsWriteEveryBit : Prop :=
  ∀ (i : Instr) (s : State) (d : Fld3) (f g : Nat → Bool), maskResult i s.me = some (d, f, g) →
    ∃ t, exec i s = .next t ∧ OnlyMe s t ∧ SameMemory s t ∧
      (∀ r k, k < 64 → (rdM t.me r).getLsbD k = if r = d ∧ d ≠ 0 then f k else (rdM s.me r).getLsbD k) ∧
      (∀ b, b < 5 → t.me.fflags.getLsbD b = (s.me.fflags.getLsbD b || g b)) ∧
      t.me = { advance (settled s.me) with m := t.me.m, fflags := t.me.fflags }

/-- R162, R163: MGET, MPOPC and VEXT write a general register and nothing else. -/
def Sys2Proof.Claims.ScalarsReadFromVectors : Prop :=
  ∀ (i : Instr) (s : State) (d : Reg) (x : Word), scalarFromVector i s.me = some (d, x) →
    ∃ t, exec i s = .next t ∧ OnlyMe s t ∧ SameMemory s t ∧
      (∀ r, rdG t.me r = if r = d ∧ d ≠ 0 then x else rdG s.me r) ∧ t.me = { advance (settled s.me) with g := t.me.g }

/-- R164: an integer reduction leaves in lane 0 what its active lanes combine to (their sum modulo 2^c, their least or greatest
signed value, their and, or, exclusive or; the identity where none is active), and zero in every other bit of vd. -/
def Sys2Proof.Claims.IntegerReductionsCombineActiveLanes : Prop :=
  ∀ (i : Instr) (s : State) (d : Reg) (x : Nat), reduced i s.me = some (d, x) →
    ∃ t, exec i s = .next t ∧ OnlyMe s t ∧ SameMemory s t ∧ rdV t.me d = BitVec.ofNat 512 x ∧
      (∀ r, r ≠ d → rdV t.me r = rdV s.me r) ∧ t.me = { advance (settled s.me) with v := t.me.v }

/-- R128, R168: VDOT.SP traps FMT where a mask word of its groups keeps no legal set of positions, and otherwise accumulates
the products of the kept positions into the lanes of its groups, which for I8 is their sum modulo 2^32. -/
def Sys2Proof.Claims.SparseDotProduct : Prop :=
  ∀ (d a b : Reg) (m t : Fld3) (s : State),
    let w := laneBits t.toNat
    let groups := if w = 8 then 4 else 2
    let word (j : Nat) : Nat := (rdM s.me m).toNat / 2 ^ (16 * j) % 2 ^ 16
    let kept (j : Nat) : List Nat := (List.range 12).filter (fun k => (word j).testBit k)
    let legal (j : Nat) : Prop := word j < 2 ^ 12 ∧ 1 ≤ (kept j).length ∧ (kept j).length ≤ 8
    (t.toNat = 1 ∨ t.toNat = 2 ∨ 6 ≤ t.toNat) →
    ((∃ j, j < groups ∧ ¬legal j) → exec (.vdotSp d a b m t) s = .next (trapNow s cFMT)) ∧
    ((∀ j, j < groups → legal j) → t.toNat = 6 →
      ∃ t', exec (.vdotSp d a b m t) s = .next t' ∧
        VectorWritten s t' d (BitVec.ofNat 64 (2 ^ groups - 1)) 4 (fun j =>
          (((lane (rdV s.me d) 32 j : Int) + ((kept j).zipIdx.map (fun (p : Nat × Nat) =>
            signedOf w (lane (rdV s.me a) w (12 * j + p.1)) * signedOf w (lane (rdV s.me b) w (8 * j + p.2)))).sum) % 2 ^ 32).toNat))

/-- R124, R166: VQNT through an entry of BLOG 0 for an integer kind without smoothing, under a mode that draws nothing, writes
the codes of its lanes packed from bit 0, inactive lanes as the code of +0, and zero above them. -/
def Sys2Proof.Claims.UnscaledQuantiseWritesCodes : Prop :=
  ∀ (d a : Reg) (ix : BitVec 4) (m t r : Fld3) (s : State),
    let e := (s.core s.myCore).ftEntry ix.toNat
    let w := ftWidth e
    let mode := if r.toNat = 5 then s.me.frm.toNat else r.toNat
    let lo : Int := if ftKind e = 6 then -2 ^ (w - 1) else 0
    let hi : Int := if ftKind e = 6 then 2 ^ (w - 1) - 1 else 2 ^ w - 1
    let code (k : Nat) : Nat := if (rdM s.me m).getLsbD k then
      ((intConv lo hi mode 0 (unpack (fmtOf t.toNat) (lane (rdV s.me a) (laneBits t.toNat) k))).1 % 2 ^ w).toNat else 0
    ftValid e = true → ftSmen e = false → ftBlog e = 0 → (ftKind e = 6 ∨ ftKind e = 7) → 1 ≤ w → w ≤ 8 → mode ≠ 4 →
    ∃ t', exec (.vqnt d a ix m t r) s = .next t' ∧ OnlyMe s t' ∧ SameMemory s t' ∧
      (∀ k, k < laneCount t.toNat → (rdV t'.me d).toNat / 2 ^ (k * w) % 2 ^ w = code k) ∧
      (rdV t'.me d).toNat < 2 ^ (laneCount t.toNat * w) ∧ (∀ x, x ≠ d → rdV t'.me x = rdV s.me x) ∧
      t'.me = { advance (settled s.me) with v := t'.me.v, fflags := t'.me.fflags }

/-- R117, R119, R122, R123, R165, R166, R168: every VQNT that is not refused ends, at once without smoothing, and with it once its
divisors are read; the codes and scales are those of its quantisation, and nothing but vd, FFLAGS and the generator changes. Every
VDOT.SP of legal groups ends; floating products are summed exactly and rounded once to FP32, and the lanes of its groups alone are
written. -/
def Sys2Proof.Claims.QuantiseAndSparseDotEnd : Prop :=
  ∀ (d a b : Reg) (ix : BitVec 4) (m t r : Fld3) (s : State),
    let core := s.core s.myCore
    let e := core.ftEntry ix.toNat
    let L := laneCount t.toNat
    let mode := if r.toNat = 5 then s.me.frm.toNat else r.toNat
    let wholly (s1 t' : State) : Prop := OnlyMe s1 t' ∧ SameMemory s1 t' ∧ (∀ x, x ≠ d → rdV t'.me x = rdV s1.me x) ∧
      t'.me = { advance (settled s1.me) with v := t'.me.v, fflags := t'.me.fflags, seed := t'.me.seed }
    let xs := (List.range L).map (fun k => if (rdM s.me m).getLsbD k then unpack (fmtOf t.toNat) (lane (rdV s.me a) (laneBits t.toNat) k)
      else FVal.fin false 0 0)
    let q := quantise core.dt core.dmode (ftKind e) (ftW e) (ftBlog e) mode (xs.map (fun x => (x, 0)))
    let refused : Prop := ftValid e = false ∨ (ftBlog e ≠ 0 ∧ L < 2 ^ ftBlog e) ∨ (ftKind e = 5 ∧ ftBlog e = 0) ∨
      (ftKind e = 5 ∧ dtOrdered core.dt core.dmode = false)
    (¬refused → ftSmen e = false → ∃ t', exec (.vqnt d a ix m t r) s = .next t' ∧ wholly s t' ∧
      (mode ≠ 4 → t'.me.seed = s.me.seed ∧ rdV t'.me d = BitVec.ofNat 512 (if ftBlog e = 0 then streamOf (ftW e) q.1.codes
        else streamOf (ftW e) q.1.codes % 2 ^ 256 + 2 ^ 256 * streamOf 8 q.2))) ∧
    (∀ s1 bytes, ¬refused → ftSmen e = true → regionsCheck (divisorAddrs e L) = .ok () →
      s.spCheck s.sched.cur (divisorAddrs e L) = .ok () → acqHeld s.me = false → s.guardHit s.myCore (divisorAddrs e L) = false →
      s.readBytes s.sched.cur s.sched.nextId false (divisorAddrs e L) = some (s1, .ok bytes) →
      ∃ t', exec (.vqnt d a ix m t r) s = .next t' ∧ wholly s1 t') ∧
    (let w := laneBits t.toNat
     let groups := if w = 8 then 4 else 2
     let word (j : Nat) : Nat := (rdM s.me m).toNat / 2 ^ (16 * j) % 2 ^ 16
     let kept (j : Nat) : List Nat := (List.range 12).filter (fun k => (word j).testBit k)
     let val (x : Nat) : FVal := if t.toNat < 4 then unpack (fmtOf t.toNat) x
       else if t.toNat = 7 then dtValue core.dt core.dmode x else FVal.ofInt (signedOf w x)
     let products (j : Nat) : List FVal := (kept j).zipIdx.map (fun (p : Nat × Nat) =>
       (mulExact (val (lane (rdV s.me a) w (12 * j + p.1))) (val (lane (rdV s.me b) w (8 * j + p.2)))).1)
     (t.toNat = 1 ∨ t.toNat = 2 ∨ 6 ≤ t.toNat) → (∀ j, j < groups → word j < 2 ^ 12 ∧ 1 ≤ (kept j).length ∧ (kept j).length ≤ 8) →
      ∃ t', exec (.vdotSp d a b m t) s = .next t' ∧ wholly s t' ∧
        (∀ k, groups ≤ k → k < 16 → lane (rdV t'.me d) 32 k = lane (rdV s.me d) 32 k) ∧
        (t.toNat ≠ 6 → s.me.frm.toNat ≠ 4 → ∀ j, j < groups → lane (rdV t'.me d) 32 j =
          (roundTo (fmtOf 0) s.me.frm.toNat 0
            (sumExact s.me.frm.toNat (unpack (fmtOf 0) (lane (rdV s.me d) 32 j) :: products j)).1).1))

/-- R125, R130, R165, R166: VQNT and VDQNT trap FMT through an entry that is not valid or whose block is longer than the lanes;
VQNT to T8 and VCVT to .T8 trap DTORDER when the decode table is out of order. -/
def Sys2Proof.Claims.ConversionTraps : Prop :=
  ∀ (d a : Reg) (ix : BitVec 4) (ts m t r : Fld3) (s : State),
    let e := (s.core s.myCore).ftEntry ix.toNat
    let ordered := dtOrdered (s.core s.myCore).dt (s.core s.myCore).dmode = true
    let refused := ftValid e = false ∨ (ftBlog e ≠ 0 ∧ laneCount t.toNat < 2 ^ ftBlog e) ∨ (ftKind e = 5 ∧ ftBlog e = 0)
    (refused → exec (.vqnt d a ix m t r) s = .next (trapNow s cFMT) ∧ exec (.vdqnt d a ix m t r) s = .next (trapNow s cFMT)) ∧
    (¬refused → ftKind e = 5 → ¬ordered → exec (.vqnt d a ix m t r) s = .next (trapNow s cDTORDER)) ∧
    (¬ordered → exec (.vcvt d a ts m 7 r) s = .next (trapNow s cDTORDER))

namespace Sys2Proof.Claims

open Sys2Proof.Machine

/-! ### Loads and stores (R51, R175, R186, R225, R226) -/

/-- A plain access: its effective address, size, swizzle, whether it is a vector's, and what it moves: a load's destination
with its acquire (0 none, 1 at CORE scope, 2 wider), or a store's bytes. -/
structure Access where
  ea : Nat
  size : Nat
  swz : Nat
  vec : Bool
  move : (Dst × Nat) ⊕ List Byte

/-- The access of R186 and R226. -/
def accessOf (i : Instr) (c : Ctx) : Option Access :=
  let at_ (b : Reg) (o : BitVec 13) (z : Nat) : Nat := ((((rdG c b).toNat : Int) + o.toInt * z) % 2 ^ 52).toNat
  let ld (b : Reg) (z : Fld3) (o : BitVec 13) (n : Nat) (dst : Dst) (v : Bool) : Option Access :=
    some { ea := at_ b o n, size := n, swz := z.toNat, vec := v, move := .inl (dst, 0) }
  let st (b : Reg) (z : Fld3) (o : BitVec 13) (n : Nat) (x : Nat) (v : Bool) : Option Access :=
    some { ea := at_ b o n, size := n, swz := z.toNat, vec := v
           move := .inr ((List.range n).map (fun k => BitVec.ofNat 8 (x / 256 ^ k))) }
  let low (b : Reg) : Nat := (rdG c b).toNat % 2 ^ 52
  match i with
  | .ldB t b z o => ld b z o 1 (.g t true) false
  | .ldBn t b z o => ld b z o 1 (.g t false) false
  | .ldH t b z o => ld b z o 2 (.g t true) false
  | .ldHn t b z o => ld b z o 2 (.g t false) false
  | .ldW t b z o => ld b z o 4 (.g t true) false
  | .ldWn t b z o => ld b z o 4 (.g t false) false
  | .ldD t b z o => ld b z o 8 (.g t false) false
  | .vld t b z o => ld b z o 64 (.v t) true
  | .ldAcq d a sc n z =>
    some { ea := low a, size := 2 ^ z.toNat, swz := 0, vec := false, move := .inl (.g d (n == 0), if sc = 0 then 1 else 2) }
  | .stB t b z o => st b z o 1 (rdG c t).toNat false
  | .stH t b z o => st b z o 2 (rdG c t).toNat false
  | .stW t b z o => st b z o 4 (rdG c t).toNat false
  | .stD t b z o => st b z o 8 (rdG c t).toNat false
  | .vst t b z o => st b z o 64 (rdV c t).toNat true
  | .stRel a b _ z =>
    some { ea := low a, size := 2 ^ z.toNat, swz := 0, vec := false
           move := .inr ((List.range (2 ^ z.toNat)).map (fun k => BitVec.ofNat 8 ((rdG c b).toNat / 256 ^ k))) }
  | _ => none

/-- The byte addresses of an access: in the scratchpad window each is swizzled in its low 20 bits (R175). -/
def Access.addrs (x : Access) : List Nat :=
  (List.range x.size).map (fun k => if regionOf x.ea = 0xC then swzAddr x.swz (x.ea + k) else x.ea + k)

/-- The address checks of an access in their order, each with its trap, which names the effective address. -/
def TrapsInOrder (s : State) (x : Access) (out : Host.Outcome State Fault Refusal) : Prop :=
  let rg := x.ea / 2 ^ 48 % 16
  let limit := if x.swz = 5 then 4 else if x.swz = 6 then 2 else 8
  let badSwz := x.swz ≠ 0 ∧ (rg ≠ 0xC ∨ (x.vec = false ∧ 5 ≤ x.swz ∧ limit < x.size))
  let trap (c : BitVec 8) : Prop := out = .next (trapAt s c (BitVec.ofNat 64 x.ea))
  (rg = 0xD ∨ rg = 0xF → trap cXLATE) ∧
  (rg = 0xE → trap cPROT) ∧
  (rg < 0xD → x.ea % x.size ≠ 0 → trap cMISALIGN) ∧
  (rg < 0xD → x.ea % x.size = 0 → badSwz → trap cSWZ) ∧
  (rg < 0xD → x.ea % x.size = 0 → ¬badSwz → s.spCheck s.sched.cur x.addrs = .error cREGION → trap cREGION)

/-- `out` is `s` after the issue of a load: LD has risen, one operation with its destination and byte addresses is outstanding, and no
register, no other context and no byte of memory has changed yet. -/
def LoadIssued (s : State) (x : Access) (dst : Dst) (acq : Nat) (out : Host.Outcome State Fault Refusal) : Prop :=
  ∃ t p, out = .next t ∧ p.load = true ∧ p.dst = dst ∧ p.acq = acq ∧ p.addrs = x.addrs ∧ p.reply = none ∧ p.counted = true ∧
    p.pc = s.me.pc ∧ p.word = s.me.ir ∧ p.ea = BitVec.ofNat 64 x.ea ∧ p.id = s.sched.nextId ∧
    t.me = { advance (settled s.me) with ld := s.me.ld + 1, pend := s.me.pend ++ [p] } ∧
    (∀ k, k ≠ s.sched.cur → t.ctx k = s.ctx k) ∧ SameMemory s t ∧
    t = { s with ctxs := t.ctxs, sched := t.sched, flights := t.flights }

/-- Nothing holds back a store of these bytes, and the loads that must read first leave the state `s1` (R179, R182, R184, R226). -/
def StoreReady (s s1 : State) (cells : List Host.Cell) : Prop :=
  (∀ p ∈ s.me.pend, p.acq = 0) ∧ s.guardHit s.myCore (cells.map (·.1)) = false ∧ s.me.st < 63 ∧
  s.atomicAhead s.myCore (cells.map (·.1)) = false ∧
  (s.core s.myCore).sbRoom (s.core s.myCore).asid (s.svc s.sched.cur) (linesOf (cells.filter (fun c => !isSp c.1))) = true ∧
  s.settleLoads (cells.map (·.1)) (s.corePends s.myCore) = some s1

/-- `t` follows `s` by the issue of a store: ST has risen, one operation is outstanding that names the store's addresses, the
bytes that lie in the core's own banks wait to be written, those of another core's are on their way to it, and those of DRAM stand in the
store buffer, an entry for each line, whose other bytes and entries stay; no register has changed, and no byte of memory but what the
earlier loads that read first, which leave `s1`, brought back (R184, R186, R206). -/
def StoreIssued (s s1 t : State) (ea : Nat) (cells : List Host.Cell) : Prop :=
  ∃ p, t.me.pend = s1.me.pend ++ [p] ∧ p.load = false ∧ p.addrs = cells.map (·.1) ∧
    p.cells = cells.filter (fun c => isSp c.1 && decide (spOwner c.1 = s.myCore)) ∧
    p.pc = s.me.pc ∧ p.word = s.me.ir ∧ p.ea = BitVec.ofNat 64 ea ∧
    t.me.st = s.me.st + 1 ∧ t.me.ld = s.me.ld ∧ t.me.g = s.me.g ∧ t.me.v = s.me.v ∧ t.me.m = s.me.m ∧ t.me.pc = (advance s.me).pc ∧
    SameMemory s1 t ∧
    (let asid := (s.core s.myCore).asid
     let svc := s.svc s.sched.cur
     let old := (s1.core s.myCore).sb
     let new := (t.core s.myCore).sb
     let dram := cells.filter (fun c => !isSp c.1)
     (∀ o, o ≠ s.myCore → (∃ c ∈ cells, isSp c.1 = true ∧ spOwner c.1 = o) → ∃ f ∈ t.flights, f.key = s.sched.cur ∧ f.op = p.id ∧
       f.body = .rstore o (cells.filter (fun c => isSp c.1 && decide (spOwner c.1 = o))) asid svc) ∧
     (∀ c ∈ dram, (∀ d ∈ dram, d.1 = c.1 → d = c) → ∃ e ∈ new, e.asid = asid ∧ e.line = c.1 / 64 ∧ e.svc = svc ∧
       (s.sched.cur, p.id) ∈ e.stores ∧ c ∈ e.cells ∧ (∀ d ∈ e.cells, d.1 = c.1 → d = c)) ∧
     (∀ e ∈ old, (∀ c ∈ dram, ¬(e.asid = asid ∧ e.line = c.1 / 64 ∧ e.svc = svc)) → e ∈ new) ∧
     (∀ e ∈ old, ∃ f ∈ new, f.asid = e.asid ∧ f.line = e.line ∧ f.svc = e.svc ∧
       (∀ c ∈ e.cells, (∀ d ∈ dram, d.1 ≠ c.1) → c ∈ f.cells) ∧ (∀ k ∈ e.stores, k ∈ f.stores)))

/-- The earlier accesses that a release waits for are over, and the core has nothing on its way to L2 (R226). -/
def ReleaseClear (s : State) (scope : Nat) : Prop :=
  (∀ n, s.me.await ≠ .fence n) ∧ loadsOut s.me = false ∧ storesOut s.me scope = false ∧
  (scope ≠ 0 → (s.core s.myCore).sb = []) ∧ (∀ e ∈ s.mem.l2q, e.core ≠ s.myCore)

end Sys2Proof.Claims

namespace Sys2Proof.Claims

open Sys2Proof.Machine

/-- The access of a word of the FM majors under EXT, with its 39-bit composite offset (R33, R34). -/
def extAccessOf (w : IWord) (k : BitVec 39) (c : Ctx) : Option Access :=
  let t := fD w
  let at_ (n : Nat) : Nat := ((((rdG c (fA w)).toNat : Int) + k.toInt * n) % 2 ^ 52).toNat
  let ld (n : Nat) (dst : Dst) (v : Bool) : Option Access :=
    some { ea := at_ n, size := n, swz := (fSwz w).toNat, vec := v, move := .inl (dst, 0) }
  let st (n x : Nat) (v : Bool) : Option Access :=
    some { ea := at_ n, size := n, swz := (fSwz w).toNat, vec := v
           move := .inr ((List.range n).map (fun k => BitVec.ofNat 8 (x / 256 ^ k))) }
  match (fMajor w).toNat with
  | 0x10 => ld 1 (.g t true) false
  | 0x11 => ld 1 (.g t false) false
  | 0x12 => ld 2 (.g t true) false
  | 0x13 => ld 2 (.g t false) false
  | 0x14 => ld 4 (.g t true) false
  | 0x15 => ld 4 (.g t false) false
  | 0x16 => ld 8 (.g t false) false
  | 0x17 => st 1 (rdG c t).toNat false
  | 0x18 => st 2 (rdG c t).toNat false
  | 0x19 => st 4 (rdG c t).toNat false
  | 0x1A => st 8 (rdG c t).toNat false
  | 0x1B => ld 64 (.v t) true
  | 0x1C => st 64 (rdV c t).toNat true
  | _ => none

/-- Whether a word of BR, J or JL under EXT transfers, its target by the 39-bit or the 52-bit composite, counted from the word's own
address, and the register that takes the link (R34, R37, R38, R154). None for another major and for BR's conditions 6 and 7. -/
def extControlForm (w : IWord) (i : BitVec 26) (c : Ctx) : Option (Bool × BitVec 52 × Option Reg) :=
  let x := rdG c (fD w)
  let y := rdG c (fA w)
  let target (disp : Int) : BitVec 52 := c.pc + 4 + BitVec.ofInt 52 (4 * disp)
  let br (p : Prop) [Decidable p] : Option (Bool × BitVec 52 × Option Reg) := some (decide p, target (i ++ fOff w).toInt, none)
  match (fMajor w).toNat, (fSwz w).toNat with
  | 0x20, 0 => br (x = y)
  | 0x20, 1 => br (x ≠ y)
  | 0x20, 2 => br (x.toInt < y.toInt)
  | 0x20, 3 => br (y.toInt ≤ x.toInt)
  | 0x20, 4 => br (x.toNat < y.toNat)
  | 0x20, 5 => br (y.toNat ≤ x.toNat)
  | 0x21, _ => some (true, target (i ++ fDisp w).toInt, none)
  | 0x22, _ => some (true, target (i ++ fDisp w).toInt, some 31)
  | _, _ => none

/-- `s` with the pair of EXT and the word after it at work (R34, R36). -/
def paired (s : State) (i : BitVec 26) (w : IWord) : State := s.modMe (fun c => { c with ext := some i, ir := w, ilen := 8 })

end Sys2Proof.Claims

/-- R33, R34, R36, R37: EXT before a load or a store makes its access at the 39-bit composite offset, with every check, trap and effect of
the plain form; before BR it transfers by the 39-bit composite and before J and JL by the 52-bit one, after the two slots that follow the
pair, JL linking the word after them. MOVI with an a field, MOVH with composite bits above 31 and BR of conditions 6 and 7 trap ILLEGAL.
PC of a trap is EXT's address and its word the target's. -/
def Sys2Proof.Claims.ExtExtendsAddressesAndTargets : Prop :=
  ∀ (i : BitVec 26) (s s1 : State) (w : IWord), s.me.ext = none → s.me.rpt = none → s.fetch s.sched.cur (s.me.pc + 4) = (s1, .ok w) →
    let u := paired s1 i w
    (∀ x, extAccessOf w (i ++ fOff w) s.me = some x → TrapsInOrder u x (exec (.ext i) s) ∧
      (∀ dst acq, x.move = .inl (dst, acq) → u.accessCheck u.sched.cur x.ea x.size x.swz x.vec = .ok () →
        (∀ p ∈ s.me.pend, p.acq = 0) → u.guardHit u.myCore x.addrs = false → s.me.ld < 63 → LoadIssued u x dst acq (exec (.ext i) s)) ∧
      (∀ bytes s2, x.move = .inr bytes → u.accessCheck u.sched.cur x.ea x.size x.swz x.vec = .ok () →
        StoreReady u s2 (x.addrs.zip bytes) → ∃ t, exec (.ext i) s = .next t ∧ StoreIssued u s2 t x.ea (x.addrs.zip bytes))) ∧
    (∀ take dest link s2 w1 w2, extControlForm w i s.me = some (take, dest, link) → FetchedFrom u (s.me.pc + 8) [w1, w2] s2 →
      (slotBanned w1 = false → slotBanned w2 = false → ∃ t, exec (.ext i) s = .next t ∧ OnlyMe s2 t ∧ SameMemory s2 t ∧
        t.me.delay = some { left := 2, dest := if take then dest else s.me.pc + 16 } ∧
        (∀ r, rdG t.me r = if some r = link ∧ r ≠ 0 then (s.me.pc + 16).setWidth 64 else rdG s.me r) ∧
        t.me = { advance (settled u.me) with g := t.me.g, delay := t.me.delay }) ∧
      ((slotBanned w1 = true ∨ slotBanned w2 = true) → exec (.ext i) s = .next (trapNow s2 cDELAYSLOT))) ∧
    ((fMajor w).toNat = 0x0A → fA w ≠ 0 → exec (.ext i) s = .next (trapNow u cILLEGAL)) ∧
    ((fMajor w).toNat = 0x0B → 2 ^ 32 ≤ (i ++ fImm w).toNat → exec (.ext i) s = .next (trapNow u cILLEGAL)) ∧
    (∀ s2 w1 w2, (fMajor w).toNat = 0x20 → 6 ≤ (fSwz w).toNat → FetchedFrom u (s.me.pc + 8) [w1, w2] s2 → slotBanned w1 = false →
      slotBanned w2 = false → exec (.ext i) s = .next (trapNow s2 cILLEGAL)) ∧
    (∀ c a, ∃ k : TrapInfo, trapAt u c a = u.takeTrap s.sched.cur k ∧ k.cause = c ∧ k.faddr = a ∧ k.pc = s.me.pc ∧ k.word = w)

/-- R175, R176, R186: every load and store, LD.ACQ and ST.REL makes the address checks in their order: regions 0xD and 0xF
trap XLATE, 0xE traps PROT, a misaligned address traps MISALIGN, a swizzle outside the window or past its size traps SWZ. The trap
names the effective address. -/
def Sys2Proof.Claims.BadAddressesTrapInOrder : Prop :=
  ∀ (i : Instr) (s : State) (x : Access), accessOf i s.me = some x →
    TrapsInOrder s x (exec i s)

/-- R180, R186, R226: a load, or LD.ACQ, whose address passes its checks and which nothing holds back is issued: LD rises, one
operation with its destination and byte addresses is outstanding, and no register, no other context and no byte of memory changes
yet. -/
def Sys2Proof.Claims.LoadsAreIssued : Prop :=
  ∀ (i : Instr) (s : State) (x : Access) (dst : Dst) (acq : Nat), accessOf i s.me = some x → x.move = .inl (dst, acq) →
    s.accessCheck s.sched.cur x.ea x.size x.swz x.vec = .ok () →
    (∀ p ∈ s.me.pend, p.acq = 0) → s.guardHit s.myCore x.addrs = false → s.me.ld < 63 →
    LoadIssued s x dst acq (exec i s)

/-- R184, R186, R226: a store whose address passes its checks and which nothing holds back is issued: ST rises, one operation is
outstanding whose byte addresses are those of the access, and those of its bytes that lie in the core's own banks wait to be
written there. No register changes, and no byte of memory once the earlier loads of those bytes have read. ST.REL does so once all that it waits for is over. -/
def Sys2Proof.Claims.StoresAreIssued : Prop :=
  ∀ (i : Instr) (s s1 : State) (x : Access) (bytes : List Byte), accessOf i s.me = some x → x.move = .inr bytes →
    (∀ a b sc z, i = .stRel a b sc z → ReleaseClear s sc.toNat) →
    s.accessCheck s.sched.cur x.ea x.size x.swz x.vec = .ok () →
    StoreReady s s1 (x.addrs.zip bytes) →
    ∃ t, exec i s = .next t ∧ StoreIssued s s1 t x.ea (x.addrs.zip bytes) ∧ t.me.fflags = s.me.fflags ∧ t.me.seed = s.me.seed

/-- R179, R182, R226: an acquire that has not written its register, a scoreboard entry of the core over the bytes, or a counter at
63 makes a plain load or store wait at its place, as a wait that WAITLIMIT bounds; nothing else changes. -/
def Sys2Proof.Claims.AccessesWaitAtTheirPlace : Prop :=
  ∀ (i : Instr) (s : State) (x : Access), accessOf i s.me = some x → (∀ a b sc z, i ≠ .stRel a b sc z) →
    s.accessCheck s.sched.cur x.ea x.size x.swz x.vec = .ok () → s.me.waitLimit ≠ 0 →
    ((∃ p ∈ s.me.pend, p.acq ≠ 0) ∨ s.guardHit s.myCore x.addrs = true ∨
      (∃ dst acq, x.move = .inl (dst, acq) ∧ 63 ≤ s.me.ld) ∨ (∃ b, x.move = .inr b ∧ 63 ≤ s.me.st)) →
    ∃ t, exec i s = .next t ∧ OnlyMe s t ∧ SameMemory s t ∧
      t.me = { s.me with waiting := true, blocking := true, await := .nothing, awaitTok := 0
                         waited := if s.me.waiting && s.me.blocking then s.me.waited else 0 }

/-- R218, R226: FENCE ends at once when no earlier load of the kinds it names is out and no earlier store of them is unperformed
at its scope; with a scope wider than CORE and LL or LS it empties the L1 of the running ASID, other ASIDs' lines staying. -/
def Sys2Proof.Claims.FenceEndsWhenEarlierAccessesAreOver : Prop :=
  ∀ (sc : BitVec 2) (k : BitVec 4) (s : State),
    ((k.getLsbD 0 || k.getLsbD 1) = true → loadsOut s.me = false) →
    ((k.getLsbD 2 || k.getLsbD 3) = true → storesOut s.me sc.toNat = false) →
    ∃ t, exec (.fence sc k) s = .next t ∧ t.me = advance (settled s.me) ∧ (∀ n, n ≠ s.sched.cur → t.ctx n = s.ctx n) ∧
      SameMemory s t ∧
      (∀ l, l ∈ (t.core s.myCore).l1 ↔ l ∈ (s.core s.myCore).l1 ∧
        ¬(sc ≠ 0 ∧ (k.getLsbD 0 || k.getLsbD 1) = true ∧ l.asid = (s.core s.myCore).asid)) ∧
      (t.core s.myCore) = { s.core s.myCore with l1 := (t.core s.myCore).l1 } ∧
      (∀ c, c ≠ s.myCore → t.core c = s.core c)

/-- R192: L1INV drops from the core's L1 exactly the lines of the running ASID that overlap its bytes (all of them when b is g0);
L1WB leaves no such entry of any ASID in the store buffer. Neither writes a register. -/
def Sys2Proof.Claims.L1Maintenance : Prop :=
  ∀ (a b : Reg) (s : State),
    let lo := (rdG s.me a).toNat % 2 ^ 52
    let len := (rdG s.me b).toNat
    let hit (line : Nat) : Prop := b = 0 ∨ (0 < len ∧ line * 64 < lo + len ∧ lo < line * 64 + 64)
    (∃ t, exec (.l1inv a b) s = .next t ∧ t.me = advance (settled s.me) ∧ SameMemory s t ∧
      (∀ n, n ≠ s.sched.cur → t.ctx n = s.ctx n) ∧
      (∀ l, l ∈ (t.core s.myCore).l1 ↔ l ∈ (s.core s.myCore).l1 ∧ ¬(l.asid = (s.core s.myCore).asid ∧ hit l.line)) ∧
      (t.core s.myCore) = { s.core s.myCore with l1 := (t.core s.myCore).l1 }) ∧
    (∃ t, exec (.l1wb a b) s = .next t ∧ (LinesHere s → SameMemory s t) ∧ (t.me).g = s.me.g ∧ (t.me).pc = (advance s.me).pc ∧
      (∀ e, e ∈ (t.core s.myCore).sb ↔ e ∈ (s.core s.myCore).sb ∧ ¬hit e.line))

namespace Sys2Proof.Claims

open Sys2Proof.Machine

/-- The lines from one on, each translated in the state that the lines before it leave: its physical address, or none where the hint drops
it (R190, R191). -/
def LinesHinted (pin : Bool) (level : Nat) (s : State) (line : Nat) : List (Option Nat) → Prop
  | [] => True
  | p :: ps => (hintLine s (line * 64)).2 = p ∧ LinesHinted pin level (pinLine s pin level (line * 64)).1 (line + 1) ps
/-- The lines marked resident at a level: by virtual line in a core's L1, by physical line in L2 and the DRAM cache (R190). -/
def marksAt (s : State) (core level : Nat) : List (BitVec 16 × Nat) :=
  if level = 0 then (s.core core).pins else (s.mem.pins.filter (fun p => p.1 == level)).map (·.2)
/-- The set, slice or tower whose lines share one limit of R190, and that limit in lines. -/
def sharedLimit (level line : Nat) : Nat × Nat :=
  if level = 0 then (line % 64, 4) else if level = 1 then (sliceOf (line * 64 % 2 ^ 40), 8192) else (towerOf (line * 64 % 2 ^ 40), 2 ^ 24)
/-- The marks after a run of lines is marked one after another: one that finds its set, slice or tower full of others, or is dropped, is
missed. -/
def marked (level : Nat) (old : List (BitVec 16 × Nat)) : List (Option (BitVec 16 × Nat)) → List (BitVec 16 × Nat) × Bool
  | [] => (old, false)
  | none :: ks => ((marked level old ks).1, true)
  | some k :: ks =>
    let others := old.filter (fun x => !(x == k))
    if (others.filter (fun x => (sharedLimit level x.2).1 == (sharedLimit level k.2).1)).length < (sharedLimit level k.2).2 then
      marked level (k :: others) ks
    else ((marked level others ks).1, true)

end Sys2Proof.Claims

/-- R190, R191: a hint that is not dropped ends without a trap and writes no register, flag, counter or byte of memory; a dropped
one counts once in HINTDROP, which saturates. PREF.RES marks, or unmarks, every line of its run at its level, up to the limit of the level,
and counts once where some line is missed; runs of no byte and of more than 2^30 are dropped. Whether the core's request queue is full is
a free value (log entry 12), and the first line decides whether the hint as a whole is dropped (the model's reading, log entry 31). -/
def Sys2Proof.Claims.HintsEndWithoutATrap : Prop :=
  ∀ (a b : Reg) (l : BitVec 2) (s : State),
    let s0 := s.refresh
    let full : Prop := Config.hintQueueFull s.sched.fresh = true
    let hinted (t : State) : Prop := t.me = advance (settled s.me) ∧ (LinesHere s → SameMemory s t) ∧ (∀ n, n ≠ s.sched.cur → t.ctx n = s.ctx n) ∧
      (t.core s.myCore).hintDrop = (s.core s.myCore).hintDrop
    let dropped (i : Instr) : Prop := ∃ t, exec i s = .next t ∧ t.me = advance (settled s.me) ∧ (LinesHere s → SameMemory s t) ∧
      (t.core s.myCore).hintDrop.toNat = min ((s.core s.myCore).hintDrop.toNat + 1) (2 ^ 32 - 1)
    (¬full → ∀ s1 pa, hintLine s0 (tagVa (rdG s.me a)) = (s1, some pa) →
      ∃ t, exec (.pref a l) s = .next t ∧ hinted t) ∧
    (full ∨ (hintLine s0 (tagVa (rdG s.me a))).2 = none →
      dropped (.pref a l) ∧ dropped (.prefResPin a b l) ∧ dropped (.prefResUnpin a b l)) ∧
    ((rdG s.me b).toNat = 0 ∨ 2 ^ 30 < (rdG s.me b).toNat → dropped (.prefResPin a b l) ∧ dropped (.prefResUnpin a b l)) ∧
    (∀ s1 pa lines, ¬full → l ≠ 3 → 0 < (rdG s.me b).toNat → (rdG s.me b).toNat ≤ 2 ^ 30 →
      hintLine s0 (tagVa (rdG s.me a)) = (s1, some pa) →
      let first := tagVa (rdG s.me a) / 64
      lines.length = (tagVa (rdG s.me a) + (rdG s.me b).toNat - 1) / 64 - first + 1 →
      let keys := lines.zipIdx.map (fun p => p.1.map (fun pa => ((s.core s.myCore).asid, if l = 0 then first + p.2 else pa / 64)))
      let ends (i : Instr) (marks : List (BitVec 16 × Nat)) (missed : Bool) : Prop := ∃ t, exec i s = .next t ∧
        t.me = advance (settled s.me) ∧ (LinesHere s → SameMemory s t) ∧ (∀ n, n ≠ s.sched.cur → t.ctx n = s.ctx n) ∧
        (∀ k, k ∈ marksAt t s.myCore l.toNat ↔ k ∈ marks) ∧ (∀ n, n ≠ l.toNat → n < 3 → marksAt t s.myCore n = marksAt s s.myCore n) ∧
        (t.core s.myCore).hintDrop.toNat = min ((s.core s.myCore).hintDrop.toNat + (if missed then 1 else 0)) (2 ^ 32 - 1)
      (LinesHinted true l.toNat s1 first lines →
        ends (.prefResPin a b l) (marked l.toNat (marksAt s s.myCore l.toNat) keys).1 (marked l.toNat (marksAt s s.myCore l.toNat) keys).2) ∧
      (LinesHinted false l.toNat s1 first lines →
        ends (.prefResUnpin a b l) ((marksAt s s.myCore l.toNat).filter (fun k => !keys.contains (some k))) (keys.any (·.isNone))))

namespace Sys2Proof.Claims

open Sys2Proof.Machine

/-- The code, the size code, whether the old value returns, and the address register of an atomic (R228). -/
def atomicOf (i : Instr) (c : Ctx) : Option (Nat × Nat × Bool × Nat × Word × Word) :=
  let form (op : Nat) (a b d : Reg) (z : BitVec 2) (ret : Bool) : Option (Nat × Nat × Bool × Nat × Word × Word) :=
    let n := if z = 0 then 4 else if z = 1 then 8 else 2
    some (op, n, ret, (rdG c a).toNat % 2 ^ 52, BitVec.ofNat 64 ((rdG c b).toNat % 2 ^ (8 * n)),
      if op = 5 then BitVec.ofNat 64 ((rdG c d).toNat % 2 ^ (8 * n)) else 0)
  match i with
  | .atomAdd d a b z r => form 0 a b d z (r == 1)
  | .atomAnd d a b z r => form 1 a b d z (r == 1)
  | .atomOr d a b z r => form 2 a b d z (r == 1)
  | .atomXor d a b z r => form 3 a b d z (r == 1)
  | .atomSwap d a b z r => form 4 a b d z (r == 1)
  | .atomCas d a b z => form 5 a b d z true
  | .atomMin d a b z r => form 6 a b d z (r == 1)
  | .atomMax d a b z r => form 7 a b d z (r == 1)
  | .atomMinn d a b z r => form 8 a b d z (r == 1)
  | .atomMaxn d a b z r => form 9 a b d z (r == 1)
  | .atomFadd d a b z r => form 10 a b d z (r == 1)
  | _ => none

/-- The sum that R230 stores for FADD of FP32 (4 bytes) or FP16 (2 bytes), with its flags: the canonical NaN where an operand is a NaN, with
NV where one signals, and for infinities of opposite sign with NV; an infinity of its sign for one infinity; and else the exact sum
rounded once to nearest, ties to even, a zero sum of operands that are not both -0 being +0. -/
def floatSum (n old x : Nat) : Nat × BitVec 5 :=
  let f := fmtOf (if n = 4 then 0 else 1)
  let a := unpack f old
  let b := unpack f x
  if a.isNan ∨ b.isNan then (if n = 4 then 0x7FC00000 else 0x7E00, if a.isSnan ∨ b.isSnan then fNV else 0)
  else if a.isInf ∧ b.isInf ∧ a.neg ≠ b.neg then (if n = 4 then 0x7FC00000 else 0x7E00, fNV)
  else if a.isInf ∨ b.isInf then (f.infBits (if a.isInf then a.neg else b.neg), 0)
  else
    let q := min a.unit b.unit
    let sum := a.units q + b.units q
    if sum = 0 then (if a.isZero ∧ b.isZero ∧ a.neg = true ∧ b.neg = true then 2 ^ (8 * n - 1) else 0, 0)
    else roundTo f 0 0 (.fin (decide (sum < 0)) sum.natAbs q)

/-- The value that R229 stores for an atomic on n bytes that hold `old`. -/
def atomicStored (op n old x c : Nat) : Nat :=
  let s (v : Nat) : Int := signedOf (8 * n) v
  match op with
  | 0 => (old + x) % 2 ^ (8 * n)
  | 1 => old &&& x
  | 2 => old ||| x
  | 3 => old ^^^ x
  | 4 => x
  | 5 => if old = c then x else old
  | 6 => if s x < s old then x else old
  | 7 => if s old < s x then x else old
  | 8 => min old x
  | 9 => max old x
  | _ => (floatSum n old x).1

end Sys2Proof.Claims

/-- R227, R228, R229: an atomic on a scratchpad address that passes its checks and that nothing holds back is issued: with RET it
counts in LD, else in ST. Its request is an ATOMIC message to the owner of the address, with the pointer, the operand, the
comparand and the code, which waits at its source while an earlier access of the core that it must follow is not over; no register and no
byte of memory changes yet. -/
def Sys2Proof.Claims.ScratchpadAtomicsAreIssued : Prop :=
  ∀ (i : Instr) (s : State) (op n ea : Nat) (ret : Bool) (x c : Word), atomicOf i s.me = some (op, n, ret, ea, x, c) →
    let addrs := (List.range n).map (fun k => (ea + k) % 2 ^ 52)
    regionOf ea = 0xC → ea % n = 0 → (∀ a ∈ addrs, spMalformed a = false) →
    (s.svc s.sched.cur = true ∨ s.ownerRefused (s.core s.myCore).asid (spOwner ea) = false) →
    (spOwner ea = s.myCore → s.spCheck s.sched.cur addrs = .ok ()) →
    (∀ p ∈ s.me.pend, p.acq = 0) → (if ret then s.me.ld < 63 else s.me.st < 63) →
    (∀ q ∈ s.corePends s.myCore, q.2.load = true → q.2.route ≠ .dram) →
    ∃ t p m, exec i s = .next t ∧ p.load = ret ∧ p.route = .atomic ∧ p.addrs = addrs ∧
      t.me = { advance (settled s.me) with ld := s.me.ld + (if ret then 1 else 0), st := s.me.st + (if ret then 0 else 1)
                                           pend := s.me.pend ++ [p] } ∧
      (if s.sourceBlocked s.sched.cur s.sched.nextId true addrs = true then
        t.mail = s.mail ∧ ∃ f, t.flights = s.flights ++ [f] ∧ f.key = s.sched.cur ∧ f.op = p.id ∧ f.body = .held m addrs
       else t.flights = s.flights ∧ ∃ y, t.mail = s.mail ++ [y] ∧ y.dest = spOwner ea ∧ y.msg = m) ∧
      m.dest = spOwner ea ∧ m.kind = 4 ∧ m.chan = op ∧ m.ackKey = s.sched.cur ∧
      m.ackId = p.id ∧ m.words[2] = x ∧ m.words[3] = c ∧ ((m.words[4]).getLsbD 7 = ret) ∧
      (∀ k, k ≠ s.sched.cur → t.ctx k = s.ctx k) ∧ SameMemory s t

/-- R227, R229: an atomic on an address of regions 0x0 to 0xB that nothing holds back is issued: with RET it counts in LD, else in
ST, and its request is on its way to the home of the address; no register changes, and no byte of memory once the earlier loads of those bytes
have read. -/
def Sys2Proof.Claims.DramAtomicsAreIssued : Prop :=
  ∀ (i : Instr) (s s1 : State) (op n ea : Nat) (ret : Bool) (x c : Word), atomicOf i s.me = some (op, n, ret, ea, x, c) →
    let addrs := (List.range n).map (fun k => (ea + k) % 2 ^ 52)
    regionOf ea < 0xC → ea % n = 0 → (∀ p ∈ s.me.pend, p.acq = 0) → (if ret then s.me.ld < 63 else s.me.st < 63) →
    s.settleLoads addrs (s.corePends s.myCore) = some s1 →
    ∃ t p f, exec i s = .next t ∧ t.me.pend.getLast? = some p ∧ p.load = ret ∧ p.route = .atomic ∧ p.addrs = addrs ∧
      t.me.ld = s.me.ld + (if ret then 1 else 0) ∧ t.me.st = s.me.st + (if ret then 0 else 1) ∧ t.me.g = s.me.g ∧
      t.me.pc = (advance s.me).pc ∧ (LinesHere s1 → SameMemory s1 t) ∧ t.flights = s.flights ++ [f] ∧ f.key = s.sched.cur ∧ f.op = p.id ∧
      (∃ z, f.body = .atom op z ea x c (s.core s.myCore).asid (s.svc s.sched.cur) ∧ atomBytes z = n)

/-- R229, R230: what the owner of an address stores for each atomic: wrapping sums, bitwise operations, exchange, compare and
exchange, and the signed and natural extremes, at each size of 2, 4 and 8 bytes; no integer operation raises a flag. FADD stores the
floating sum under RNE at 2 and 4 bytes, with its flags. -/
def Sys2Proof.Claims.AtomicArithmetic : Prop :=
  ∀ op n old x c : Nat, (n = 2 ∨ n = 4 ∨ n = 8) → old < 2 ^ (8 * n) → x < 2 ^ (8 * n) → c < 2 ^ (8 * n) →
    ((op < 10 ∨ (op = 10 ∧ n ≠ 8)) → (atomNew op n old x c).1 = atomicStored op n old x c) ∧ (op < 10 → (atomNew op n old x c).2 = 0) ∧
    (op = 10 → n ≠ 8 → (atomNew op n old x c).2 = (floatSum n old x).2) ∧
    ((op < 10 ∨ (op = 10 ∧ n ≠ 8)) → (atomNew op n old x c).1 < 2 ^ (8 * n))

namespace Sys2Proof.Claims

open Sys2Proof.Machine

/-! ### Formatted vectors and tables (R45, R46, R124 to R130, R137, R138, R189) -/

/-- The byte addresses that a formatted access moves (R126, R189): the bytes of its active lanes, or the bytes of its sixteen codes
and those of their scales. -/
def formattedAddrs (c : Ctx) (core : Core) (p : Word) (m : Fld3) : List Nat :=
  let kind := p.toNat / 2 ^ 60
  let ea := p.toNat % 2 ^ 52
  let e := core.ftEntry (tagFmt p)
  let z := if kind = 0 then 64 else if kind = 1 ∨ kind = 4 then 4 else 2
  if kind < 5 then ((List.range 64).filter (fun k => (if kind = 0 then BitVec.allOnes 64 else rdM c m).getLsbD (k / z))).map (ea + ·)
  else (narrowParts e kind ea).flatten

/-- The address checks of a formatted access are passed (R186, R189). -/
def FormattedOk (s : State) (p : Word) (m : Fld3) : Prop :=
  let kind := p.toNat / 2 ^ 60
  let ea := p.toNat % 2 ^ 52
  let z := if 5 ≤ kind then 1 else if kind = 0 then 64 else if kind = 1 ∨ kind = 4 then 4 else 2
  regionOf ea < 0xD ∧ ea % z = 0 ∧
  s.partsCheck s.sched.cur (if kind < 5 then [formattedAddrs s.me (s.core s.myCore) p m]
    else narrowParts ((s.core s.myCore).ftEntry (tagFmt p)) kind ea) = .ok ()

/-- The tag of g[a] may be used by a formatted access under mask m (R46, R125, R189). -/
def TagOk (core : Core) (p : Word) (m : Fld3) (store : Bool) : Prop :=
  tagRefused (core.ftEntry (tagFmt p)) p = false ∧ (5 ≤ p.toNat / 2 ^ 60 → tagBlog p ≤ 4) ∧ (p.toNat / 2 ^ 60 = 0 → m = 0) ∧
  (store = true → 5 ≤ p.toNat / 2 ^ 60 → m = 0)

end Sys2Proof.Claims

/-- R46, R125, R189: VLDF and VSTF trap FMT, naming the pointer, when its tag does not agree with the format table, when its narrow
block is longer than sixteen elements, or when it names whole vectors under a mask. -/
def Sys2Proof.Claims.FormattedTagTraps : Prop :=
  ∀ (v a : Reg) (m : Fld3) (s : State), ¬TagOk (s.core s.myCore) (rdG s.me a) m false →
    exec (.vldf v a m) s = .next (trapAt s cFMT (rdG s.me a)) ∧ exec (.vstf v a m) s = .next (trapAt s cFMT (rdG s.me a))

/-- R189: VLDF whose tag and addresses pass and that nothing holds back counts once in LD and is outstanding, its destination the
whole vector, its active lanes, or sixteen FP32 lanes decoded under the tables and the mode of now. -/
def Sys2Proof.Claims.FormattedLoadIsIssued : Prop :=
  ∀ (v a : Reg) (m : Fld3) (s : State),
    let p := rdG s.me a
    let core := s.core s.myCore
    let kind := p.toNat / 2 ^ 60
    let addrs := formattedAddrs s.me core p m
    TagOk core p m false → FormattedOk s p m → (∀ q ∈ s.me.pend, q.acq = 0) → s.guardHit s.myCore addrs = false → s.me.ld < 63 →
    s.me.frm.toNat ≠ 4 →
    ∃ t q, exec (.vldf v a m) s = .next t ∧ q.load = true ∧ q.addrs = addrs ∧
      q.dst = (if kind = 0 then .v v else if kind < 5 then .lanes v (if kind = 1 ∨ kind = 4 then 4 else 2) (rdM s.me m)
        else .conv v kind (core.ftEntry (tagFmt p)) (rdM s.me m) s.me.frm s.me.seed core.dt core.dmode) ∧
      t.me = { advance (settled s.me) with ld := s.me.ld + 1, pend := s.me.pend ++ [q] } ∧
      (∀ k, k ≠ s.sched.cur → t.ctx k = s.ctx k) ∧ SameMemory s t

/-- R189: VSTF of a floating kind stores the bytes of its active lanes, and of a narrow kind without smoothing the codes of its
sixteen lanes and their scales, raising the flags of the encoding; it counts once in ST. -/
def Sys2Proof.Claims.FormattedStoreIsIssued : Prop :=
  ∀ (v a : Reg) (m : Fld3) (s s1 : State),
    let p := rdG s.me a
    let core := s.core s.myCore
    let kind := p.toNat / 2 ^ 60
    let e := core.ftEntry (tagFmt p)
    let w := kindWidth kind (ftWidth e)
    let all := leBytes 64 (rdV s.me v).toNat
    let xs := (List.range 16).map (fun k => unpack (fmtOf 0) (lane (rdV s.me v) 32 k))
    let q := quantise core.dt core.dmode kind w (ftBlog e) s.me.frm.toNat (xs.map (fun x => (x, 0)))
    let bytes := if kind < 5 then (formattedAddrs s.me core p m).map (fun b => all.getD (b - p.toNat % 2 ^ 52) 0)
      else leBytes (2 * w) (streamOf w q.1.codes) ++ q.2.map (BitVec.ofNat 8)
    let cells := (formattedAddrs s.me core p m).zip bytes
    TagOk core p m true → FormattedOk s p m → (kind = 5 → dtOrdered core.dt core.dmode = true) →
    (5 ≤ kind → ftSmen e = false ∧ s.me.frm.toNat ≠ 4) → StoreReady s s1 cells →
    ∃ t, exec (.vstf v a m) s = .next t ∧ StoreIssued s s1 t (p.toNat % 2 ^ 52) cells ∧
      t.me.fflags = s.me.fflags ||| (if kind < 5 then 0 else q.1.flags) ∧ t.me.seed = s.me.seed

/-- R129, R130, R137: DTWR sets the entry that its code decodes through so that the code decodes to the value written, in either
mode; DTMODE sets the mode; both leave the order bit as R130 defines it and change nothing else. DTRD reads the entry, the mode and
the order bit. -/
def Sys2Proof.Claims.DecodeTableInstructions : Prop :=
  ∀ (d a b : Reg) (s : State), (s.core s.myCore).dt.length = 256 →
    let core := s.core s.myCore
    let c := (rdG s.me a).toNat % 256
    (∃ t, exec (.dtwr a b) s = .next t ∧ t.me = advance (settled s.me) ∧ SameMemory s t ∧ (∀ n, n ≠ s.sched.cur → t.ctx n = s.ctx n) ∧
      dtPattern (t.core s.myCore).dt core.dmode c = BitVec.ofNat 19 (rdG s.me b).toNat ∧
      (∀ k, k < 256 → (if core.dmode then k % 128 ≠ c % 128 else k ≠ c) →
        dtPattern (t.core s.myCore).dt core.dmode k = dtPattern core.dt core.dmode k) ∧
      (∀ k, k < 256 → k ≠ (if core.dmode then c % 128 else c) → (t.core s.myCore).dt.getD k 0 = core.dt.getD k 0) ∧
      (t.core s.myCore).dt.length = 256 ∧
      (t.core s.myCore).ord = dtOrdered (t.core s.myCore).dt core.dmode ∧
      t.core s.myCore = { core with dt := (t.core s.myCore).dt, ord := (t.core s.myCore).ord } ∧
      (∀ n, n ≠ s.myCore → t.core n = s.core n)) ∧
    (∃ t, exec (.dtmode a) s = .next t ∧ t.me = advance (settled s.me) ∧ SameMemory s t ∧
      t.core s.myCore = { core with dmode := (rdG s.me a).getLsbD 0, ord := dtOrdered core.dt ((rdG s.me a).getLsbD 0) } ∧
      (∀ n, n ≠ s.myCore → t.core n = s.core n)) ∧
    (∃ t, exec (.dtrd d a) s = .next t ∧ OnlyMe s t ∧ SameMemory s t ∧
      (∀ r, rdG t.me r = if r = d ∧ d ≠ 0 then
        BitVec.ofNat 64 ((dtPattern core.dt core.dmode c).toNat + (if core.dmode then 2 ^ 32 else 0) + (if core.ord then 2 ^ 63 else 0))
        else rdG s.me r))

/-- R124, R138: FTWR of a legal record sets its entry, with VALID, once the record has been read; entry 0 and an illegal record trap
FMT, a record off a multiple of 32 bytes MISALIGN. -/
def Sys2Proof.Claims.FormatTableWritten : Prop :=
  ∀ (a b : Reg) (s s1 : State) (bytes : List Byte),
    let x := (rdG s.me a).toNat % 16
    let p := (rdG s.me b).toNat % 2 ^ 52
    let rec' : BitVec 256 := BitVec.ofNat 256 (leNat bytes)
    (x = 0 → exec (.ftwr a b) s = .next (trapNow s cFMT)) ∧
    (x ≠ 0 → p % 32 ≠ 0 → exec (.ftwr a b) s = .next (trapAt s cMISALIGN (BitVec.ofNat 64 p))) ∧
    (x ≠ 0 → p % 32 = 0 → regionOf p < 0xD → s.spCheck s.sched.cur (runAt p 32) = .ok () → (∀ q ∈ s.me.pend, q.acq = 0) →
      s.guardHit s.myCore (runAt p 32) = false →
      s.readBytes s.sched.cur s.sched.nextId false (runAt p 32) = some (s1, .ok bytes) →
      (ftRecordOk rec' = false → exec (.ftwr a b) s = .next (trapNow s1 cFMT)) ∧
      (ftRecordOk rec' = true → ∃ t, exec (.ftwr a b) s = .next t ∧ t.me = advance (settled s.me) ∧ SameMemory s1 t ∧
        (t.core s.myCore).ftEntry x = rec' ||| BitVec.ofNat 256 (2 ^ 15) ∧
        (∀ k, k ≠ x → (t.core s.myCore).ftEntry k = (s.core s.myCore).ftEntry k) ∧
        (∀ n, n ≠ s.myCore → t.core n = s.core n)))

/-- R138: FTRD stores the 32 bytes of its entry at an aligned address, and traps MISALIGN elsewhere. -/
def Sys2Proof.Claims.FormatTableRead : Prop :=
  ∀ (a b : Reg) (s s1 : State),
    let p := (rdG s.me b).toNat % 2 ^ 52
    let cells := (accessAddrs p 32 0).zip (leBytes 32 ((s.core s.myCore).ftEntry ((rdG s.me a).toNat % 16)).toNat)
    (p % 32 ≠ 0 → exec (.ftrd a b) s = .next (trapAt s cMISALIGN (BitVec.ofNat 64 p))) ∧
    (p % 32 = 0 → s.accessCheck s.sched.cur p 32 0 true = .ok () → StoreReady s s1 cells →
      ∃ t, exec (.ftrd a b) s = .next t ∧ StoreIssued s s1 t p cells)

namespace Sys2Proof.Claims

open Sys2Proof.Machine

/-! ### System registers (R143 to R145, R390) -/

/-- What a job-level system register reads as, by its number in R143. -/
def jobRegister (s : State) (n : Nat) : Option Word :=
  let c := s.me
  let k := s.core s.myCore
  match n with
  | 0x000 => some (BitVec.ofNat 64 (s.sched.cur % 8))
  | 0x001 => some (BitVec.ofNat 64 s.myCore)
  | 0x002 => some ((s.pkgOf k.asid).setWidth 64)
  | 0x003 => some (k.asid.setWidth 64)
  | 0x008 => some (c.taskTag.setWidth 64)
  | 0x009 => some (c.parent.setWidth 64)
  | 0x00A => some c.msgid
  | 0x00B => some (BitVec.ofNat 64 c.chan)
  | 0x010 => some (c.budget.setWidth 64)
  | 0x011 => some (c.budgetLeft.setWidth 64)
  | 0x012 => some (c.waitLimit.setWidth 64)
  | 0x018 => some (c.fflags.setWidth 64)
  | 0x019 => some (c.frm.setWidth 64)
  | 0x01A => some c.seed
  | 0x01B => some (k.aflags.setWidth 64)
  | 0x020 => some (k.trapCause.setWidth 64)
  | 0x021 => some (k.trapPc.setWidth 64)
  | 0x022 => some k.trapMsg
  | 0x023 => some k.trapAddr
  | 0x028 => some (k.hintDrop.setWidth 64)
  | 0x030 => some s.time
  | _ => none

/-- A number that R143 and R395 mark SV. -/
def serviceNumber (n : Nat) : Prop := (0x400 ≤ n ∧ n ≤ 0x47F) ∨ (0x800 ≤ n ∧ n ≤ 0x802) ∨ 0xC00 ≤ n

end Sys2Proof.Claims

/-- R8, R143, R144: SYSRD writes the register's value to its destination, and a read of HINTDROP clears it; of the core only that
may change, and of the context only the destination. -/
def Sys2Proof.Claims.SystemRegistersRead : Prop :=
  ∀ (d : Reg) (n : BitVec 12) (s : State) (x : Word), jobRegister s n.toNat = some x →
    ∃ t, exec (.sysrd d n) s = .next t ∧ SameMemory s t ∧
      (∀ r, rdG t.me r = if r = d ∧ d ≠ 0 then x else rdG s.me r) ∧ t.me = { advance (settled s.me) with g := t.me.g } ∧
      (∀ k, k ≠ s.sched.cur → t.ctx k = s.ctx k) ∧
      t.core s.myCore = { s.core s.myCore with hintDrop := if n = 0x028 then 0 else (s.core s.myCore).hintDrop }

/-- R8, R118, R143, R144: SYSWR of WAITLIMIT, FFLAGS, FRM and SEED sets them (FRM's reserved codes to 0, a zero SEED to 2^63); of
AFLAGS it clears the bits written 1; the other job-level registers ignore it. -/
def Sys2Proof.Claims.SystemRegistersWritten : Prop :=
  ∀ (a : Reg) (n : BitVec 12) (s : State) (x : Word), jobRegister s n.toNat = some x →
    let v := rdG s.me a
    let ro := advance (settled s.me)
    ∃ t, exec (.syswr a n) s = .next t ∧ SameMemory s t ∧ (∀ k, k ≠ s.sched.cur → t.ctx k = s.ctx k) ∧
      t.me = (match n.toNat with
        | 0x012 => { ro with waitLimit := BitVec.ofNat 32 v.toNat }
        | 0x018 => { ro with fflags := BitVec.ofNat 5 v.toNat }
        | 0x019 => { ro with frm := if v.toNat % 8 < 5 then BitVec.ofNat 3 v.toNat else 0 }
        | 0x01A => { ro with seed := if v = 0 then BitVec.ofNat 64 (2 ^ 63) else v }
        | _ => ro) ∧
      t.core s.myCore = { s.core s.myCore with aflags :=
        if n = 0x01B then (s.core s.myCore).aflags &&& ~~~(BitVec.ofNat 5 v.toNat) else (s.core s.myCore).aflags }

/-- R71, R143, R144, R395: at job level every SYSRD and SYSWR of a service register traps PRIV; at service level neither does: the
read delivers the register and the write reaches it. -/
def Sys2Proof.Claims.ServiceRegistersArePrivileged : Prop :=
  ∀ (d a : Reg) (n : BitVec 12) (s : State), serviceNumber n.toNat →
    (s.svc s.sched.cur = false → exec (.sysrd d n) s = .next (trapNow s cPRIV) ∧ exec (.syswr a n) s = .next (trapNow s cPRIV)) ∧
    (s.svc s.sched.cur = true →
      (∃ t, exec (.sysrd d n) s = .next t ∧ (d ≠ 0 → rdG t.me d = s.sysValue s.sched.cur n.toNat) ∧ t.me.pc = (advance s.me).pc) ∧
      (∃ t, exec (.syswr a n) s = .next t ∧ t.me.pc = (advance s.me).pc ∧ t.me.g = s.me.g ∧
        (0x400 ≤ n.toNat → n.toNat ≤ 0x47F → n.toNat % 2 = 0 →
          (t.chan s.myCore ((n.toNat - 0x400) / 2)).entry = BitVec.ofNat 50 ((rdG s.me a).toNat / 4)) ∧
        (0x400 ≤ n.toNat → n.toNat ≤ 0x47F → n.toNat % 2 = 1 →
          let h := t.chan s.myCore ((n.toNat - 0x400) / 2)
          h.prio = BitVec.ofNat 2 (rdG s.me a).toNat ∧ h.enable = (rdG s.me a).getLsbD 2 ∧ h.allot = (rdG s.me a).getLsbD 3 ∧
            h.atomh = (rdG s.me a).getLsbD 4 ∧ h.age = (s.chan s.myCore ((n.toNat - 0x400) / 2)).age)))

/-- R143, R144, R395: SYSRD and SYSWR of every number that is not a service register complete in every state, and of a service register
at service level: SYSRD delivers the register's value and SYSWR ends, each leaving the other contexts as they were. -/
def Sys2Proof.Claims.SystemRegisterAccessesComplete : Prop :=
  ∀ (d a : Reg) (n : BitVec 12) (s : State), (serviceNumber n.toNat → s.svc s.sched.cur = true) →
    (∃ t, exec (.sysrd d n) s = .next t ∧ SameMemory s t ∧ (∀ k, k ≠ s.sched.cur → t.ctx k = s.ctx k) ∧
      (∀ r, rdG t.me r = if r = d ∧ d ≠ 0 then s.sysValue s.sched.cur n.toNat else rdG s.me r) ∧
      t.me = { advance (settled s.me) with g := t.me.g }) ∧
    (∃ t, exec (.syswr a n) s = .next t ∧ (∀ k, k ≠ s.sched.cur → t.ctx k = s.ctx k) ∧
      t.me = { advance (settled s.me) with waitLimit := t.me.waitLimit, fflags := t.me.fflags, frm := t.me.frm, seed := t.me.seed })

/-- R178, R179, R390: IRQ of a vector that the job holds, with its release clear, ST below 63 and everything that ST counts done, raises
that vector: its message goes out when MSI-X is enabled and unmasked, and else the vector is pending. A vector beyond the allotment
traps PROT, naming it. -/
def Sys2Proof.Claims.IrqRaisesItsVector : Prop :=
  ∀ (a : Reg) (s : State) (j : Job), s.jobOn s.myCore = some j →
    let x := rdG s.me a
    let v := j.fld 3 21 11 + x.toNat
    (j.fld 3 32 12 ≤ x.toNat → exec (.irq a) s = .next (trapAt s cPROT x)) ∧
    (x.toNat < j.fld 3 32 12 → ReleaseClear s 2 → s.me.st < 63 →
      (∀ p ∈ s.me.pend, p.load = false → p.route = .unit → p.performed = true) →
      ∃ t, exec (.irq a) s = .next t ∧ t.me = advance (settled s.me) ∧ SameMemory s t ∧
        (s.dev.msixLets v = true → ∃ addr data, t.dev.out = s.dev.out ++ [.msix v addr data] ∧ v ∉ t.dev.msixPending) ∧
        (s.dev.msixLets v = false → t.dev.out = s.dev.out ∧ v ∈ t.dev.msixPending))

/-! ### The trap (R341 to R350) -/

/-- R343: taking a trap disables the channel of the activation, returns its message to the head of its queue with its slot and MSGID,
leaves cause, place, message and address in the four TRAP registers of a job core, discards the buffered sends, abandons the loads,
and frees the context once its stores are done; no scratchpad byte and no other context changes. -/
def Sys2Proof.Claims.TrapEndsTheActivation : Prop :=
  ∀ (s : State) (key : Nat) (t : TrapInfo),
    let u := s.takeTrap key t
    let core := coreOf key
    (u.chan core (s.ctx key).chan).enable = false ∧
    (∀ id, (s.ctx key).slot = some id → (∃ x ∈ (s.core core).inbox, x.id = id) →
      ∃ x ∈ (s.core core).inbox, x.id = id ∧ (u.core core).inbox.head? = some { x with busy := false }) ∧
    (s.svc key = false → (u.core core).trapCause = t.cause ∧ (u.core core).trapPc = t.pc ∧
      (u.core core).trapMsg = (s.ctx key).msgid ∧ (u.core core).trapAddr = t.faddr) ∧
    ((s.ctx key).st = 0 → u.ctx key = freed (s.ctx key)) ∧
    ((s.ctx key).st ≠ 0 → (u.ctx key).phase = .drain ∧ (u.ctx key).buffered = [] ∧ (u.ctx key).deferred = [] ∧
      (u.ctx key).ld = 0 ∧ (u.ctx key).st = (s.ctx key).st ∧ (∀ p ∈ (u.ctx key).pend, p.load = false)) ∧
    (∀ k, k ≠ key → u.ctx k = s.ctx k) ∧ (∀ a, 2 ^ 40 ≤ a → memGet u.mem.cells a = memGet s.mem.cells a)

/-- R350: TRAP traps TRAPI with its code as TCODE and a zero fault address. -/
def Sys2Proof.Claims.TrapInstructionTrapsItsCode : Prop :=
  ∀ (c : BitVec 12) (s : State), ∃ t : TrapInfo, exec (.trap c) s = .next (s.takeTrap s.sched.cur t) ∧
    t.cause = 0x14 ∧ t.tcode = c ∧ t.faddr = 0 ∧ t.token = 0 ∧ t.defer = false ∧ t.late = false ∧
    (s.me.rpt = none → t.word = s.me.ir ∧ t.pc = s.me.pc ∧ t.rpt = none)

/-- R72, R73, R98, R187, R356: the traps that come due at the boundary of a running context: an undefined word, a fetch that faults, a
spent budget, a wait past WAITLIMIT, and the first deferred fault to arrive, which names the place and the word of its access. The word of a
replayed place is the captured one (the model's reading, log entry 43). -/
def Sys2Proof.Claims.BoundaryTraps : Prop :=
  ∀ (s : State) (key : Nat), (s.ctx key).phase = .run →
    let c := s.ctx key
    (c.fetched = true → c.waiting = false →
      let s0 := atKey s key
      let op := (fMajor c.ir).toNat
      let illegal (u : State) : Prop := ∃ t : TrapInfo, t.cause = 0x01 ∧ t.faddr = 0 ∧
        t.word = (match c.rpt with | some r => r.frame.getD r.slot 0 | none => c.ir) ∧
        exec (.illegalInstruction key) s = .next (u.takeTrap key t)
      (op < 0x20 ∨ 0x24 < op → illegal s0) ∧
      (∀ s2 w1 w2, 0x20 ≤ op → op < 0x24 → FetchedFrom s0 (ownAddr c + 4) [w1, w2] s2 →
        (slotBanned w1 = false → slotBanned w2 = false → illegal s2) ∧
        ((slotBanned w1 = true ∨ slotBanned w2 = true) → exec (.illegalInstruction key) s = .next (trapNow s2 cDELAYSLOT))) ∧
      (∀ s2 ws, op = 0x24 → ws.length = c.ir.toNat / 2 ^ 22 % 16 + 1 → FetchedFrom s0 (c.pc + 4) ws s2 →
        (∀ w ∈ ws, arithClass w = true) → illegal s2)) ∧
    (c.waiting = false → c.rpt = none → ∀ s1 e, (atKey s key).fetch key c.pc = (s1, .error e) →
      ∃ t : TrapInfo, t.cause = e ∧ t.pc = c.pc ∧ t.word = 0 ∧ t.faddr = c.pc.setWidth 64 ∧
        exec (.instructionFetchFault key) s = .next (s1.takeTrap key t)) ∧
    (c.budgetLeft = 0 → ∃ t : TrapInfo, t.cause = 0x0B ∧ t.faddr = 0 ∧ exec (.budgetExpiry key) s = .next (s.takeTrap key t)) ∧
    (c.waiting = true → c.blocking = true → c.waitLimit.toNat < c.waited → c.budgetLeft ≠ 0 →
      ∃ t : TrapInfo, t.cause = 0x0C ∧ t.token = c.awaitTok ∧ exec (.waittimeExpiry key) s = .next (s.takeTrap key t)) ∧
    (∀ d ds, c.deferred = d :: ds → c.budgetLeft ≠ 0 → ∃ t : TrapInfo, t.cause = d.cause ∧ t.faddr = d.addr ∧ t.pc = d.access.pc ∧
      t.word = d.access.word ∧ t.defer = true ∧ exec (.deferredFault key) s = .next (s.takeTrap key t))

/-- R347: a store of a trapped activation that comes back with a fault lowers ST and sends one more record with its own cause and
address; the last one frees the context. -/
def Sys2Proof.Claims.LateStoreFaultIsReported : Prop :=
  ∀ (s : State) (key id : Nat) (p : Pend) (cause : BitVec 8) (addr : Word),
    (s.ctx key).phase = .drain → (s.ctx key).pend.find? (fun q => q.id == id) = some p → p.reply = some (.fault cause addr) →
    (s.ctx key).trapRec ≠ 0 →
    ∃ t m more, exec (.lateStoreFault key id) s = .next t ∧ t.mail = s.mail ++ more ++ [m] ∧ m.msg.kind = 11 ∧
      (m.msg.words[1].toNat % 256 = cause.toNat) ∧ m.msg.words[5] = addr ∧
      ((s.ctx key).st = 1 → t.ctx key = freed (s.ctx key)) ∧ (1 < (s.ctx key).st → (t.ctx key).st = (s.ctx key).st - 1)

namespace Sys2Proof.Claims

open Sys2Proof.Machine

/-! ### How accesses end (R174, R177, R180, R184, R186, R187, R198, R203, R229) -/

/-- The context `key` alone differs. -/
def OnlyCtx (s t : State) (key : Nat) : Prop := t = { s with ctxs := t.ctxs } ∧ ∀ k, k ≠ key → t.ctx k = s.ctx k

/-- The operation of a number is answered in its context: its parts fall by one, and its answer is `r` unless it was a fault. -/
def Answered (s t : State) (key id : Nat) (p : Pend) (r : Reply) : Prop :=
  (∀ q ∈ (t.ctx key).pend, q.id = id → ∃ o ∈ (s.ctx key).pend, o.id = id ∧ q = o.answered r) ∧
  ((p.counted = true ∨ 1 < p.parts) → p.answered r ∈ (t.ctx key).pend) ∧
  (∀ q, q.id ≠ id → (q ∈ (t.ctx key).pend → q ∈ (s.ctx key).pend) ∧
    (q ∈ (s.ctx key).pend → (q.counted = true ∨ q.parts ≠ 0) → q ∈ (t.ctx key).pend)) ∧
  (t.ctx key).g = (s.ctx key).g ∧ (t.ctx key).ld = (s.ctx key).ld ∧ (t.ctx key).st = (s.ctx key).st

end Sys2Proof.Claims

/-- R51, R180, R187, R189: LOAD_REPLY of a load whose data is here writes its register, extended by sign or by zero, its active lanes, or
its lanes decoded, scaled and rounded under the tables, the mode and the generator of its issue with their flags, and lowers LD; one that
came back with a fault writes none and reaches the context as a deferred fault. No other register and no byte of memory changes. -/
def Sys2Proof.Claims.LoadReplyWritesItsRegister : Prop :=
  ∀ (s : State) (key id : Nat) (p : Pend), (s.ctx key).pend.find? (fun q => q.id == id && q.load) = some p →
    p.route ≠ .atomic → p.parts = 0 →
    (∀ r signed b, p.dst = .g r signed → p.reply = some (.bytes b) →
      ∃ t, exec (.loadReply key id) s = .next t ∧ SameMemory s t ∧ (t.ctx key).ld = (s.ctx key).ld - 1 ∧
        (∀ x, rdG (t.ctx key) x = if x = r ∧ r ≠ 0 then
            (if signed then BitVec.ofInt 64 (Int.bmod (leNat b) (2 ^ (8 * b.length))) else BitVec.ofNat 64 (leNat b))
          else rdG (s.ctx key) x) ∧
        (t.ctx key).pend = (s.ctx key).pend.filter (fun q => decide (q.id ≠ id)) ∧ (t.ctx key).v = (s.ctx key).v ∧
        (t.ctx key).pc = (s.ctx key).pc ∧ (∀ k, k ≠ key → t.ctx k = s.ctx k) ∧
        (p.acq = 2 → ∀ l ∈ (t.core (coreOf key)).l1, l.asid ≠ (s.core (coreOf key)).asid)) ∧
    (∀ r b, p.dst = .v r → p.reply = some (.bytes b) →
      ∃ t, exec (.loadReply key id) s = .next t ∧ SameMemory s t ∧ (t.ctx key).ld = (s.ctx key).ld - 1 ∧
        rdV (t.ctx key) r = BitVec.ofNat 512 (leNat b) ∧ (∀ x, x ≠ r → rdV (t.ctx key) x = rdV (s.ctx key) x) ∧
        (t.ctx key).g = (s.ctx key).g) ∧
    (∀ r z m b, p.dst = .lanes r z m → (z = 4 ∨ z = 2) → p.reply = some (.bytes b) →
      ∃ t, exec (.loadReply key id) s = .next t ∧ SameMemory s t ∧ (t.ctx key).ld = (s.ctx key).ld - 1 ∧
        (∀ k, k < 64 / z → lane (rdV (t.ctx key) r) (8 * z) k = if m.getLsbD k then
            leNat ((List.range z).map (fun n => b.getD (z * ((List.range k).filter (fun j => m.getLsbD j)).length + n) 0))
          else lane (rdV (s.ctx key) r) (8 * z) k) ∧
        (∀ x, x ≠ r → rdV (t.ctx key) x = rdV (s.ctx key) x) ∧ (t.ctx key).g = (s.ctx key).g ∧
        (t.ctx key).fflags = (s.ctx key).fflags) ∧
    (∀ r kind e m frm seed dt mode b, p.dst = .conv r kind e m frm seed dt mode → p.reply = some (.bytes b) →
      let w := if kind = 5 then 8 else if kind = 8 then 1 else ftWidth e
      let before (k : Nat) : Nat := if frm = 4 then ((List.range k).filter (fun j => m.getLsbD j)).length else 0
      let value (k : Nat) : FVal :=
        let v := codeValue dt mode kind w (leNat (b.take (2 * w)) / 2 ^ (k * w) % 2 ^ w)
        if ftBlog e = 0 then v else scaled v (b.getD (2 * w + k / 2 ^ ftBlog e) 0).toNat
      let out (k : Nat) : Nat × BitVec 5 := roundTo (fmtOf 0) frm.toNat (if frm = 4 then (sr (drawn seed (before k))).2 else 0) (value k)
      ∃ t, exec (.loadReply key id) s = .next t ∧ SameMemory s t ∧ (t.ctx key).ld = (s.ctx key).ld - 1 ∧
        (∀ k, k < 16 → lane (rdV (t.ctx key) r) 32 k = if m.getLsbD k then (out k).1 else lane (rdV (s.ctx key) r) 32 k) ∧
        (∀ x, x ≠ r → rdV (t.ctx key) x = rdV (s.ctx key) x) ∧ (t.ctx key).g = (s.ctx key).g ∧
        (∀ f, (t.ctx key).fflags.getLsbD f = true ↔ ((s.ctx key).fflags.getLsbD f = true ∨
          ∃ k, k < 16 ∧ m.getLsbD k = true ∧ (out k).2.getLsbD f = true))) ∧
    (∀ c a, p.reply = some (.fault c a) →
      ∃ t, exec (.loadReply key id) s = .next t ∧ OnlyCtx s t key ∧
        t.ctx key = { s.ctx key with pend := (s.ctx key).pend.filter (fun q => decide (q.id ≠ id))
                                     deferred := (s.ctx key).deferred ++ [{ cause := c, addr := a, access := p }] })

/-- R170, R177, R186, R187: STORE_ACK of a store with bytes for its core's own banks writes exactly those bytes, unless they are
poisoned in part or outside the job's regions; one that is done lowers ST, and one that failed becomes a deferred fault. -/
def Sys2Proof.Claims.StoreAckWritesTheBanks : Prop :=
  ∀ (s : State) (key id : Nat) (p : Pend), (s.ctx key).pend.find? (fun q => q.id == id && !q.load && q.counted) = some p →
    p.route ≠ .atomic →
    (p.cells ≠ [] → s.sourceBlocked key id true (p.cells.map (·.1)) = false →
      s.spRefused (s.core (coreOf key)).asid (s.svc key) (p.cells.map (·.1)) = false → s.spWriteRefused p.cells = false →
      ∃ t, exec (.storeAck key id) s = .next t ∧
        (∀ a, (∀ c ∈ p.cells, c.1 ≠ a) → memGet t.mem.cells a = memGet s.mem.cells a) ∧
        (∀ c ∈ p.cells, (∀ d ∈ p.cells, d.1 = c.1 → d = c) → memGet t.mem.cells c.1 = c.2) ∧
        (t.ctx key).g = (s.ctx key).g ∧ (t.ctx key).st = (s.ctx key).st) ∧
    (p.cells = [] → p.parts = 0 → (∀ c a, p.reply ≠ some (.fault c a)) → (s.ctx key).phase = .run →
      ∃ t, exec (.storeAck key id) s = .next t ∧ OnlyCtx s t key ∧
        t.ctx key = { s.ctx key with st := (s.ctx key).st - 1, pend := (s.ctx key).pend.filter (fun q => decide (q.id ≠ id)) }) ∧
    (p.cells = [] → p.parts = 0 → (s.ctx key).phase = .run → ∀ c a, p.reply = some (.fault c a) →
      ∃ t, exec (.storeAck key id) s = .next t ∧ OnlyCtx s t key ∧
        t.ctx key = { s.ctx key with st := (s.ctx key).st - 1, pend := (s.ctx key).pend.filter (fun q => decide (q.id ≠ id))
                                     deferred := (s.ctx key).deferred ++ [{ cause := c, addr := a, access := p }] })

/-- R173, R186, R208: a load or store at another core's scratchpad is served there: REMOTE_LOAD answers with the bytes and changes
none, REMOTE_STORE writes exactly its bytes; outside the job's regions both answer REGION and change no byte. -/
def Sys2Proof.Claims.RemoteAccessesAreServedAtTheOwner : Prop :=
  ∀ (s : State) (f : Flight) (p : Pend) (owner : Nat) (asid : BitVec 16) (svc : Bool),
    s.flights.find? (fun g => g.id == f.id) = some f → s.deadTag asid f.tag = false →
    p ∈ (s.ctx f.key).pend → p.id = f.op →
    (∀ addrs, f.body = .rload owner addrs asid svc → s.sourceBlocked f.key f.op false addrs = false →
      ∃ t, exec (.remoteLoad f.id) s = .next t ∧ SameMemory s t ∧ (∀ g ∈ t.flights, g.id ≠ f.id) ∧
        (s.spRefused asid svc addrs = false → addrs.any s.spPoisoned = false →
          Answered s t f.key f.op p (.bytes (addrs.map (memGet s.mem.cells)))) ∧
        (s.spRefused asid svc addrs = true → ∃ a, Answered s t f.key f.op p (.fault 0x07 a))) ∧
    (∀ cells, f.body = .rstore owner cells asid svc → s.sourceBlocked f.key f.op true (cells.map (·.1)) = false →
      ∃ t, exec (.remoteStore f.id) s = .next t ∧ (∀ g ∈ t.flights, g.id ≠ f.id) ∧
        (∀ a, (∀ c ∈ cells, c.1 ≠ a) → memGet t.mem.cells a = memGet s.mem.cells a) ∧
        (s.spRefused asid svc (cells.map (·.1)) = false → s.spWriteRefused cells = false →
          (∀ c ∈ cells, (∀ d ∈ cells, d.1 = c.1 → d = c) → memGet t.mem.cells c.1 = c.2) ∧ Answered s t f.key f.op p .done) ∧
        (s.spRefused asid svc (cells.map (·.1)) = true → SameMemory s t ∧ ∃ a, Answered s t f.key f.op p (.fault 0x07 a)))

/-- R199, R203, R208: an entry leaves the store buffer for L2 at the address that its translation gives, and L2's acceptance writes
exactly its bytes at the home. -/
def Sys2Proof.Claims.BufferedStoresReachMemory : Prop :=
  ∀ (s : State),
    (∀ (core n pa : Nat) (e : SbEntry) (s1 : State) (leaf : Word), (s.core core).sb[n]? = some e →
      (s.modCore core (fun c => { c with sb := c.sb.filter (fun x => !(x.asid == e.asid && x.line == e.line && x.svc == e.svc)) })).translate
        (clusterOf core) e.asid (e.line * 64) .wr e.svc = (s1, .ok (pa, leaf)) →
      ∃ t x, exec (.storeBufferDrain core n) s = .next t ∧ SameMemory s1 t ∧ t.mem.l2q = s.mem.l2q ++ [x] ∧ x.core = core ∧
        x.asid = e.asid ∧ x.vline = e.line ∧ x.stores = e.stores ∧ x.cells = e.cells.map (fun c => (pa + c.1 % 64, c.2)) ∧
        (∀ y ∈ (t.core core).sb, ¬(y.asid = e.asid ∧ y.line = e.line ∧ y.svc = e.svc))) ∧
    (∀ (e : L2Store) (a0 : Nat), s.mem.l2q.find? (fun x => x.id == e.id) = some e → s.acceptReady e = true →
      s.homed e.asid a0 = true → (∀ c ∈ e.cells, lineOf c.1 = lineOf a0) → (e.cells.headD (0, 0)).1 = a0 →
      e.cells ≠ [] → s.paWriteRefused e.asid e.cells = false →
      ∃ t, exec (.l2StoreAccept e.id) s = .next t ∧ (∀ x ∈ t.mem.l2q, x.id ≠ e.id) ∧
        (∀ a, (∀ c ∈ e.cells, c.1 % 2 ^ 40 ≠ a) → memGet t.mem.cells a = memGet s.mem.cells a) ∧
        (∀ c ∈ e.cells, (∀ d ∈ e.cells, d.1 % 2 ^ 40 = c.1 % 2 ^ 40 → d = c) → memGet t.mem.cells (c.1 % 2 ^ 40) = c.2))

/-- R174, R198, R200: a walk that succeeds, its table lines read as a local read reads them (R206), enters its leaf into the cluster's
translation cache and changes no byte; a reclaimed region
that no scoreboard entry overlaps stops being live, and then its banks are zeroed, every other byte staying, and its entry is free. -/
def Sys2Proof.Claims.WalksAndReclaims : Prop :=
  ∀ (s : State),
    (∀ (cluster : Nat) (asid : BitVec 16) (va : BitVec 52) (leaf : Word) (level pa : Nat), cluster < 256 →
      let ready := s.readyWalk asid va.toNat
      (s.tlbFind cluster asid va.toNat) = none → ready.walk asid va.toNat = .ok (leaf, level, pa) →
      ∃ t, exec (.translationWalk cluster asid va) s = .next t ∧ SameMemory ready t ∧ (LinesHere s → SameMemory s t) ∧ t.ctxs = s.ctxs ∧
        (∃ x ∈ t.mem.tlb, x.cluster = cluster ∧ x.asid = asid ∧ x.leaf = leaf ∧ x.size = level ∧ x.page = va.toNat / 2 ^ levelBits level)) ∧
    (∀ (core n : Nat),
      let r := s.region core n
      let lo := spAddr core (r.first * 4096)
      (r.reclaim = 1 → (∀ g ∈ (s.core core).guards, spAddr core ((r.first + r.nbank) * 4096) ≤ g.lo ∨ g.hi ≤ lo) →
        ∃ t, exec (.regionReclaim core n) s = .next t ∧ t.region core n = { r with reclaim := 2 } ∧ SameMemory s t) ∧
      (r.reclaim = 2 →
        ∃ t, exec (.regionReclaim core n) s = .next t ∧ t.region core n = Region.initial ∧
          (∀ a, memGet t.mem.cells a = if lo ≤ a ∧ a < lo + r.nbank * 4096 then 0 else memGet s.mem.cells a) ∧
          (∀ m, m ≠ n → m < 32 → n < 32 → t.region core m = s.region core m)))

/-- R227, R229, R231, R232: an atomic served at its owner's scratchpad replaces exactly its bytes by what R229 gives and answers with the
old value. One of a channel with ATOMH starts the channel's handler on context 6, the request in q1 to q4, and is answered at its END: with
RET by g1 and the activation's flags, without by an acknowledgement, the flags going to AFLAGS. One that waits at its core leaves once nothing there is in its way; ATOMIC_REPLY writes that value to its register with the flags and lowers LD, or without RET lowers ST. -/
def Obligations.AtomicsAreServedAndAnswered : Prop :=
  ∀ (s : State),
    (∀ (core : Nat) (k : Core) (x : Slot), s.flights.find? (fun f => f.id == x.id) = none →
      s.cores.find? (fun p => p.2.inbox.any (fun y => y.id == x.id)) = some (core, k) → s.nextAtomic core = some x →
      (s.chan core x.chan).atomh = false →
      let ea := tagVa x.msg.words[1]
      let n := atomBytes ((x.msg.words[4]).extractLsb' 5 2).toNat
      let addrs := runAt ea n
      let old := leNat (addrs.map (memGet s.mem.cells))
      let new := (atomNew x.msg.chan n old x.msg.words[2].toNat x.msg.words[3].toNat).1
      ea + n ≤ 2 ^ 52 →
      s.spRefused x.msg.asid (isService (coreOf x.msg.ackKey)) addrs = false → addrs.any s.spPoisoned = false →
      ∃ t, exec (.builtinAtomic x.id) s = .next t ∧ (∀ y ∈ (t.core core).inbox, y.id ≠ x.id) ∧
        (∀ a, a < ea ∨ ea + n ≤ a → memGet t.mem.cells a = memGet s.mem.cells a) ∧
        (∀ k, k < n → memGet t.mem.cells (ea + k) = BitVec.ofNat 8 (new / 256 ^ k)) ∧
        (∀ p, p ∈ (s.ctx x.msg.ackKey).pend → p.id = x.msg.ackId → p.parts = 1 → p.counted = true → p.reply = none →
          ∃ q ∈ (t.ctx x.msg.ackKey).pend, q.id = p.id ∧ q.parts = 0 ∧
            q.reply = some (if (x.msg.words[4]).getLsbD 7 then
              .old (BitVec.ofNat 64 old) (atomNew x.msg.chan n old x.msg.words[2].toNat x.msg.words[3].toNat).2 else .done))) ∧
    (∀ (core : Nat) (x : Slot), s.selectionHeld core = false → s.nextAtomic core = some x → x.msg.kind = 4 →
      (s.chan core x.chan).atomh = true → (∀ y ∈ (s.core core).inbox, y.id = x.id → y = x) →
      ∃ t, exec (.atomicHandlerActivation core) s = .next t ∧ SameMemory s t ∧ (∀ k, k ≠ core * 8 + 6 → t.ctx k = s.ctx k) ∧
        (∀ y ∈ (t.core core).inbox, y.id = x.id → y.busy = true) ∧
        (let c := t.ctx (core * 8 + 6)
         c.phase = .run ∧ c.pc = (s.chan core x.chan).entry ++ (0 : BitVec 2) ∧ c.q = x.msg.words ∧ c.chan = x.chan ∧ c.taskTag = x.msg.tag ∧
           c.msgid = x.msgid ∧ c.slot = some x.id ∧ (∀ r, rdG c r = 0) ∧ c.fflags = 0 ∧ c.ld = 0 ∧ c.st = 0)) ∧
    (∀ (id : Nat) (x : Slot), s.sched.cur % 8 = 6 → s.me.st = 0 → s.me.slot = some id → (s.core s.myCore).inbox.find? (fun y => y.id == id) = some x →
      x.msg.kind = 4 → x.msg.ackKey ≠ s.sched.cur →
      ∃ t, exec .endAct s = .next t ∧ t.me = freed s.me ∧ (∀ y ∈ (t.core s.myCore).inbox, y.id ≠ id) ∧ SameMemory s t ∧
        (t.core s.myCore).aflags = (s.core s.myCore).aflags ||| (if (x.msg.words[4]).getLsbD 7 then 0 else s.me.fflags) ∧
        (∀ p, p ∈ (s.ctx x.msg.ackKey).pend → p.id = x.msg.ackId → p.parts = 1 → p.counted = true → p.reply = none →
          ∃ q ∈ (t.ctx x.msg.ackKey).pend, q.id = p.id ∧ q.parts = 0 ∧
            q.reply = some (if (x.msg.words[4]).getLsbD 7 then .old (rdG s.me 1) s.me.fflags else .done))) ∧
    (∀ (f : Flight) (m : Msg) (addrs : List Nat), s.flights.find? (fun g => g.id == f.id) = some f → f.body = .held m addrs →
      (s.sourceBlocked f.key f.op true addrs = true → exec (.builtinAtomic f.id) s = .next s) ∧
      (s.sourceBlocked f.key f.op true addrs = false → ∃ t y, exec (.builtinAtomic f.id) s = .next t ∧ SameMemory s t ∧
        (∀ g ∈ t.flights, g.id ≠ f.id) ∧ t.mail = s.mail ++ [y] ∧ y.msg = m ∧ y.src = f.src ∧ t.ctxs = s.ctxs)) ∧
    (∀ (key id : Nat) (p : Pend), (s.ctx key).pend.find? (fun q => q.id == id && decide (q.route = .atomic) && q.ready) = some p →
      (∀ d n v fl, p.load = true → p.dst = .old d n → p.reply = some (.old v fl) → v.toNat < 2 ^ (8 * n) → n ≤ 8 →
        ∃ t, exec (.atomicReply key id) s = .next t ∧ OnlyCtx s t key ∧ (t.ctx key).ld = (s.ctx key).ld - 1 ∧
          (∀ r, rdG (t.ctx key) r = if r = d ∧ d ≠ 0 then v else rdG (s.ctx key) r) ∧
          (t.ctx key).fflags = (s.ctx key).fflags ||| fl ∧
          (t.ctx key).pend = (s.ctx key).pend.filter (fun q => decide (q.id ≠ id))) ∧
      (p.load = false → (s.ctx key).phase = .run → p.reply = some .done →
        ∃ t, exec (.atomicReply key id) s = .next t ∧ OnlyCtx s t key ∧
          t.ctx key = { s.ctx key with st := (s.ctx key).st - 1, pend := (s.ctx key).pend.filter (fun q => decide (q.id ≠ id)) }))

namespace Sys2Proof.Claims

open Sys2Proof.Machine

/-! ### Messages, channels and activations (R88 to R110) -/

/-- Bits [hi:lo] of a word, as a number. -/
def fieldOf (x : Word) (hi lo : Nat) : Nat := x.toNat / 2 ^ lo % 2 ^ (hi + 1 - lo)

/-- Word 0 of a message has these fields (R101). -/
def HasHeader (w : Word) (kind chan tag dest src serial : Nat) : Prop :=
  fieldOf w 63 60 = kind ∧ fieldOf w 59 54 = chan ∧ fieldOf w 53 38 = tag ∧ fieldOf w 37 26 = dest ∧ fieldOf w 25 14 = src ∧
  fieldOf w 13 0 = serial

/-- The destination and the channel of a send are allowed to the issuer (R101, R440). -/
def MayReach (s : State) (dest chan : Nat) : Prop :=
  s.svc s.sched.cur = true ∨
    (s.ownerRefused (s.core s.myCore).asid dest = false ∧ (s.chan s.myCore chan).allot = true ∧ (s.chan s.myCore chan).atomh = false)

end Sys2Proof.Claims

/-- R94, R101: SEND injects one message with the KIND, CHAN and DEST of w0 and the payload of w1 to w7, TAG, SRC and SERIAL filled in,
and takes the next SERIAL of its core; SEND.C keeps the same message in the context until the activation ends. Neither changes a
register or a byte of memory. -/
def Sys2Proof.Claims.SendsCarryTheMessageRegisters : Prop :=
  ∀ (s : State),
    let w0 := s.me.w[0]
    let kind := fieldOf w0 63 60
    let chan := fieldOf w0 59 54
    let dest := fieldOf w0 37 26
    let made (m : Msg) : Prop :=
      HasHeader m.words[0] kind chan s.me.taskTag.toNat dest (s.myCore % 4096) (s.core s.myCore).serial.toNat ∧
      (∀ k : Fin 8, k.val ≠ 0 → m.words[k] = s.me.w[k]) ∧ m.asid = (s.core s.myCore).asid
    (kind = 0 ∨ kind = 1 ∨ kind = 11) → MayReach s dest chan → (∀ p ∈ s.me.pend, p.acq = 0) →
    ¬(s.sched.cur % 8 = 7 ∧ dest = s.myCore) →
    (∃ t m, exec .send s = .next t ∧ t.mail = s.mail ++ [m] ∧ m.dest = dest ∧ m.src = s.myCore ∧ made m.msg ∧
      t.me.g = s.me.g ∧ t.me.w = s.me.w ∧ t.me.st = s.me.st ∧ t.me.pc = (advance s.me).pc ∧
      (t.core s.myCore).serial = (s.core s.myCore).serial + 1 ∧ SameMemory s t ∧ (∀ k, k ≠ s.sched.cur → t.ctx k = s.ctx k)) ∧
    (s.me.buffered.length < 8 →
      ∃ t m, exec .sendC s = .next t ∧ t.mail = s.mail ∧ made m ∧
        t.me = { advance (settled s.me) with buffered := s.me.buffered ++ [m] } ∧
        (t.core s.myCore).serial = (s.core s.myCore).serial + 1 ∧ SameMemory s t)

/-- R101, R342, R440: SEND and SEND.C of a KIND other than 0, 1 or 11, to a core outside the job, and SEND.C with eight messages
buffered trap SENDBAD naming the destination; a channel outside the allotment traps CHANBAD naming the channel. -/
def Sys2Proof.Claims.SendRefusals : Prop :=
  ∀ (s : State),
    let w0 := s.me.w[0]
    let kind := fieldOf w0 63 60
    let chan := fieldOf w0 59 54
    let dest := fieldOf w0 37 26
    let bad : Out := .next (trapAt s 0x11 (BitVec.ofNat 64 dest))
    ¬(s.sched.cur % 8 = 7 ∧ dest = s.myCore) →
    (kind ≠ 0 ∧ kind ≠ 1 ∧ kind ≠ 11 → exec .send s = bad ∧ exec .sendC s = bad) ∧
    ((kind = 0 ∨ kind = 1 ∨ kind = 11) → s.svc s.sched.cur = false → s.ownerRefused (s.core s.myCore).asid dest = true →
      exec .send s = bad ∧ exec .sendC s = bad) ∧
    ((kind = 0 ∨ kind = 1 ∨ kind = 11) → s.svc s.sched.cur = false → s.ownerRefused (s.core s.myCore).asid dest = false →
      ((s.chan s.myCore chan).allot = false ∨ (s.chan s.myCore chan).atomh = true) →
      exec .send s = .next (trapAt s 0x12 (BitVec.ofNat 64 chan)) ∧ exec .sendC s = .next (trapAt s 0x12 (BitVec.ofNat 64 chan))) ∧
    ((kind = 0 ∨ kind = 1 ∨ kind = 11) → MayReach s dest chan → s.me.buffered.length = 8 → exec .sendC s = bad)

/-- R102: START sends one KIND 0 message to the core, channel and task of its operand, with the handler's address, w2, w3 and the
issuer's own tag, core and foster channel in word 4. -/
def Sys2Proof.Claims.StartSendsItsTask : Prop :=
  ∀ (a b : Reg) (s : State),
    let x := rdG s.me a
    let dest := fieldOf x 11 0
    let chan := fieldOf x 17 12
    let tag := fieldOf x 33 18
    let foster := fieldOf x 39 34
    fieldOf x 63 40 = 0 → (rdG s.me b).toNat % 4 = 0 → MayReach s dest chan → MayReach s dest foster → (∀ p ∈ s.me.pend, p.acq = 0) →
    ∃ t m, exec (.start a b) s = .next t ∧ t.mail = s.mail ++ [m] ∧ m.dest = dest ∧
      HasHeader m.msg.words[0] 0 chan (if tag = 0 then s.me.taskTag.toNat else tag) dest (s.myCore % 4096) (s.core s.myCore).serial.toNat ∧
      m.msg.words[1] = rdG s.me b ∧ m.msg.words[2] = s.me.w[2] ∧ m.msg.words[3] = s.me.w[3] ∧
      m.msg.words[4].toNat = (s.me.taskTag.toNat + 2 ^ 16 * s.myCore + 2 ^ 28 * foster) % 2 ^ 64 ∧
      t.me.g = s.me.g ∧ t.me.st = s.me.st ∧ t.me.pc = (advance s.me).pc ∧ SameMemory s t ∧ (∀ k, k ≠ s.sched.cur → t.ctx k = s.ctx k)

/-- R103, R382: SPAWN of a declared level whose units are all in this package sends one START for each of its units, to their leaders in
order, with the issuer's argument and the unit's index, and counts once in ST until all of them are queued. -/
def Sys2Proof.Claims.SpawnStartsEveryUnit : Prop :=
  ∀ (a b : Reg) (s : State) (j : Job), s.jobOn s.myCore = some j →
    let x := rdG s.me a
    let l := fieldOf x 2 0
    let n := j.level l 0 16 13
    let units := (s.levelUnits j l).take n
    fieldOf x 63 25 = 0 → l ≠ 0 → l ≤ j.nlevel → units.length = n → (∀ u ∈ units, u.entry = none) →
    (s.svc s.sched.cur = true ∨ ((s.chan s.myCore (fieldOf x 24 19)).allot = true ∧ (s.chan s.myCore (fieldOf x 24 19)).atomh = false)) →
    (∀ p ∈ s.me.pend, p.acq = 0) → s.me.st < 63 →
    ∃ t ms, exec (.spawn a b) s = .next t ∧ t.mail = s.mail ++ ms ∧ ms.length = n ∧ t.me.st = s.me.st + 1 ∧ t.me.g = s.me.g ∧
      t.me.pc = (advance s.me).pc ∧ SameMemory s t ∧
      (∀ i m u, ms[i]? = some m → units[i]? = some u → m.dest = u.leader % 4096 ∧ m.msg.kind = 0 ∧ m.msg.words[2] = rdG s.me b ∧
        m.msg.words[3] = BitVec.ofNat 64 i) ∧
      (∃ p, t.me.pend = s.me.pend ++ [p] ∧ p.parts = n ∧ p.counted = true)

/-- R104, R105: END, YIELD and MIGR, their stores done, inject the buffered messages in order and free the context. END frees the slot of the
activation's message; YIELD puts that message at the tail of its queue; MIGR sends a CONT with g1 to g6 to the core of its operand. -/
def Sys2Proof.Claims.ActivationsEnd : Prop :=
  ∀ (a : Reg) (s : State) (id : Nat), s.me.st = 0 → s.me.slot = some id →
    let core := s.myCore
    let isMine (x : Slot) : Prop := x.id = id
    let buffered (ms : List Mail) : Prop := ms.map (·.msg) = s.me.buffered ∧ ∀ m ∈ ms, m.src = core
    (∃ t ms, exec .endAct s = .next t ∧ t.me = freed s.me ∧ t.mail = s.mail ++ ms ∧ buffered ms ∧
      (∀ x, x ∈ (t.core core).inbox ↔ x ∈ (s.core core).inbox ∧ ¬isMine x) ∧ SameMemory s t) ∧
    (∃ t ms, exec .yield s = .next t ∧ t.me = freed s.me ∧ t.mail = s.mail ++ ms ∧ buffered ms ∧
      (t.core core).inbox = (s.core core).inbox.filter (fun x => decide (x.id ≠ id)) ++
        ((s.core core).inbox.filter (fun x => decide (x.id = id))).map (fun x => { x with busy := false }) ∧ SameMemory s t) ∧
    (let dest := (rdG s.me a).toNat / 2 ^ 36 % 2 ^ 12
     s.sched.cur % 8 < 6 → fieldOf (rdG s.me a) 51 48 = 0xC →
     (s.svc s.sched.cur = true ∨ s.ownerRefused (s.core core).asid dest = false) → s.me.pend = [] → s.me.deferred = [] →
     ∃ t m ms, exec (.migr a) s = .next t ∧ t.me = freed s.me ∧ t.mail = s.mail ++ m :: ms ∧ buffered ms ∧ m.dest = dest ∧
       HasHeader m.msg.words[0] 7 (s.me.chan % 64) s.me.taskTag.toNat dest (core % 4096) (s.core core).serial.toNat ∧
       fieldOf m.msg.words[1] 49 0 = (s.me.pc.toNat + 4) % 2 ^ 52 / 4 ∧ fieldOf m.msg.words[1] 55 50 = 0 ∧
       fieldOf m.msg.words[1] 60 56 = s.me.fflags.toNat ∧ fieldOf m.msg.words[1] 63 61 = s.me.frm.toNat ∧
       (∀ k : Fin 6, m.msg.words[k.val + 2] = rdG s.me (BitVec.ofNat 5 (k.val + 1))) ∧
       (∀ x, x ∈ (t.core core).inbox ↔ x ∈ (s.core core).inbox ∧ ¬isMine x) ∧ SameMemory s t)

/-- R104, R105: with stores outstanding, END and YIELD wait at their place; MIGR from context 6 or 7, or to an operand that is no
scratchpad address, traps MIGRBAD naming the operand. -/
def Sys2Proof.Claims.ActivationsDoNotEndEarly : Prop :=
  ∀ (a : Reg) (s : State),
    (s.me.st ≠ 0 → ∃ t, exec .endAct s = .next t ∧ exec .yield s = .next t ∧ OnlyMe s t ∧
      t.me = { s.me with waiting := true, blocking := false, waited := waitedIn s false }) ∧
    ((6 ≤ s.sched.cur % 8 ∨ fieldOf (rdG s.me a) 51 48 ≠ 0xC) → exec (.migr a) s = .next (trapAt s 0x13 (rdG s.me a)))

/-- R107: ALIGN ends when no context of another core of the cluster and the same job lags behind it within 1,024 bytes, or once it has
waited 256 cycles, and waits otherwise; ALIGN_RELEASE ends such a wait while the activation has budget left (R98). -/
def Sys2Proof.Claims.AlignWaitsForLaggards : Prop :=
  ∀ (s : State) (key : Nat),
    (s.lagging s.sched.cur = false ∨ 256 ≤ s.me.waited → ∃ t, exec .align s = .next t ∧ OnlyMe s t ∧ t.me = advance (settled s.me)) ∧
    (s.lagging s.sched.cur = true → s.me.waited < 256 →
      ∃ t, exec .align s = .next t ∧ OnlyMe s t ∧ t.me = { s.me with waiting := true, blocking := false, waited := waitedIn s false }) ∧
    ((s.ctx key).phase = .run → (s.ctx key).waiting = true → (s.ctx key).budgetLeft ≠ 0 → (s.ctx key).ir = 0x980001C0#32 →
      (s.lagging key = false ∨ 256 ≤ (s.ctx key).waited) →
      ∃ t, exec (.alignRelease key) s = .next t ∧ OnlyCtx s t key ∧ t.ctx key = advance (settled (s.ctx key)))

/-- R108: CHEN, CHDIS and CHPRI of a channel of the own core set its ENABLE or its PRIO and leave its entry, its other bits and every other
channel; of another core they send a packet that does so there on its arrival. -/
def Sys2Proof.Claims.ChannelControl : Prop :=
  ∀ (a b : Reg) (s : State),
    let x := rdG s.me a
    let c := fieldOf x 5 0
    let other := x.getLsbD 18
    let dest := fieldOf x 17 6
    let prio := BitVec.ofNat 2 (rdG s.me b).toNat
    (s.svc s.sched.cur = true ∨ (s.chan s.myCore c).allot = true) →
    ((other = false ∨ (dest = s.myCore ∧ s.destRefused s.sched.cur dest = false)) →
      let h := s.chan s.myCore c
      let done (t : State) (e : Bool) (p : BitVec 2) : Prop := t.me = advance (settled s.me) ∧ SameMemory s t ∧
        (∃ sp, t.chan s.myCore c = { h with enable := e, prio := p, spill := sp } ∧ (s.sched.cur % 8 ≠ 7 → sp = h.spill)) ∧
        (∀ k n, k * 64 + n ≠ s.myCore * 64 + c → t.chan k n = s.chan k n)
      (∃ t, exec (.chen a) s = .next t ∧ done t true h.prio) ∧ (∃ t, exec (.chdis a) s = .next t ∧ done t false h.prio) ∧
      (∃ t, exec (.chpri a b) s = .next t ∧ done t h.enable prio)) ∧
    (other = true → dest ≠ s.myCore → s.destRefused s.sched.cur dest = false →
      let sent (i : Instr) (act : Nat) (p : BitVec 2) : Prop :=
        ∃ t f, exec i s = .next t ∧ t.flights = s.flights ++ [f] ∧ f.body = .chanCtl dest c act p (s.core s.myCore).asid ∧
          t.me = advance (settled s.me) ∧ t.chans = s.chans ∧ SameMemory s t
      sent (.chen a) 0 0 ∧ sent (.chdis a) 1 0 ∧ sent (.chpri a b) 2 prio)

/-- R108: a channel-control packet acts on its channel when no earlier one from its source to that core is still on its way. One whose job
is not on the core leaves the table of the core as it is (R24, R359; the model's choice, log entry 45). -/
def Sys2Proof.Claims.ChannelControlPackets : Prop :=
  ∀ (s : State) (f : Flight) (t c act : Nat) (prio : BitVec 2) (asid : BitVec 16),
    s.flights.find? (fun g => g.id == f.id) = some f → f.body = .chanCtl t c act prio asid →
    (∀ g ∈ s.flights, g.id < f.id → g.src = f.src → ∀ c' a' p' i', g.body ≠ .chanCtl t c' a' p' i') →
    ∃ u, exec (.channelControlPacket f.id) s = .next u ∧ (∀ g ∈ u.flights, g.id ≠ f.id) ∧ SameMemory s u ∧ u.ctxs = s.ctxs ∧
      ((s.core t).hasJob = true → (s.core t).asid ≠ asid → isService f.src = false → isService t = false → u.chans = s.chans) ∧
      (isService f.src = true ∨ isService t = true ∨ ((s.core t).hasJob = true ∧ (s.core t).asid = asid) →
       (act = 0 → (u.chan t c).enable = true) ∧ (act = 1 → (u.chan t c).enable = false) ∧ (2 ≤ act → (u.chan t c).prio = prio))

/-- R109, R110, R172: RALLOC of a legal size takes the first free entry and the lowest run of free banks and writes the region's number and offset; with
no entry or no run it writes bit 63 and 1 or 2; an illegal size or attribute traps REGION. RFREE of a region that the program allocated ends
its life. -/
def Sys2Proof.Claims.RegionsAllocatedAndFreed : Prop :=
  ∀ (d a b : Reg) (s : State),
    let core := s.myCore
    let size := (rdG s.me a).toNat
    let attr := (rdG s.me b).toNat
    let unused (n : Nat) : Bool := let r := s.region core n; r.nbank == 0 || decide (2 ≤ r.reclaim)
    let ends (t : State) (x : Word) : Prop := (∀ r, rdG t.me r = if r = d ∧ d ≠ 0 then x else rdG s.me r) ∧
      t.me = { advance (settled s.me) with g := t.me.g } ∧ SameMemory s t
    (size % 4096 ≠ 0 ∨ size = 0 ∨ 786432 < size ∨ 2 < attr → exec (.ralloc d a b) s = .next (trapAt s 0x07 (rdG s.me a))) ∧
    (size % 4096 = 0 → size ≠ 0 → size ≤ 786432 → attr ≤ 2 →
      (((List.range 32).find? unused = none → ∃ t, exec (.ralloc d a b) s = .next t ∧ ends t (BitVec.ofNat 64 (2 ^ 63 + 1)) ∧ OnlyMe s t)) ∧
      (∀ n, (List.range 32).find? unused = some n → s.firstFit core attr (size / 4096) = none →
        ∃ t, exec (.ralloc d a b) s = .next t ∧ ends t (BitVec.ofNat 64 (2 ^ 63 + 2)) ∧ OnlyMe s t) ∧
      (∀ n first, (List.range 32).find? unused = some n → s.firstFit core attr (size / 4096) = some first →
        (∀ k, k < 32 → (s.region core k).reclaim < 2) →
        ∃ t, exec (.ralloc d a b) s = .next t ∧ ends t (BitVec.ofNat 64 (n * 2 ^ 20 + first * 4096)) ∧
          t.region core n = { first := first, nbank := size / 4096, origin := .ralloc, task := s.me.taskTag, asid := (s.core core).asid, reclaim := 0 } ∧
          (∀ m, m < 32 → m ≠ n → t.region core m = s.region core m))) ∧
    (let n := fieldOf (rdG s.me a) 24 20
     let r := s.region core n
     r.nbank ≠ 0 → r.reclaim < 2 → r.first * 4096 = fieldOf (rdG s.me a) 19 0 → r.asid = (s.core core).asid → r.origin = .ralloc →
     (s.core core).guards = [] →
     ∃ t, exec (.rfree a) s = .next t ∧ t.me = advance (settled s.me) ∧ SameMemory s t ∧ t.region core n = { r with reclaim := 2 } ∧
       (∀ m, m < 32 → m ≠ n → t.region core m = s.region core m))

/-- R90, R91, R96, R97, R232: how an activation begins. Channel selection runs the oldest waiting message of the selected channel on the lowest free
general context at the channel's handler; a spilled message starts Collie on context 7, as does a replay with no message; a handled atomic
starts its handler on context 6. The context holds the message in q0 to q7 and its task's tag. -/
def Sys2Proof.Claims.ActivationsBegin : Prop :=
  ∀ (s : State) (core : Nat), s.selectionHeld core = false →
    (∀ key c x, s.freeGeneral core = some key → s.selected core = some c →
      (s.core core).inbox.find? (fun y => y.chan == c && !y.busy && !(y.msg.kind == 4)) = some x → x.msg.kind ≠ 0 → x.msg.kind ≠ 7 →
      (∀ y ∈ (s.core core).inbox, y.id = x.id → y = x) →
      ∃ t, exec (.channelSelection core) s = .next t ∧ (t.ctx key).phase = .run ∧ (t.ctx key).pc = (s.chan core c).pc ∧
        (t.ctx key).q = x.msg.words ∧ (t.ctx key).taskTag = x.msg.tag ∧ (t.ctx key).chan = c ∧ (t.ctx key).slot = some x.id ∧
        (t.core core).last = c ∧ (t.chan core c).age = 0 ∧ (∀ k, k ≠ key → t.ctx k = s.ctx k) ∧ SameMemory s t ∧
        (∀ y ∈ (t.core core).inbox, y.id = x.id → y.busy = true)) ∧
    (∀ x, (s.ctx (core * 8 + 7)).phase = .free → (s.jobOn core).isSome → earliest (s.spillWaiting core) = some x →
      ∃ t, exec (.spillActivation core) s = .next t ∧ (t.ctx (core * 8 + 7)).phase = .run ∧ (t.ctx (core * 8 + 7)).pc = s.colliePc core ∧
        (t.ctx (core * 8 + 7)).q = x.msg.words ∧ (t.ctx (core * 8 + 7)).slot = some x.id) ∧
    (∀ c, (s.ctx (core * 8 + 7)).phase = .free → (s.jobOn core).isSome → (s.core core).inbox.length ≤ 192 →
      (List.range 64).find? (fun k => (s.chan core k).spill) = some c →
      ∃ t, exec (.replayActivation core) s = .next t ∧ (t.ctx (core * 8 + 7)).phase = .run ∧ (t.ctx (core * 8 + 7)).pc = s.colliePc core ∧
        (t.ctx (core * 8 + 7)).chan = c ∧ (t.ctx (core * 8 + 7)).slot = none) ∧
    (∀ x, s.nextAtomic core = some x → (s.chan core x.chan).atomh = true →
      ∃ t, exec (.atomicHandlerActivation core) s = .next t ∧ (t.ctx (core * 8 + 6)).phase = .run ∧
        (t.ctx (core * 8 + 6)).pc = (s.chan core x.chan).pc ∧ (t.ctx (core * 8 + 6)).q = x.msg.words)

/-- R91, R96, R380: the state of a context in which channel selection starts a START, a CONT or another message: the PC of word 1, or the
channel's entry; q0 to q7, TASKTAG, CHAN, MSGID and PARENT; every register, mask and message register zero, and the counters, but that a CONT
brings g1 to g6, LD, FFLAGS and FRM (and with them the replies that came before it, of which there are none here); BUDGET, BUDGETLEFT and
WAITLIMIT at the budget of R380, the largest among the levels of the core whose entry channel it is, else among those of the core, else of the
job. -/
def Sys2Proof.Claims.StartsAndContinuationsBegin : Prop :=
  ∀ (s : State) (core key c : Nat) (x : Slot), s.selectionHeld core = false → s.freeGeneral core = some key → s.selected core = some c →
    (s.core core).inbox.find? (fun y => y.chan == c && !y.busy && !(y.msg.kind == 4)) = some x →
    (x.msg.kind = 7 → (s.core core).lateFor x.msg = []) →
    ∃ t, exec (.channelSelection core) s = .next t ∧ SameMemory s t ∧ (∀ k, k ≠ key → t.ctx k = s.ctx k) ∧
      (let k := t.ctx key
       let w := x.msg.words
       let bits (v : Word) (hi lo : Nat) : Nat := v.toNat / 2 ^ lo % 2 ^ (hi + 1 - lo)
       k.phase = .run ∧ k.q = w ∧ k.taskTag = x.msg.tag ∧ k.chan = c ∧ k.msgid = x.msgid ∧ k.slot = some x.id ∧
       k.parent = (((s.core core).tasks.find? (fun u => u.tag == x.msg.tag)).map (·.parent)).getD 0 ∧
       k.pc = (if x.msg.kind = 0 then BitVec.ofNat 52 (bits w[1] 51 2 * 4) else if x.msg.kind = 7 then BitVec.ofNat 52 (bits w[1] 49 0 * 4)
         else (s.chan core c).entry ++ (0 : BitVec 2)) ∧
       (x.msg.kind ≠ 7 → (∀ r, rdG k r = 0) ∧ k.ld = 0 ∧ k.fflags = 0 ∧ k.frm = 0) ∧
       (x.msg.kind = 7 → (∀ n : Fin 6, rdG k (BitVec.ofNat 5 (n.val + 1)) = w[n.val + 2]) ∧ (∀ r : Reg, 7 ≤ r.toNat → rdG k r = 0) ∧
         k.ld = bits w[1] 55 50 ∧ k.fflags.toNat = bits w[1] 60 56 ∧ k.frm.toNat = bits w[1] 63 61) ∧
       (∀ r, rdV k r = 0) ∧ (∀ r : Fin 8, k.w[r] = 0 ∧ k.m[r] = 0) ∧ k.st = 0 ∧ k.cp = 0 ∧ k.tl = 0 ∧
       k.budgetLeft = k.budget ∧ k.waitLimit = k.budget ∧
       (∀ j, isService core = false → s.jobOn core = some j →
         let held (l : Nat) : Prop := l ≤ j.nlevel ∧ j.levelHolds l core = true
         let entry (l : Nat) : Prop := held l ∧ j.level l 0 5 6 = c
         let counts (l : Nat) : Prop := (entry l ∨ ((∀ m, ¬entry m) ∧ held l)) ∨ ((∀ m, ¬held m) ∧ l ≤ j.nlevel)
         (∃ l, counts l ∧ k.budget.toNat = j.level l 1 0 32) ∧ ∀ l, counts l → j.level l 1 0 32 ≤ k.budget.toNat))

/-- R93, R94, R97: a message whose earlier ones from the same core have arrived takes a slot at the tail of the inbox of a core of its job that has
one free, numbered by its arrival, and no earlier message moves. The one that takes the last slot sets SPILL of the channel with the most waiting
messages, then the lowest PRIO, then the lowest number, unless a spilled channel has messages waiting (the model's reading, log entry 44); with
all 256 taken it waits in the network. A message of a reserved KIND is dropped and counted. -/
def Sys2Proof.Claims.MessagesArriveInOrder : Prop :=
  ∀ (s : State) (m : Mail), s.mail.find? (fun x => x.id == m.id) = some m →
    (∀ x ∈ s.mail, x.id < m.id → x.src = m.src → x.dest ≠ m.dest) → m.retires = none →
    let core := m.dest
    (12 ≤ m.msg.kind → (s.core core).dropKind ≠ BitVec.allOnes 32 →
      ∃ t, exec (.messageArrival m.id) s = .next t ∧ (t.core core).dropKind = (s.core core).dropKind + 1 ∧
        (t.core core).inbox = (s.core core).inbox ∧ (∀ x ∈ t.mail, x.id ≠ m.id)) ∧
    ((m.msg.kind = 0 ∨ m.msg.kind = 1 ∨ m.msg.kind = 11) → s.deadTag m.msg.asid m.msg.tag = false →
      (isService core = true ∨ ((s.core core).hasJob = true ∧ (s.core core).asid = m.msg.asid)) →
      ((s.core core).inbox.length = 255 →
        ∃ t, exec (.messageArrival m.id) s = .next t ∧ (∀ x ∈ t.mail, x.id ≠ m.id) ∧ SameMemory s t ∧
          (t.core core).inbox = (s.core core).inbox ++
            [{ id := s.sched.nextId, msg := m.msg, chan := m.msg.chan, msgid := m.msg.msgid, busy := false }] ∧
          (let waiting (c : Nat) : Nat := ((t.core core).inbox.filter (fun y => decide (y.chan = c) && !y.busy)).length
           let prio (c : Nat) : Nat := (s.chan core c).prio.toNat
           ((∃ y ∈ (t.core core).inbox, y.busy = false ∧ (s.chan core y.chan).spill = true) → t.chans = s.chans) ∧
           ((∀ y ∈ (t.core core).inbox, y.busy = false → (s.chan core y.chan).spill = false) → ∀ c, c < 64 → 0 < waiting c →
             (∀ d, d < 64 → d ≠ c → waiting d < waiting c ∨ (waiting d = waiting c ∧ (prio c < prio d ∨ (prio c = prio d ∧ c < d)))) →
             t.chan core c = { s.chan core c with spill := true } ∧ ∀ n d, n * 64 + d ≠ core * 64 + c → t.chan n d = s.chan n d))) ∧
      ((s.core core).inbox.length < 255 →
        ∃ t, exec (.messageArrival m.id) s = .next t ∧ (∀ x ∈ t.mail, x.id ≠ m.id) ∧ SameMemory s t ∧
          (t.core core).inbox = (s.core core).inbox ++
            [{ id := s.sched.nextId, msg := m.msg, chan := m.msg.chan, msgid := m.msg.msgid, busy := false }]) ∧
      (256 ≤ (s.core core).inbox.length →
        ∃ t, exec (.messageArrival m.id) s = .next t ∧ t.mail = s.mail ∧ (t.core core).inbox = (s.core core).inbox))

/-- R106: a forwarding entry whose replies are owed for 4,096 cycles expires: the entry is gone, FWDLATE counts it, and the LD of the
continuing activation falls by the replies still owed, its registers staying. -/
def Sys2Proof.Claims.ForwardingEntriesExpire : Prop :=
  ∀ (s : State) (core n : Nat) (f : Fwd), (s.core core).fwds[n]? = some f → f.born + 4096 ≤ s.now →
    (s.core core).fwdLate ≠ BitVec.allOnes 32 →
    ∃ t, exec (.forwardingEntryExpiry core n) s = .next t ∧ (t.core core).fwds = (s.core core).fwds.filter (fun g => decide (g ≠ f)) ∧
      (t.core core).fwdLate = (s.core core).fwdLate + 1 ∧ SameMemory s t ∧
      (∀ a j, f.heir = some a → j < 8 → (s.ctx (f.dest * 8 + j)).phase = .run → (s.ctx (f.dest * 8 + j)).act = a →
        (∀ i, i < j → ¬((s.ctx (f.dest * 8 + i)).phase = .run ∧ (s.ctx (f.dest * 8 + i)).act = a)) →
        t.ctx (f.dest * 8 + j) = { s.ctx (f.dest * 8 + j) with ld := (s.ctx (f.dest * 8 + j)).ld - f.owed.length })

namespace Sys2Proof.Claims

open Sys2Proof.Machine

/-! ### Tokens and child operations (R233 to R246, R252 to R255) -/

/-- A malformed token of a core (R234). -/
def badToken (core : Nat) (t : Word) : Prop := 2 ^ 32 ≤ t.toNat ∨ (t ≠ 0 ∧ t.toNat / 2 ^ 20 % 2 ^ 12 ≠ core)
/-- The slot of a token (R233). -/
def slotOf (t : Word) : Nat := t.toNat / 2 ^ 13 % 2 ^ 7
/-- A live token: neither 0 nor malformed, its slot occupied by the operation of its generation (R233, R234). -/
def Live (s : State) (t : Word) : Prop :=
  ¬badToken s.myCore t ∧ t ≠ 0 ∧ (s.op s.myCore (slotOf t)).state ≠ .free ∧ (s.op s.myCore (slotOf t)).gen.toNat = t.toNat % 2 ^ 13
/-- A stale token (R234). -/
def Stale (s : State) (t : Word) : Prop :=
  ¬badToken s.myCore t ∧ t ≠ 0 ∧
    ((s.op s.myCore (slotOf t)).state = .free ∨ (s.op s.myCore (slotOf t)).gen.toNat ≠ t.toNat % 2 ^ 13)
/-- The states that end an operation (R235). -/
def Over (o : Op) : Prop := o.state = .done ∨ o.state = .faulted ∨ o.state = .cancelled
/-- Status and cause as TSTAT shows them (R242, R254): of a terminal operation, and of one suspended with a cause. -/
def shownStatus (o : Op) : Nat :=
  if o.state = .done ∨ o.state = .faulted ∨ o.state = .cancelled ∨ (o.state = .suspended ∧ o.cause ≠ 0) then
    o.status.toNat * 2 ^ 56 + o.cause.toNat * 2 ^ 48 else 0
/-- Word 0 of a completion record (R242). -/
def recordHead (o : Op) : Nat := shownStatus o + o.form.cls * 2 ^ 44 + o.unit.toNat * 2 ^ 32
/-- The code of a state (R235). -/
def stateCode (o : Op) : Nat :=
  match o.state with
  | .free => 0
  | .pending => 1
  | .queued => 2
  | .running => 3
  | .suspended => 4
  | .done => 5
  | .faulted => 6
  | .cancelled => 7
/-- The token of a slot (R233). -/
def tokenWord (core slot gen : Nat) : Word := BitVec.ofNat 64 (core % 2 ^ 12 * 2 ^ 20 + slot % 2 ^ 7 * 2 ^ 13 + gen)
/-- The words that TREC stores (R254). -/
def trecWords (s : State) (t : Word) : List Word :=
  let o := s.op s.myCore (slotOf t)
  if t = 0 then [0, 0, 0, 0]
  else if o.state = .free ∨ o.gen.toNat ≠ t.toNat % 2 ^ 13 then [BitVec.ofNat 64 (0xFF * 2 ^ 56), t, 0, 0]
  else [BitVec.ofNat 64 (recordHead o), tokenWord s.myCore (slotOf t) o.gen.toNat, o.word2,
        if shownStatus o = 0 ∧ ¬(o.state = .done ∨ o.state = .faulted ∨ o.state = .cancelled ∨ (o.state = .suspended ∧ o.cause ≠ 0)) then 0
        else o.word3]
/-- The instruction ends with x in d; besides its context only the slot of the token may differ, which is `o` afterwards. -/
def Gives (i : Instr) (s : State) (d : Reg) (x : Word) (f : State → Prop) : Prop :=
  ∃ t, exec i s = .next t ∧ (∀ r, rdG t.me r = if r = d ∧ d ≠ 0 then x else rdG s.me r) ∧
    t.me = { advance (settled s.me) with g := t.me.g } ∧ (∀ k, k ≠ s.sched.cur → t.ctx k = s.ctx k) ∧ SameMemory s t ∧ f t
/-- The acquire of R222: no line of the running ASID stays in the core's L1. -/
def Acquired (s t : State) : Prop :=
  ∀ l, l ∈ (t.core s.myCore).l1 ↔ l ∈ (s.core s.myCore).l1 ∧ l.asid ≠ (s.core s.myCore).asid

end Sys2Proof.Claims

/-- R233, R234, R242, R253: TSTAT, TSTAT.R and TWAIT trap TOKBAD for a malformed token, give 8 for token 0 and 0xFF in the
status for a stale one, and else the status of the slot with its state code. A terminal one is acquired from, and TWAIT and TSTAT.R
retire it, the generation moving on; TSTAT and TSTAT.R never wait, TWAIT waits for a slot that is not terminal. -/
def Sys2Proof.Claims.TokenStatusIsRead : Prop :=
  ∀ (d a : Reg) (s : State), (∀ w f, s.me.wake ≠ some (.twait w f)) →
    let t := rdG s.me a
    let slot := slotOf t
    let o := s.op s.myCore slot
    let status := BitVec.ofNat 64 (recordHead o + stateCode o)
    let all (x : Word) (f : State → Prop) : Prop := Gives (.tstat d a) s d x f ∧ Gives (.tstatR d a) s d x f ∧ Gives (.twait d a) s d x f
    (badToken s.myCore t → ∃ ti : TrapInfo, ti.cause = cTOKBAD ∧ ti.token.toNat = t.toNat % 2 ^ 32 ∧ ti.faddr = 0 ∧
      ∀ i ∈ [Instr.tstat d a, .tstatR d a, .twait d a], exec i s = .next (s.takeTrap s.sched.cur ti)) ∧
    (t = 0 → all 8 (OnlyMe s)) ∧
    (Stale s t → all (BitVec.ofNat 64 (0xFF * 2 ^ 56)) (OnlyMe s)) ∧
    (Live s t → ¬Over o → Gives (.tstat d a) s d status (OnlyMe s) ∧ Gives (.tstatR d a) s d status (OnlyMe s) ∧
      (s.me.waitLimit ≠ 0 → ∃ u, exec (.twait d a) s = .next u ∧ OnlyMe s u ∧ u.me.pc = s.me.pc ∧ u.me.waiting = true ∧
        u.me.await = .token s.myCore slot o.gen.toNat)) ∧
    (Live s t → Over o →
      Gives (.tstat d a) s d status (fun u => Acquired s u ∧ u.ops = s.ops) ∧
      (∀ i ∈ [Instr.tstatR d a, .twait d a], Gives i s d status (fun u => Acquired s u ∧
        (u.op s.myCore slot).state = .free ∧ (u.op s.myCore slot).gen.toNat = (if o.gen.toNat = 2 ^ 13 - 1 then 1 else o.gen.toNat + 1) ∧
        ∀ n, n < 128 → n ≠ slot → u.op s.myCore n = s.op s.myCore n)))

/-- R234, R240, R254: TCANCEL of an operation that is PENDING, QUEUED or SUSPENDED makes it CANCELLED with cause 0x41, and of one that is
RUNNING tells its unit; TRESUME queues one suspended with a cause; TDET detaches one that is not terminal, lowering the class counter of
its running activation. A stale token and token 0 make each a no-operation; a malformed one traps TOKBAD. -/
def Sys2Proof.Claims.TokenActions : Prop :=
  ∀ (a : Reg) (s : State),
    let t := rdG s.me a
    let slot := slotOf t
    let o := s.op s.myCore slot
    let ends (i : Instr) (f : State → Prop) : Prop := ∃ u, exec i s = .next u ∧ u.me.g = s.me.g ∧ u.me.pc = (advance s.me).pc ∧ f u
    (badToken s.myCore t → ∃ ti : TrapInfo, ti.cause = cTOKBAD ∧ ti.token.toNat = t.toNat % 2 ^ 32 ∧
      ∀ i ∈ [Instr.tcancel a, .tresume a, .tdet a], exec i s = .next (s.takeTrap s.sched.cur ti)) ∧
    (t = 0 ∨ Stale s t → ∀ i ∈ [Instr.tcancel a, .tresume a, .tdet a],
      ∃ u, exec i s = .next u ∧ OnlyMe s u ∧ u.me = advance (settled s.me)) ∧
    (Live s t →
      ((o.state = .pending ∨ o.state = .queued ∨ o.state = .suspended) → o.killed = false → ends (.tcancel a) (fun u =>
        (u.op s.myCore slot).state = .cancelled ∧ (u.op s.myCore slot).status = 0x11 ∧ (u.op s.myCore slot).cause = 0x41 ∧
        (u.op s.myCore slot).gen = o.gen)) ∧
      (o.state = .running → o.status = 0 → o.cancel = 0 → ends (.tcancel a) (fun u =>
        u.op s.myCore slot = { o with cancel := 0x41 } ∧ OnlyMe { s with ops := u.ops } u)) ∧
      (Over o → ends (.tcancel a) (OnlyMe s)) ∧
      (o.state = .suspended → o.cause ≠ 0 → ends (.tresume a) (fun u =>
        (u.op s.myCore slot).state = .queued ∧ (u.op s.myCore slot).cause = 0 ∧ (u.op s.myCore slot).record = o.record ∧
        (u.op s.myCore slot).prog = o.prog ∧ SameMemory s u)) ∧
      (¬(o.state = .suspended ∧ o.cause ≠ 0) → ends (.tresume a) (OnlyMe s)) ∧
      (¬Over o → o.det = false → ends (.tdet a) (fun u =>
        u.op s.myCore slot = { o with det := true } ∧ SameMemory s u ∧
        (o.key ≠ s.sched.cur → (s.ctx o.key).act = o.act →
          u.ctx o.key = (if o.form.cls = 0 then { s.ctx o.key with cp := (s.ctx o.key).cp - 1 }
            else if o.form.cls = 1 then { s.ctx o.key with tl := (s.ctx o.key).tl - 1 } else s.ctx o.key)) ∧
        (o.key ≠ s.sched.cur → (s.ctx o.key).act ≠ o.act → u.ctx o.key = s.ctx o.key))) ∧
      (Over o ∨ o.det = true → ends (.tdet a) (OnlyMe s)))

/-- R254, R255: TREC stores the record of its token's slot, 32 zero bytes for token 0, and the stale record for a stale one, as one store; a
misaligned address traps MISALIGN. TFENCE ends, with an acquire, once no operation of its classes that its activation issued is open, and
waits till then. -/
def Sys2Proof.Claims.RecordsStoredAndFenced : Prop :=
  ∀ (a b : Reg) (c : BitVec 4) (s s1 : State),
    let t := rdG s.me a
    let p := (rdG s.me b).toNat % 2 ^ 52
    let cells := (accessAddrs p 32 0).zip ((trecWords s t).flatMap (fun w => leBytes 8 w.toNat))
    let mine (n : Nat) : Prop := let o := s.op s.myCore n
      o.state ≠ .free ∧ ¬Over o ∧ o.key = s.sched.cur ∧ o.act = s.me.act ∧ c.getLsbD o.form.cls = true
    (¬badToken s.myCore t → p % 32 ≠ 0 → exec (.trec a b) s = .next (trapAt s cMISALIGN (BitVec.ofNat 64 p))) ∧
    (¬badToken s.myCore t → p % 32 = 0 → s.accessCheck s.sched.cur p 32 0 true = .ok () → StoreReady s s1 cells →
      ∃ u, exec (.trec a b) s = .next u ∧ StoreIssued s s1 u p cells) ∧
    ((∀ n, n < 128 → ¬mine n) → ∃ u, exec (.tfence c) s = .next u ∧ u.me = advance (settled s.me) ∧ Acquired s u ∧ u.ops = s.ops ∧
      (∀ k, k ≠ s.sched.cur → u.ctx k = s.ctx k) ∧ SameMemory s u) ∧
    ((∃ n, n < 128 ∧ mine n) → s.me.waitLimit ≠ 0 → ∃ u, exec (.tfence c) s = .next u ∧ OnlyMe s u ∧
      u.me = { s.me with waiting := true, blocking := true, await := .nothing, awaitTok := 0, waited := waitedIn s true })

namespace Sys2Proof.Claims

open Sys2Proof.Machine

/-- The operands of an FE instruction: token register, record pointer, after-token, DET, PRI, NTF, BAR (R67). -/
structure Child where
  rules : FormRules
  d : Reg
  a : Reg
  b : Reg
  x : BitVec 1
  p : BitVec 2
  n : BitVec 1
  k : BitVec 1

/-- The form, the operands and the body rules of a child operation (R68). -/
def childOp : Instr → Option Child
  | .cpy d a b x p n k => some ⟨rulesCpy, d, a, b, x, p, n, k⟩
  | .cpyX d a b x p n k => some ⟨rulesCpyX, d, a, b, x, p, n, k⟩
  | .cpySp d a b x p n k => some ⟨rulesCpySp, d, a, b, x, p, n, k⟩
  | .cpyR d a b x p n k => some ⟨rulesCpyR, d, a, b, x, p, n, k⟩
  | .cpyF d a b x p n k => some ⟨rulesCpyF, d, a, b, x, p, n, k⟩
  | .mmx d a b x p n k => some ⟨rulesMmx .mmx, d, a, b, x, p, n, k⟩
  | .mmxA d a b x p n k => some ⟨rulesMmx .mmxA, d, a, b, x, p, n, k⟩
  | .phld d a b x p n k => some ⟨rulesPh .phld, d, a, b, x, p, n, k⟩
  | .phdec d a b x p n k => some ⟨rulesPh .phdec, d, a, b, x, p, n, k⟩
  | .phswp d a b x p n k => some ⟨rulesPh .phswp, d, a, b, x, p, n, k⟩
  | .phres d a b x p n k => some ⟨rulesPh .phres, d, a, b, x, p, n, k⟩
  | .phdrop d a b x p n k => some ⟨rulesPh .phdrop, d, a, b, x, p, n, k⟩
  | .tcopy d a b x p n k => some ⟨rulesTcopy, d, a, b, x, p, n, k⟩
  | .tcopyBp d a b x p n k => some ⟨rulesTcopyBp, d, a, b, x, p, n, k⟩
  | .tcopyAcc d a b x p n k => some ⟨rulesTcopyAcc, d, a, b, x, p, n, k⟩
  | .gjoin d a b x p n k => some ⟨rulesColl .gjoin, d, a, b, x, p, n, k⟩
  | .gleave d a b x p n k => some ⟨rulesColl .gleave, d, a, b, x, p, n, k⟩
  | .cred d a b x p n k => some ⟨rulesColl .cred, d, a, b, x, p, n, k⟩
  | .cbcast d a b x p n k => some ⟨rulesColl .cbcast, d, a, b, x, p, n, k⟩
  | .cgath d a b x p n k => some ⟨rulesColl .cgath, d, a, b, x, p, n, k⟩
  | .crscat d a b x p n k => some ⟨rulesColl .crscat, d, a, b, x, p, n, k⟩
  | .ca2a d a b x p n k => some ⟨rulesColl .ca2a, d, a, b, x, p, n, k⟩
  | .circ d a b x p n k => some ⟨rulesFab .circ, d, a, b, x, p, n, k⟩
  | .circT d a b x p n k => some ⟨rulesFab .circT, d, a, b, x, p, n, k⟩
  | .famwr d a b x p n k => some ⟨rulesFab .famwr, d, a, b, x, p, n, k⟩
  | .pgate d a b x p n k => some ⟨rulesFab .pgate, d, a, b, x, p, n, k⟩
  | .pwake d a b x p n k => some ⟨rulesFab .pwake, d, a, b, x, p, n, k⟩
  | _ => none

/-- The record of the operation can be read (R237): its address passes its checks, nothing holds the loads back, and they give these
bytes and the state `s1`. PGATE and PWAKE are issued at service level (R71). -/
def RecordRead (i : Instr) (c : Child) (s s1 : State) (bytes : List Byte) : Prop :=
  let p := (rdG s.me c.a).toNat % 2 ^ 52
  childOp i = some c ∧ ((c.rules.form = .pgate ∨ c.rules.form = .pwake) → s.svc s.sched.cur = true) ∧
  p % 32 = 0 ∧ regionOf p < 0xD ∧ s.spCheck s.sched.cur (runAt p 64) = .ok () ∧ (∀ q ∈ s.me.pend, q.acq = 0) ∧
  s.guardHit s.myCore (runAt p 64) = false ∧ s.readBytes s.sched.cur s.sched.nextId false (runAt p 64) = some (s1, .ok bytes)

/-- The checks of R237 up to those of the form are passed. -/
def IssueOk (c : Child) (s s1 : State) (r : BitVec 512) : Prop :=
  headerBad c.rules.form (c.k == 1) r = false ∧ c.rules.bad s1 r = false ∧ regionOf (hdrCraddr r) < 0xD ∧
  ¬badToken s.myCore (rdG s.me c.b) ∧ (c.k = 1 → c.rules.form ≠ .cpyR → s1.barRefused s.sched.cur (recWord r 1) = false) ∧
  (c.n = 1 → s1.chanBad s.sched.cur (hdrChan r) = false) ∧
  (c.n = 1 → hdrOther r = true → s1.destRefused s.sched.cur (recFld r 0 12) = false)

end Sys2Proof.Claims

/-- R67, R68, R71, R135, R233, R236 to R239: a child operation whose record reads well and passes its checks takes the lowest free slot of
its core with everything captured at issue. It is QUEUED, PENDING, or CANCELLED with cause 0x40, as its after-token stands; an attached
one raises its class counter, and the token goes to the destination. -/
def Sys2Proof.Claims.ChildOperationsAreIssued : Prop :=
  ∀ (i : Instr) (c : Child) (s s1 : State) (bytes : List Byte) (ranges : List (Nat × Nat)) (slot : Nat),
    let r : BitVec 512 := BitVec.ofNat 512 (leNat bytes)
    let core := s.myCore
    let after := rdG s.me c.b
    let pred := s.op core (slotOf after)
    let idle : Prop := after = 0 ∨ Stale s after ∨ pred.state = .done
    let dead : Prop := ¬idle ∧ (pred.state = .faulted ∨ pred.state = .cancelled)
    let cls := c.rules.form.cls
    RecordRead i c s s1 bytes → IssueOk c s s1 r → c.rules.check s1 r = .ok ranges →
    (List.range 128).find? (fun n => decide ((s.op core n).state = .free)) = some slot →
    (s.core core).guards.length + ranges.length ≤ 16 → (c.x = 0 → cls = 0 → s.me.cp < 63) → (c.x = 0 → cls = 1 → s.me.tl < 63) →
    ∃ t, exec i s = .next t ∧
      (let o := t.op core slot
       o.form = c.rules.form ∧ o.record = r ∧ o.asid = (s.core core).asid ∧ o.task = s.me.taskTag ∧ o.pri = c.p.toNat ∧
       (o.det = true ↔ c.x = 1) ∧ (o.ntf = true ↔ c.n = 1) ∧ (o.bar = true ↔ c.k = 1) ∧ o.frm = s.me.frm ∧ o.key = s.sched.cur ∧
       o.act = s.me.act ∧ o.gen = (s.op core slot).gen ∧ o.dt = (s.core core).dt ∧ o.dmode = (s.core core).dmode ∧
       (idle → o.state = .queued) ∧ (dead → o.state = .cancelled ∧ o.status = 0x11 ∧ o.cause = 0x40) ∧
       (¬idle → ¬dead → o.state = .pending ∧ o.after = some (slotOf after, pred.gen.toNat))) ∧
      (∀ q, rdG t.me q = if q = c.d ∧ c.d ≠ 0 then tokenWord core slot (s.op core slot).gen.toNat else rdG s.me q) ∧
      t.me.pc = (advance s.me).pc ∧
      (¬dead → t.me.cp = s.me.cp + (if c.x = 0 ∧ cls = 0 then 1 else 0) ∧ t.me.tl = s.me.tl + (if c.x = 0 ∧ cls = 1 then 1 else 0) ∧
        SameMemory s1 t ∧ ∀ k, k ≠ s.sched.cur → t.ctx k = s1.ctx k)

/-- R237, R284: the refusals at the issue of a child operation, in their order, each leaving no operation behind: a misaligned record, a
record that breaks its maps, a malformed after-token, a refused barrier, a refused channel, a refused core to notify, a check of the form. -/
def Sys2Proof.Claims.ChildOperationsAreRefused : Prop :=
  ∀ (i : Instr) (c : Child) (s s1 : State) (bytes : List Byte),
    let r : BitVec 512 := BitVec.ofNat 512 (leNat bytes)
    let p := (rdG s.me c.a).toNat % 2 ^ 52
    let svcOk : Prop := (c.rules.form = .pgate ∨ c.rules.form = .pwake) → s.svc s.sched.cur = true
    (childOp i = some c → svcOk → p % 32 ≠ 0 → exec i s = .next (trapAt s cMISALIGN (BitVec.ofNat 64 p))) ∧
    (childOp i = some c → ¬svcOk → exec i s = .next (trapNow s cPRIV)) ∧
    (RecordRead i c s s1 bytes → (∀ n, (s1.op s.myCore n) = s.op s.myCore n) →
      (headerBad c.rules.form (c.k == 1) r = true ∨ c.rules.bad s1 r = true ∨ 0xD ≤ regionOf (hdrCraddr r) →
        exec i s = .next (trapAt s1 cENGBAD (BitVec.ofNat 64 p))) ∧
      (headerBad c.rules.form (c.k == 1) r = false → c.rules.bad s1 r = false → regionOf (hdrCraddr r) < 0xD →
        let after := rdG s.me c.b
        let name := recWord r 1
        let barOk : Prop := c.k = 1 → c.rules.form ≠ .cpyR → s1.barRefused s.sched.cur name = false
        (badToken s.myCore after → ∃ ti : TrapInfo, ti.cause = cTOKBAD ∧ ti.token.toNat = after.toNat % 2 ^ 32 ∧ ti.faddr = 0 ∧
          exec i s = .next (s1.takeTrap s.sched.cur ti)) ∧
        (¬badToken s.myCore after → ¬barOk → exec i s = .next (trapAt s1 cBARBAD name)) ∧
        (¬badToken s.myCore after → barOk → c.n = 1 → s1.chanBad s.sched.cur (hdrChan r) = true →
          exec i s = .next (trapAt s1 cCHANBAD (BitVec.ofNat 64 (hdrChan r)))) ∧
        (¬badToken s.myCore after → barOk → c.n = 1 → s1.chanBad s.sched.cur (hdrChan r) = false → hdrOther r = true →
          s1.destRefused s.sched.cur (recFld r 0 12) = true → exec i s = .next (trapAt s1 cSENDBAD (BitVec.ofNat 64 (recFld r 0 12))))) ∧
      (IssueOk c s s1 r → ∀ cause addr, c.rules.check s1 r = .error (cause, addr) →
        exec i s = .next (trapAt s1 cause (if cause = cENGBAD then BitVec.ofNat 64 p else addr))))

/-- R235, R243: a RUNNING operation whose outcome its unit has decided, and of which nothing is in flight, becomes DONE, FAULTED or CANCELLED
with that status and the time; its scoreboard entries are gone, the TWAITs on it are released with its status, and operations that wait
for it are queued, or CANCELLED with cause 0x40 unless it is DONE. -/
def Sys2Proof.Claims.OperationsBecomeTerminal : Prop :=
  ∀ (s : State) (core slot : Nat), slot < 128 →
    let o := s.op core slot
    o.state = .running → (o.status = 0x10 ∨ o.status = 0x11 ∨ o.status.toNat ∈ [1, 2, 3]) → o.beats = [] → o.unacked = 0 → o.killed = false →
    ∃ t, exec (.opTerminal core slot) s = .next t ∧
      (let u := t.op core slot
       u.state = (if o.status = 0x11 then .cancelled else if o.status = 0x10 then .faulted else .done) ∧ u.status = o.status ∧
       u.cause = o.cause ∧ u.word2 = o.word2 ∧ u.word3 = s.time ∧ u.gen = o.gen) ∧
      (∀ g ∈ (t.core core).guards, g.slot ≠ slot) ∧
      (∀ k, (s.ctx k).await = .token core slot o.gen.toNat → k / 8 = core →
        (t.ctx k).wake = some (.twait (BitVec.ofNat 64 (recordHead (t.op core slot) + stateCode (t.op core slot))) o.dest.isSome)) ∧
      (∀ n, n < 128 → n ≠ slot → (s.op core n).state = .pending → (s.op core n).killed = false → (s.op core n).after = some (slot, o.gen.toNat) →
        if o.status = 0x11 ∨ o.status = 0x10 then (t.op core n).state = .cancelled ∧ (t.op core n).status = 0x11 ∧ (t.op core n).cause = 0x40
        else (t.op core n).state = .queued)

/-- R177, R178, R239, R243, R244, R245, R251: the steps of an operation that becomes terminal, of a core where none waits for another: its
record goes to CRADDR, and one that faults is dropped and counted in HINTDROP; the bytes not yet counted go to its barrier, with its error;
an attached one lowers the CP or TL of its activation; and its NOTIFY goes to its core and channel, or a fostered one's to the nearest living
ancestor's. -/
def Sys2Proof.Claims.TerminalStepsAreTaken : Prop :=
  ∀ (s : State) (core slot : Nat), slot < 128 →
    let o := s.op core slot
    o.state = .running → (o.status = 0x10 ∨ o.status = 0x11 ∨ o.status.toNat ∈ [1, 2, 3]) → o.beats = [] → o.unacked = 0 → o.killed = false →
    (∀ n, n < 128 → (s.op core n).state ≠ .pending) →
    ∃ t, exec (.opTerminal core slot) s = .next t ∧
      (let u := t.op core slot
       let a := recFld o.record 192 52
       let words := [BitVec.ofNat 64 (recordHead u), tokenWord core slot o.gen.toNat, o.word2, s.time]
       let byte (k : Nat) : Byte := BitVec.ofNat 8 ((words.getD (k / 8) 0).toNat / 256 ^ (k % 8))
       let cells := (List.range 32).map (fun k => (a + k, byte k))
       let counted : Prop := (t.core core).hintDrop.toNat = min ((s.core core).hintDrop.toNat + 1) (2 ^ 32 - 1)
       let own := (s.leaveLanes core slot).setOp core slot u
       let name := recWord o.record 1
       let err : Bool := decide (o.status ≠ 1)
       let body : BEvent := if o.heldBytes = 0 then .error else .bytes o.heldBytes err
       (∀ k, (t.ctx k).cp = (s.ctx k).cp - (if k = o.key ∧ o.det = false ∧ (s.ctx k).act = o.act ∧ o.form.cls = 0 then 1 else 0) ∧
         (t.ctx k).tl = (s.ctx k).tl - (if k = o.key ∧ o.det = false ∧ (s.ctx k).act = o.act ∧ o.form.cls = 1 then 1 else 0)) ∧
       (a = 0 → SameMemory s t) ∧
       (a ≠ 0 → isSp a = true → s.spRefused o.asid o.svc (cells.map (·.1)) = false → s.spWriteRefused cells = false →
         ∀ b, memGet t.mem.cells b = if a ≤ b ∧ b < a + 32 then byte (b - a) else memGet s.mem.cells b) ∧
       (a ≠ 0 → isSp a = true → (s.spRefused o.asid o.svc (cells.map (·.1)) = true ∨ s.spWriteRefused cells = true) → SameMemory s t ∧ counted) ∧
       (∀ s1 c, a ≠ 0 → isSp a = false → own.jobCells core o.asid o.svc a 32 .wr = (s1, .error c) → SameMemory s1 t ∧ counted) ∧
       (∀ s1 pa, a ≠ 0 → isSp a = false → own.jobCells core o.asid o.svc a 32 .wr = (s1, .ok pa) → s1.homed o.asid pa = true →
         (∀ k, k < 32 → memGet t.mem.cells ((pa + k) % 2 ^ 40) = byte k) ∧
         ∀ b, (∀ k, k < 32 → b ≠ (pa + k) % 2 ^ 40) → memGet t.mem.cells b = memGet s1.mem.cells b) ∧
       (o.bar = false ∨ (o.heldBytes = 0 ∧ err = false) → t.flights = s.flights) ∧
       (o.bar = true → (o.heldBytes ≠ 0 ∨ err = true) → s.farDest o = .own →
         ∃ f, t.flights = s.flights ++ [f] ∧ f.src = core ∧ f.body = .barrier (name.toNat / 2 ^ 10 % 2 ^ 12 * 1024 + name.toNat % 2 ^ 10) body o.asid) ∧
       (∀ entry phys, o.bar = true → (o.heldBytes ≠ 0 ∨ err = true) → s.farDest o = .far entry phys →
         ∃ p ∈ t.fabric.retry, p.phys = phys ∧ p.asid = o.asid ∧ p.body = .barrier name o.heldBytes err) ∧
       (o.foster = none → o.ntf = false → t.mail = s.mail) ∧
       (let told (m : Mail) (place chan tag : Nat) (last : Word) : Prop := m.src = core ∧ m.dest = place % 4096 ∧
          HasHeader m.msg.words[0] 11 chan tag (place % 4096) (core % 4096) (s.core core).serial.toNat ∧
          (∀ n : Fin 4, m.msg.words[n.val + 1] = words.getD n.val 0) ∧ m.msg.words[5] = last ∧
          m.retires = (if o.det then some (core * 128 + slot, o.gen.toNat) else none)
        (o.foster = none → o.ntf = true → ∃ m, t.mail = s.mail ++ [m] ∧
          told m (if o.record.getLsbD 18 then recFld o.record 0 12 else core) (recFld o.record 12 6) o.task.toNat 0) ∧
        (∀ heir fcore fchan, fchan < 64 → o.foster = some (heir, (s.pkgOf o.asid).toNat, fcore, fchan) → ∃ m, t.mail = s.mail ++ [m] ∧
          told m fcore fchan heir.toNat (BitVec.ofNat 64 (o.task.toNat + 2 ^ 16 * heir.toNat + 2 ^ 32)))))

namespace Sys2Proof.Claims

open Sys2Proof.Machine

/-! ### Copy engines (R248 to R251, R257, R258, R261) -/

/-- A RUNNING operation at work, nothing of it in flight, stopped by nothing. -/
def AtWork (o : Op) : Prop := o.state = .running ∧ o.status = 0 ∧ o.beats = [] ∧ o.unacked = 0 ∧ o.cancel = 0
/-- Only the slot of an operation and the counters of the model differ between two states. -/
def OnlyOp (s t : State) (core slot : Nat) : Prop :=
  t = { s with ops := t.ops, sched := t.sched } ∧ ∀ k, k ≠ core * 128 + slot → tabGet t.ops k Op.initial = tabGet s.ops k Op.initial

end Sys2Proof.Claims

/-- R248, R261, R330: with fewer than eight copies of a cluster RUNNING, the QUEUED copy of highest PRI, then earliest issue, becomes RUNNING; with
eight none does. A copy to another package is bound to that package from then on, or ends in XLATE where its index is bound to none. -/
def Sys2Proof.Claims.CopiesAreScheduled : Prop :=
  ∀ (s : State) (cluster k : Nat) (o : Op),
    let mine (p : Nat × Op) : Prop := clusterOf (p.1 / 128) = cluster ∧ p.2.form.cls = 0
    let run := s.ops.filter (fun p => decide (clusterOf (p.1 / 128) = cluster) && decide (p.2.form.cls = 0) && decide (p.2.state = .running))
    (8 ≤ run.length → exec (.copySchedule cluster) s = .next s) ∧
    (run.length < 8 → (k, o) ∈ s.ops → mine (k, o) → o.state = .queued → s.selectionHeld (k / 128) = false →
      (∀ p ∈ s.ops, p ≠ (k, o) → mine p → p.2.state = .queued → s.selectionHeld (p.1 / 128) = false →
        p.2.pri < o.pri ∨ (p.2.pri = o.pri ∧ o.seq < p.2.seq)) →
      ∃ t, exec (.copySchedule cluster) s = .next t ∧ OnlyOp s t (k / 128) (k % 128) ∧
        (o.form ≠ .cpyR → t.op (k / 128) (k % 128) = { o with state := .running, lastBeat := s.now }) ∧
        (o.form = .cpyR → ∀ j, s.job o.asid = some j → o.dest = none → recFld o.record 416 12 ≠ j.fld 0 32 12 →
          (∀ e, s.famOf j (recFld o.record 416 12) = some e →
            t.op (k / 128) (k % 128) = { o with state := .running, lastBeat := s.now, dest := some e.phys.toNat }) ∧
          (s.famOf j (recFld o.record 416 12) = none →
            (t.op (k / 128) (k % 128)).state = .running ∧ (t.op (k / 128) (k % 128)).status = 0x10 ∧ (t.op (k / 128) (k % 128)).cause = cXLATE)))

/-- R249, R257, R258, R261, R287: taking up a chunk of a raw copy writes nothing yet. When its destination and its source are all there and
do not overlap, the copy has progressed to the end of the chunk, and its beats hold, at the place of each destination byte, the byte
that its source (or the pattern) has for it. -/
def Sys2Proof.Claims.CopyChunksAreTakenUp : Prop :=
  ∀ (s s1 s2 : State) (core slot : Nat) (wp rp : List (Nat × Except (BitVec 8) Nat)),
    let o := s.op core slot
    let p := o.plan
    let lo := o.prog
    let hi := min p.n ((lo / 512 + 1) * 512)
    let each := (List.range (hi - lo)).map (lo + ·)
    let dst := each.flatMap p.dst.bytes
    let src := match p.src with
      | some d => each.flatMap d.bytes
      | none => []
    let into (a : Nat) : Except (BitVec 8) Nat := s2.placed o.asid o.svc wp a
    let from' (a : Nat) : Except (BitVec 8) Nat := s2.placed o.asid o.svc rp a
    (o.form = .cpy ∨ o.form = .cpyF ∨ o.form = .tcopy) → AtWork o → o.look = [] → o.dest = none → lo < hi →
    s.selectionHeld core = false → (o.form ≠ .tcopy → s.copyPreempted core slot = false) →
    s.pages (clusterOf core) o.asid o.svc .wr (pagesIn dst) = (s1, wp) → s1.pages (clusterOf core) o.asid o.svc .rd (pagesIn src) = (s2, rp) →
    (∀ a ∈ dst, ∃ pl, into a = .ok pl) →
    (∀ a ∈ src, ∃ pl, from' a = .ok pl ∧ s2.placeBusy o.asid pl = false ∧ s2.placeFault o.asid o.svc pl = none) →
    (∀ a ∈ dst, a ∉ src) → s2.issuerStoring o src = false →
    ftSmen o.dstEntry = false →
    ∃ t, exec (.copyChunk core slot) s = .next t ∧ (t.op core slot).prog = hi ∧ SameMemory s2 t ∧ t.ctxs = s2.ctxs ∧
      ∀ pl (x : Byte), (∃ b ∈ (t.op core slot).beats, (pl, x) ∈ b.cells) ↔
        ∃ i k a, lo ≤ i ∧ i < hi ∧ (p.dst.bytes i)[k]? = some a ∧ into a = .ok pl ∧
          (match p.src with
            | none => x = (leBytes 8 (recWord o.record 5).toNat).getD k 0
            | some d => ∃ b q, (d.bytes i)[k]? = some b ∧ from' b = .ok q ∧ x = s2.placeByte o.asid q)

/-- R248, R251: a beat whose turn it is is written at its place; its bytes are counted as performed, and those of the beat before it go to the
operation's barrier. -/
def Sys2Proof.Claims.CopyBeatsAreWritten : Prop :=
  ∀ (s u : State) (core slot n : Nat) (b : Beat),
    let o := s.op core slot
    o.form ≠ .cpyR → o.state = .running → o.cancel = 0 → o.beats[n]? = some b → s.beatTurn core slot = true →
    s.placeWrite o.asid o.svc b.cells = some (.ok u) → (o.status = 0 ∨ o.beats.length ≠ 1) →
    ∃ t, exec (.copyBeat core slot n) s = .next t ∧ SameMemory u t ∧ (t.op core slot).beats = o.beats.eraseIdx n ∧
      (t.op core slot).bytes = o.bytes + b.cells.length ∧ (t.op core slot).heldBytes = b.cells.length ∧
      (o.bar = true → 0 < o.heldBytes → ∃ f ∈ t.flights, f.body = .barrier (barKey (recWord o.record 1)) (.bytes o.heldBytes false) o.asid) ∧
      (isSp (b.cells.headD (0, 0)).1 = true → b.cells ≠ [] → (b.cells.map (·.1)).Nodup →
        (∀ c ∈ b.cells, memGet t.mem.cells c.1 = c.2) ∧ ∀ a, a ∉ b.cells.map (·.1) → memGet t.mem.cells a = memGet s.mem.cells a)

/-- R250, R324: a cancellation that has reached its unit decides the operation CANCELLED with its cause: a copy, whose waiting beats are each
performed or discarded, a transfer command, and a COLL operation. -/
def Sys2Proof.Claims.CancellationsStopAtTheUnit : Prop :=
  ∀ (s : State) (core slot : Nat),
    let o := s.op core slot
    o.state = .running → o.cancel ≠ 0 → o.unacked = 0 →
    (o.status = 0 ∨ o.status = 0x08 ∨ (o.status = 0x10 ∧ o.form.isCopy = true ∧ o.beats ≠ [])) →
    (o.form.isCopy = true ∨ o.form = .tcopyBp ∨ o.form = .tcopyAcc ∨ o.form.cls = 2) →
    ∃ t, exec (.cancelAtEngine core slot) s = .next t ∧ (t.op core slot).status = 0x11 ∧ (t.op core slot).cause = o.cancel ∧
      (t.op core slot).beats = [] ∧ (t.op core slot).state = .running ∧
      (o.beats = [] → o.form.cls ≠ 2 → (t.op core slot).word2 = BitVec.ofNat 64 o.bytes ∧ SameMemory s t)

namespace Sys2Proof.Claims

open Sys2Proof.Machine

/-! ### Matrix engines (R268 to R303) -/

/-- The command of a lane, running with its outcome open, and what the lane holds of it. -/
def InLane (s : State) (e l core slot : Nat) (x : Lane) : Prop :=
  slot < 128 ∧ (s.engine e).laneAt l = some x ∧ x.op = core * 128 + slot ∧ (s.op core slot).state = .running ∧ (s.op core slot).status = 0 ∧
  (s.op core slot).asid = x.asid ∧ (s.op core slot).unit.toNat = e
/-- The operation is decided: its unit has given it this status, cause and word 2. -/
def Decided (t : State) (core slot : Nat) (status cause : BitVec 8) (w : Word) : Prop :=
  (t.op core slot).state = .running ∧ (t.op core slot).status = status ∧ (t.op core slot).cause = cause ∧ (t.op core slot).word2 = w
/-- Only the slot of an operation, the checks of R277 for others, and the counters of the model differ between two states. -/
def OnlyMoves (s t : State) (core slot : Nat) : Prop :=
  t = { s with ops := t.ops, sched := t.sched } ∧ ∀ k, k ≠ core * 128 + slot →
    ∃ m, tabGet t.ops k Op.initial = { tabGet s.ops k Op.initial with migTo := m }
/-- The command that a lane's dispatch picks (R271): waiting, not held by a job switch nor taken by a neighbour (R277), of highest PRI, then
earliest arrival. -/
def FirstWaiting (s : State) (e l k : Nat) (o : Op) : Prop :=
  let waits (p : Nat × Op) : Prop := p ∈ s.ops ∧ p.2.inbox = true ∧ p.2.state = .queued ∧ p.2.form.cls = 1 ∧ p.2.unit.toNat = e ∧
    p.2.form.lane = l ∧ s.selectionHeld (p.1 / 128) = false ∧ ∀ f, p.2.migTo = some f → s.mayMove p.2 f = false
  waits (k, o) ∧ s.op (k / 128) (k % 128) = o ∧ ∀ p, waits p → p ≠ (k, o) → p.2.pri < o.pri ∨ (p.2.pri = o.pri ∧ o.arrived < p.2.arrived)
/-- Bits of word 2 of a PH record (R297). -/
def phWord2 (entries kept rev engine : Nat) (bank : Bool) : Word :=
  BitVec.ofNat 64 (entries + kept * 2 ^ 8 + rev * 2 ^ 32 + engine * 2 ^ 36 + (if bank then 2 ^ 40 else 0))

end Sys2Proof.Claims

/-- R271, R277: a QUEUED MAT operation enters its engine's inbox, behind the earlier ones of its core and while the inbox has room. A matrix
command is checked as it arrives: where it would wait long the first neighbour that qualifies is noted, and takes it if it still does. -/
def Sys2Proof.Claims.MatrixCommandsQueueAndMove : Prop :=
  ∀ (s : State) (engine core slot f : Nat),
    let o := s.op core slot
    (o.state = .queued → o.inbox = false → o.form.cls = 1 → (s.inboxOf o.unit.toNat).length < 64 →
      (∀ p ∈ s.ops, p.1 / 128 = core → p.2.state = .queued → p.2.inbox = false → p.2.form.cls = 1 → p.2.unit = o.unit → o.arrived ≤ p.2.arrived) →
      let entered : Op := { o with inbox := true, arrived := s.sched.nextId }
      let u : State := s.bump.setOp core slot entered
      ∃ t, exec (.engineInboxEntry core slot) s = .next t ∧ OnlyOp s t core slot ∧
        t.op core slot = if o.form.lane ≠ 0 then entered
          else { entered with migTo := if u.waitsLong o.unit.toNat = true then u.moveTo entered else none }) ∧
    (o.state = .queued → o.inbox = true → (o.form = .mmx ∨ o.form = .mmxA) → o.unit.toNat = engine → o.migTo = some f →
      (s.mayMove o f = true → ∃ t, exec (.migration engine core slot) s = .next t ∧ OnlyMoves s t core slot ∧
        t.op core slot = { o with unit := BitVec.ofNat 12 f, arrived := s.sched.nextId, migTo := none }) ∧
      (s.mayMove o f = false → ∃ t, exec (.migration engine core slot) s = .next t ∧ OnlyOp s t core slot ∧
        t.op core slot = { o with migTo := none }))

/-- R271, R273, R274, R285, R300: the waiting command of highest PRI, then earliest arrival, starts in a free lane, RUNNING from then on. A
matrix command on its home engine takes the ACTIVE decks of that moment and the front image that matches it; with no deck ACTIVE it moves
to a neighbour that qualifies (R277). -/
def Sys2Proof.Claims.LanesTakeCommands : Prop :=
  ∀ (s : State) (engine lane k : Nat) (o : Op), lane < 3 → ((s.engine engine).laneAt lane) = none → (lane = 0 → s.boundaryWork engine = false) →
    FirstWaiting s engine lane k o → s.tileMiss o = none →
    (o.form ≠ .mmx → o.form ≠ .mmxA →
      ∃ t x, exec (.laneDispatch engine lane) s = .next t ∧ (t.op (k / 128) (k % 128)).state = .running ∧
        (t.op (k / 128) (k % 128)).inbox = false ∧ (t.op (k / 128) (k % 128)).status = o.status ∧
        (t.engine engine).laneAt lane = some x ∧ x.op = k ∧ x.asid = o.asid ∧ SameMemory s t ∧ t.ctxs = s.ctxs) ∧
    (let e := s.engine engine
     let A := s.activeDecks engine
     let img := e.entry e.frontIx.toNat
     o.form = .mmx ∨ o.form = .mmxA → o.homeEngine = engine → A ≠ [] → e.frontV = true → img.asid = o.asid →
     (mmTag o.record = 0 ∨ mmTag o.record = img.tag) → recFld o.record 500 4 ≤ s.achievedEbc engine A (recFld o.record 498 2) →
     ∃ t x, exec (.laneDispatch engine lane) s = .next t ∧ (t.op (k / 128) (k % 128)).state = .running ∧
       (t.engine engine).matrix = some x ∧ x.op = k ∧ x.asid = o.asid ∧
       (∀ j ∈ A, x.scales.getD j 0 = [img.s0, img.s1, img.s2, img.s3].getD j 0 ∧ x.sliceCodes j = s.bankCodes engine j false) ∧
       (e.matching img.tag img.asid = [e.frontIx.toNat] → x.scales = [img.s0, img.s1, img.s2, img.s3] ∧
         ∀ j, j < 4 → j ∉ A → x.sliceCodes j = (List.range 8192).map (s.entryCode engine e.frontIx.toNat j)) ∧
       (∀ d, d < 4 → (x.avail.getLsbD d = true ↔ d ∈ A)) ∧ x.word2 = mapWord A (s.achievedEbc engine A (recFld o.record 498 2))
         (recFld o.record 498 2) engine false ∧ SameMemory s t) ∧
    (∀ f, (o.form = .mmx ∨ o.form = .mmxA) → s.activeDecks engine = [] → s.moveTo o = some f →
      ∃ t, exec (.laneDispatch engine lane) s = .next t ∧ OnlyMoves s t (k / 128) (k % 128) ∧
        t.op (k / 128) (k % 128) = { o with unit := BitVec.ofNat 12 f, arrived := s.sched.nextId, migTo := none })

namespace Sys2Proof.Claims

open Sys2Proof.Machine

/-- round(x, FP32, RNE) of R265. -/
def nearest32 (x : FVal) : Nat := (roundTo (fmtOf 0) 0 0 x).1
/-- The value of an FP32 pattern. -/
def value32 (n : Nat) : FVal := unpack (fmtOf 0) n
/-- S of R265 from the digitiser codes D of slices, planes and turns, W, log2 O, the E8 scale, the slices' scales, which slices' planes are all zero,
and the order. -/
def matrixSum (D : Nat → Nat → Nat → Int) (W ovs e : Nat) (scale : Nat → Nat) (zero : Nat → Prop) [DecidablePred zero] (order : List Nat) : Nat :=
  let P (j : Nat) : Int := ((List.range W).map (fun b => ((List.range (2 ^ ovs)).map (D j b)).sum * 2 ^ b)).sum
  let z (j : Nat) : Nat :=
    if zero j ∨ (value32 (scale j)).isZero = true then 0
    else nearest32 ((mulExact (.ofInt (P j)) (value32 (scale j))).1.scale ((e : Int) - 127 - ovs))
  match order.map z with
  | [] => 0
  | z0 :: zs => zs.foldl (fun S zk => nearest32 (sumExact 0 [value32 S, value32 zk]).1) z0

end Sys2Proof.Claims

/-- R265, R300: an MMX or MMX.A that meets no poison writes its outputs in its accumulators and nowhere else, counts its bytes, and is DONE
with its map in word 2. Each output of each vector is R265's of some digitiser codes, summed over the map's decks and then the other slices: S, or for
MMX.A the old accumulator plus S; with the E8 scale 0xFF it is the canonical NaN. -/
def Sys2Proof.Claims.MatrixCommandsComplete : Prop :=
  ∀ (s : State) (e core slot : Nat) (x : Lane), InLane s e 0 core slot x →
    let o := s.op core slot
    let acc := mmAcc o.record
    let n := mmVecs o.record
    (o.form = .mmx ∨ o.form = .mmxA) → (∀ v, v < n → s.vectorPoisoned o v = false) →
    ∃ t, exec (.mmxCompletion e) s = .next t ∧ Decided t core slot 0x01 0 x.word2 ∧ (t.op core slot).bytes = o.bytes + 256 * n ∧
      (∀ a, a < acc ∨ acc + 256 * n ≤ a → memGet t.mem.cells a = memGet s.mem.cells a) ∧
      ((∀ v a, v < n → acc ≤ a → a < acc + 256 * n → a ≠ mmScl o.record + v ∧ ∀ j, j < 4 → a < mmLine o.record v j ∨ mmLine o.record v j + 64 ≤ a) →
        ∀ v i, v < n → i < 64 → ∃ D : Nat → Nat → Nat → Int, (∀ j b turn, -2048 ≤ D j b turn ∧ D j b turn ≤ 2047) ∧
          (let e8 := (memGet s.mem.cells (mmScl o.record + v)).toNat
           let W := recFld o.record 492 4
           let old := leNat (memBytes s.mem.cells (acc + 256 * v + 4 * i) 4)
           let S := Claims.matrixSum D W (recFld o.record 498 2) e8 (fun j => (x.scales.getD j 0).toNat)
             (fun j => ∀ a, a < 8 * W → memGet s.mem.cells (mmLine o.record v j + a) = 0)
             ((List.range 4).filter (fun d => x.avail.getLsbD d) ++ (List.range 4).filter (fun d => !x.avail.getLsbD d))
           leNat (memBytes t.mem.cells (acc + 256 * v + 4 * i) 4) =
             (if e8 = 0xFF then 0x7FC00000 else if o.form = .mmx then S
              else Claims.nearest32 (sumExact 0 [Claims.value32 old, Claims.value32 S]).1) % 2 ^ 32))

/-- R268, R269, R292, R293, R294: PHLD places the codes and the scales that it reads in an entry of the tile store under its tag, and PHDEC the
image of its weights; without BANK that is their end. With it, and for PHRES, the command loads the back bank from that entry, for which it waits
while BNEW is set. -/
def Sys2Proof.Claims.ImagesAreLoaded : Prop :=
  ∀ (s s1 : State) (e core slot : Nat) (x : Lane) (bs : List Byte), InLane s e 1 core slot x →
    let o := s.op core slot
    let r := o.record
    let k := (s.engine e).loadEntry s.sched.fresh (phTag r) o.asid
    let ends (t : State) (k : Nat) (bank : Bool) : Prop :=
      (t.op core slot).status = 0x01 ∧ (t.op core slot).word2 = phWord2 (2 ^ k) 0 ((t.engine e).entry k).rev.toNat e bank
    let waits (t : State) (k : Nat) : Prop := ∃ y, (t.engine e).phase = some y ∧ y.waiting = true ∧ y.entry = k ∧ (t.op core slot).status = 0
    let loaded (t : State) (k : Nat) : Prop := (t.engine e).backIx.toNat = k ∧ (t.engine e).backV = true ∧ (t.engine e).bnew = true
    let ended (t : State) (k : Nat) : Prop := (phBank r = false → ends t k false) ∧
      (phBank r = true → (s.engine e).bnew = true → waits t k) ∧
      (phBank r = true → (s.engine e).bnew = false → ends t k true ∧ loaded t k)
    let named (t : State) : Prop := ((t.engine e).entry k).valid = true ∧ ((t.engine e).entry k).tag = phTag r ∧
      ((t.engine e).entry k).asid = o.asid
    (o.form = .phld → x.waiting = false → s.gather core o ((runAt (phAddr r) 65536).map (· % 2 ^ 52)) = some (s1, .ok bs) →
      ∃ t, exec (.phldExecution e) s = .next t ∧ named t ∧ ((t.engine e).entry k).rev = 0 ∧
        ((t.engine e).entry k).scales = [phScale r 0, phScale r 1, phScale r 2, phScale r 3] ∧ ended t k ∧
        ∀ j n, j < 4 → n < 16384 → memGet t.mem.cells (tileAddr e j ((504 + k) * 16384 + n)) = bs.getD (16384 * j + n) 0) ∧
    (o.form = .phdec → x.waiting = false → ftSmen o.dstEntry = false →
      s.gather core o ((List.range 16384).flatMap (fun n =>
        (runAt (phAddr r + n / 256 * recFld r 384 32 + 4 * (n % 256)) 4).map (· % 2 ^ 52))) = some (s1, .ok bs) →
      (∀ w ∈ wordsIn 4 bs, nonFinite (BitVec.ofNat 32 w) = false) →
      ∃ t, exec (.phdecExecution e) s = .next t ∧ named t ∧ ended t k) ∧
    (o.form = .phres → x.waiting = false → ∀ m, pickEntry s.sched.fresh ((s.engine e).matching (phTag r) o.asid) = some m →
      ∃ t, exec (.phresExecution e) s = .next t ∧ SameMemory s t ∧ ((s.engine e).bnew = true → waits t m) ∧
        ((s.engine e).bnew = false → ends t m true ∧ loaded t m)) ∧
    ((o.form = .phld ∨ o.form = .phdec ∨ o.form = .phres) → x.waiting = true → x.entry < 8 → (s.engine e).bnew = false →
      s.selectionHeld core = false →
      ∃ t, exec (.backBankLoad e) s = .next t ∧ (t.engine e).backIx.toNat = x.entry ∧ (t.engine e).backV = true ∧
        (t.engine e).bnew = true ∧ (t.op core slot).status = 0x01 ∧
        (t.op core slot).word2 = phWord2 (2 ^ x.entry) 0 ((s.engine e).entry x.entry).rev.toNat e true ∧ SameMemory s t ∧
        ∀ j c, j < 4 → c < 8192 → (t.bankCodes e j true).getD c 0 = s.entryCode e x.entry j c ∧ t.bankCodes e j false = s.bankCodes e j false)

/-- R269, R295, R296: PHSWP makes the back bank the front one and clears BNEW; where other entries hold an image under its tag, the front bank may
hold any of them. PHDROP invalidates every entry of its tag that is neither the front
nor the back image, and reports both. -/
def Sys2Proof.Claims.BanksSwapAndImagesDrop : Prop :=
  ∀ (s : State) (e core slot : Nat) (x : Lane),
    let o := s.op core slot
    let g := s.engine e
    let b := g.entry g.backIx.toNat
    (InLane s e 0 core slot x → o.form = .phswp → g.backV = true → b.asid = o.asid → (phTag o.record = 0 ∨ b.tag = phTag o.record) →
      g.backStale = false → (∀ k, k < 8 → (g.entry k).valid = true → (g.entry k).tag = g.backCopy.tag → (g.entry k).asid = g.backCopy.asid →
        k = g.backIx.toNat) →
      ∃ t, exec (.phswpExecution e) s = .next t ∧ Decided t core slot 0x01 0 (phWord2 (2 ^ g.backIx.toNat) 0 b.rev.toNat e false) ∧
        (t.engine e).frontIx = g.backIx ∧ (t.engine e).backIx = g.frontIx ∧ (t.engine e).frontV = true ∧ (t.engine e).backV = g.frontV ∧
        (t.engine e).bnew = false ∧ (t.engine e).swaps = g.swaps + 1 ∧
        (∀ j, t.bankCodes e j false = s.bankCodes e j true ∧ t.bankCodes e j true = s.bankCodes e j false) ∧ SameMemory s t) ∧
    (InLane s e 0 core slot x → o.form = .phswp → g.backV = true → b.asid = o.asid → (phTag o.record = 0 ∨ b.tag = phTag o.record) →
      g.backStale = false →
      ∃ t k, exec (.phswpExecution e) s = .next t ∧ (t.engine e).frontIx.toNat = k ∧ (t.engine e).frontV = true ∧ (t.engine e).bnew = false ∧
        (k = g.backIx.toNat ∨ ((g.entry k).valid = true ∧ (g.entry k).tag = g.backCopy.tag ∧ (g.entry k).asid = g.backCopy.asid)) ∧
        Decided t core slot 0x01 0 (phWord2 (2 ^ k) 0 (g.entry k).rev.toNat e false) ∧ (t.engine e).swaps = g.swaps + 1 ∧ SameMemory s t ∧
        ∀ j c, j < 4 → c < 8192 → (t.bankCodes e j false).getD c 0 =
          if k = g.backIx.toNat then (s.bankCodes e j true).getD c 0 else s.entryCode e k j c) ∧
    (InLane s e 1 core slot x → o.form = .phdrop →
      let hit (k : Nat) : Prop := (g.entry k).valid = true ∧ (g.entry k).tag = phTag o.record ∧ (g.entry k).asid = o.asid
      let kept (k : Nat) : Prop := (g.frontV = true ∧ g.frontIx.toNat = k) ∨ (g.backV = true ∧ g.backIx.toNat = k)
      ∃ t, exec (.phdropExecution e) s = .next t ∧ (t.op core slot).status = 0x01 ∧ SameMemory s t ∧
        (∀ k, k < 8 → (hit k → ¬kept k → ((t.engine e).entry k).valid = false) ∧
          (¬(hit k ∧ ¬kept k) → (t.engine e).entry k = g.entry k) ∧
          ((t.op core slot).word2.getLsbD k = true ↔ hit k ∧ ¬kept k) ∧ ((t.op core slot).word2.getLsbD (8 + k) = true ↔ hit k ∧ kept k)))

/-- R288, R289, R290: the last vector of a TCOPY.BP leaves bit b of element 64j + i in bit i of plane b of its line in slice j, and its E8 in SCL;
the last row of a TCOPY.ACC leaves its 64 elements rounded in the rows of its destination; then the command has its outcome. -/
def Sys2Proof.Claims.TransfersByElementEnd : Prop :=
  ∀ (s s1 : State) (e core slot : Nat) (x : Lane) (bs : List Byte), InLane s e 2 core slot x →
    let o := s.op core slot
    let r := o.record
    let n := o.prog
    s.selectionHeld core = false → o.cancel = 0 → s.mem.poison = [] →
    (let d := bpSide r
     let eas := (List.range 256).flatMap (fun k => d.bytes (256 * n + k))
     let raw := (wordsIn (d.bits / 8) bs).map (unpack (fmtOf (d.kind - 1)))
     let (rs, _) := takeDraws ((List.range 256).map (fun _ => true)) o.rng
     let (e8, q) := quantBlock o.dt o.dmode (ftKind o.dstEntry) (ftW o.dstEntry) o.tmode (raw.zip rs)
     let line (j : Nat) : Nat := tileAddr (tileEngine (bpPln r)) j (tileOff (bpPln r) + 64 * n)
     o.form = .tcopyBp → n = recFld r 480 12 → ftSmen o.dstEntry = false → isTile (bpPln r) = true → isTile (bpScl r) = true →
     s1.mem.poison = [] → (∀ j, j < 4 → ∀ c, c < 64 → line j + c ≠ bpScl r + n) → tileOff (bpPln r) + 64 * n + 64 ≤ 2 ^ 23 →
     (d.bits = 16 ∨ d.bits = 32) → s.gather core o eas = some (s1, .ok bs) →
     ∃ t, exec (.tcopyBpExecution e) s = .next t ∧ (t.op core slot).prog = n + 1 ∧
       ((t.op core slot).status = 0x01 ∨ (t.op core slot).status = 0x02) ∧ (t.op core slot).bytes = o.bytes + 257 ∧
       memGet t.mem.cells (bpScl r + n) = BitVec.ofNat 8 e8 ∧
       ∀ j b i, j < 4 → b < 8 → i < 64 → (memGet t.mem.cells (line j + 8 * b + i / 8)).getLsbD (i % 8) =
         (decide (b < ftW o.dstEntry) && (q.codes.getD (64 * j + i) 0).testBit b)) ∧
    (let d := accSide r
     let src := accSrc r + 256 * n
     let (rs, _) := takeDraws ((List.range 64).map (fun _ => true)) o.rng
     let out (i : Nat) : Nat := (roundTo (fmtOf (d.kind - 1)) o.tmode (rs.getD i 0)
       (unpack (fmtOf 0) (leNat (memBytes s.mem.cells (src + 4 * i) 4)))).1
     o.form = .tcopyAcc → n + 1 = accRows r → d.base / 2 ^ 48 = 0xC → plainTag (recWord r 5) = true →
     (∀ i, i < 64 → ∀ a ∈ d.bytes (64 * n + i), a / 2 ^ 48 = 0xC ∧ s.spRefused o.asid o.svc [a] = false) →
     (((List.range 64).flatMap (fun i => d.bytes (64 * n + i))).Nodup) →
     ∃ t, exec (.tcopyAccExecution e) s = .next t ∧ (t.op core slot).prog = n + 1 ∧
       ((t.op core slot).status = 0x01 ∨ (t.op core slot).status = 0x02) ∧ (t.op core slot).bytes = o.bytes + 64 * (d.bits / 8) ∧
       (∀ i k a, i < 64 → (d.bytes (64 * n + i))[k]? = some a → memGet t.mem.cells a = BitVec.ofNat 8 (out i / 256 ^ k)) ∧
       (∀ a, (∀ i, i < 64 → a ∉ d.bytes (64 * n + i)) → memGet t.mem.cells a = memGet s.mem.cells a))

/-- R247, R270, R302: a matrix command still running 50 microseconds after its job's switch was asked for ends FAULTED with cause WAITTIME; trim
writes held while the matrix lane was taken reach their trims once it is free. -/
def Sys2Proof.Claims.EnginesYieldAndTrim : Prop :=
  ∀ (s : State) (e core slot : Nat) (x : Lane) (w : Switch),
    (InLane s e 0 core slot x → ((s.op core slot).form = .mmx ∨ (s.op core slot).form = .mmxA) → s.switch = some w →
      s.selectionHeld core = true → w.born.toNat + 50000 ≤ s.time.toNat →
      ∃ t, exec (.matSwitchTimeout e 0) s = .next t ∧ Decided t core slot 0x10 cWAITTIME x.word2) ∧
    ((s.engine e).matrix = none →
      ∃ t, exec (.trimApply e) s = .next t ∧ (t.engine e).trimHeld = [] ∧ SameMemory s t ∧
        ∀ off v, (s.engine e).trimHeld = [(off, v)] →
          (0x10000 ≤ off → ∀ i, i < 4 → tabGet t.photonic.trims
            ((e * 4 + (off - 0x10000) / 0x4000) * 8192 + (off - 0x10000) % 0x4000 / 2 + i) 0 = v.extractLsb' (16 * i) 16) ∧
          (off < 0x10000 → ∀ i, i < 4 → tabGet t.photonic.dtrims
            ((e * 4 + (off - 0x800) / 128) * 64 + (off - 0x800) % 128 / 2 + i) 0 = v.extractLsb' (16 * i) 16))

namespace Sys2Proof.Claims

open Sys2Proof.Machine

/-! ### Barriers, groups, semaphores (R304 to R326, R384 to R389) -/

/-- The table key of the barrier that a name means (R304). -/
def barrierKey (x : Word) : Nat := x.toNat / 2 ^ 10 % 2 ^ 12 * 1024 + x.toNat % 2 ^ 10
/-- The name passes the checks of R305; with `own`, its owner is the issuing core. -/
def NameOk (s : State) (x : Word) (own : Bool) : Prop :=
  s.barRefused s.sched.cur x = false ∧ (own = true → barrierKey x / 1024 = s.myCore)
/-- The owner of a barrier answers at once: the context's own operations on it have all reached it (R309), and the job runs there (R359). -/
def OwnerAnswers (s : State) (k : Nat) : Prop :=
  (∀ f ∈ s.flights, f.key = s.sched.cur → f.body.bar ≠ some k) ∧ s.jobHere (s.core s.myCore).asid (k / 1024) = true
/-- The instruction ends as a counted operation: ST rises, and one packet of this body leaves. -/
def SendsCounted (i : Instr) (s : State) (body : Pkt) : Prop :=
  ∃ t p f, exec i s = .next t ∧ t.me = { advance (settled s.me) with st := s.me.st + 1, pend := s.me.pend ++ [p] } ∧ p.load = false ∧
    p.counted = true ∧ t.flights = s.flights ++ [f] ∧ f.body = body ∧ f.key = s.sched.cur ∧ f.op = p.id ∧ SameMemory s t ∧
    (∀ k, k ≠ s.sched.cur → t.ctx k = s.ctx k) ∧ t.barriers = s.barriers ∧ t.sems = s.sems
/-- The instruction waits at its place, as a wait that WAITLIMIT bounds. -/
def Waits (i : Instr) (s : State) (a : Await) : Prop :=
  ∃ t, exec i s = .next t ∧ OnlyMe s t ∧ t.me = { s.me with waiting := true, blocking := true, await := a, awaitTok := 0, waited := waitedIn s true }
/-- A value combined into a payload (R308). -/
def combined (op : Nat) (pay v : Word) : Word :=
  match op with
  | 0 => pay &&& v
  | 1 => pay ||| v
  | 2 => pay + v
  | _ => pay + BitVec.ofNat 64 ((List.range 64).filter (fun i => v.getLsbD i)).length
/-- The payload of a new phase (R308). -/
def freshPay (op : Nat) : Word := if op = 0 then BitVec.allOnes 64 else 0

end Sys2Proof.Claims

/-- R304, R305, R309, R313, R321: BARR, BWDRAW and BBYTES on a name that is not refused are releases, then counted operations that send their
event to the owner; BNOTE takes a place in the owner's pool and sends its note, and waits while the owner's job is switched out. A refused
name traps BARBAD with the name. -/
def Sys2Proof.Claims.BarrierEventsAreSent : Prop :=
  ∀ (a b : Reg) (s : State),
    let x := rdG s.me a
    let y := rdG s.me b
    let k := barrierKey x
    let asid := (s.core s.myCore).asid
    (s.barRefused s.sched.cur x = true → ∀ d, ∀ i ∈ [Instr.barr a b, .bwdraw a, .bbytes a b, .bnote a b, .bwait d a, .bstat d a, .binit a b, .blink a b, .bbind a b],
      exec i s = .next (trapAt s cBARBAD x)) ∧
    (NameOk s x false → s.me.st < 63 →
      (ReleaseClear s 2 →
        SendsCounted (.barr a b) s (.barrier k (.arrive y) asid) ∧ SendsCounted (.bwdraw a) s (.barrier k .withdraw asid) ∧
        SendsCounted (.bbytes a b) s (.barrier k (if y.toNat < 2 ^ 63 then .add y.toNat else .bytes (2 ^ 64 - y.toNat) false) asid)) ∧
      (y.toNat < 64 → s.chanBad s.sched.cur y.toNat = false → s.jobHere asid (k / 1024) = false → s.me.waitLimit ≠ 0 →
        Waits (.bnote a b) s .nothing) ∧
      (y.toNat < 64 → s.chanBad s.sched.cur y.toNat = false → s.jobHere asid (k / 1024) = true → (s.core (k / 1024)).notes < 256 →
        ∃ t p f n, exec (.bnote a b) s = .next t ∧ t.me = { advance (settled s.me) with st := s.me.st + 1, pend := s.me.pend ++ [p] } ∧
          t.flights = s.flights ++ [f] ∧ f.body = .bnote k n ∧ n.core = s.myCore ∧ n.chan = y.toNat ∧ n.tag = s.me.taskTag ∧
          n.phase = x.toNat / 2 ^ 32 % 2 ^ 16 ∧ (t.core (k / 1024)).notes = (s.core (k / 1024)).notes + 1 ∧ SameMemory s t)) ∧
    (NameOk s x false → 63 ≤ s.me.st → s.me.waitLimit ≠ 0 → Waits (.barr a b) s s.me.await ∧ Waits (.bwdraw a) s s.me.await ∧
      Waits (.bbytes a b) s s.me.await)

/-- R310, R312, R321: BWAIT returns LASTPAY with an acquire once the phase of the barrier differs from that of its name, or once its flip has
released it, and waits till then; BSTAT reads the words of the barrier. Both wait for the owner while it does not answer (R309, R356). -/
def Sys2Proof.Claims.BarriersAreAwaitedAndRead : Prop :=
  ∀ (d a : Reg) (s : State),
    let x := rdG s.me a
    let k := barrierKey x
    let b := s.bar k
    let sel := x.toNat / 2 ^ 48 % 4
    NameOk s x false →
    (∀ pay f, s.me.wake = some (.bwait pay f) → Gives (.bwait d a) s d pay (Acquired s)) ∧
    ((∀ pay f, s.me.wake ≠ some (.bwait pay f)) → OwnerAnswers s k →
      (b.phase.toNat ≠ x.toNat / 2 ^ 32 % 2 ^ 16 → Gives (.bwait d a) s d b.lastPay (Acquired s)) ∧
      (b.phase.toNat = x.toNat / 2 ^ 32 % 2 ^ 16 → s.me.waitLimit ≠ 0 → Waits (.bwait d a) s (.barrier k b.phase.toNat))) ∧
    (((∃ f ∈ s.flights, f.key = s.sched.cur ∧ f.op ≠ 0 ∧ f.body.bar = some k) ∨ s.jobHere (s.core s.myCore).asid (k / 1024) = false) →
      s.me.waitLimit ≠ 0 → Waits (.bstat d a) s .nothing ∧
        ((∀ pay f, s.me.wake ≠ some (.bwait pay f)) → Waits (.bwait d a) s .nothing)) ∧
    (OwnerAnswers s k →
      (sel = 2 → Gives (.bstat d a) s d b.lastPay (OnlyMe s)) ∧ (sel = 3 → Gives (.bstat d a) s d b.pay (OnlyMe s)) ∧
      (sel = 1 → b.pend < 2 ^ 32 → b.expect < 2 ^ 16 →
        ∃ w, Gives (.bstat d a) s d w (OnlyMe s) ∧ fieldOf w 31 0 = b.pend ∧ fieldOf w 47 32 = b.expect ∧ fieldOf w 50 48 = b.op.toNat) ∧
      (sel = 0 → b.arr < 2 ^ 16 → b.lastWdn < 2 ^ 13 → b.nchild < 2 ^ 11 →
        ∃ w, Gives (.bstat d a) s d w (OnlyMe s) ∧ fieldOf w 15 0 = b.arr ∧ fieldOf w 31 16 = b.phase.toNat ∧ (w.getLsbD 32 = b.err) ∧
          (fieldOf w 34 33 = match b.mode with | .opn => 0 | .held => 1 | .exch => 2) ∧ (w.getLsbD 35 = b.parent.isSome) ∧
          (w.getLsbD 36 = b.group.isSome) ∧ (w.getLsbD 37 = b.lastErr) ∧ (w.getLsbD 38 = b.lastSelfW) ∧ (w.getLsbD 39 = b.lastTree) ∧
          fieldOf w 52 40 = b.lastWdn ∧ fieldOf w 63 53 = b.nchild))

/-- R307, R314, R316, R321: BINIT sets a barrier that nothing uses from its record, and an arrival held there is applied to what it loads (the
model's choice, log entry 48); BLINK makes an idle barrier the
child of another, or of none; BBIND binds one to an idle group at once, else at the next boundary. -/
def Sys2Proof.Claims.BarriersAreSetUp : Prop :=
  ∀ (a b : Reg) (s : State),
    let x := rdG s.me a
    let y := rdG s.me b
    let k := barrierKey x
    let c := s.bar k
    let asid := (s.core s.myCore).asid
    let ends (i : Instr) (f : State → Prop) : Prop := ∃ t, exec i s = .next t ∧ t.me = advance (settled s.me) ∧ SameMemory s t ∧ f t
    NameOk s x true →
    (∀ s1 bytes,
      let f (lo n : Nat) : Nat := leNat bytes / 2 ^ lo % 2 ^ n
      y.toNat % 32 = 0 → OwnerAnswers s k → regionOf (y.toNat % 2 ^ 52) < 0xD → s.spCheck s.sched.cur (runAt (y.toNat % 2 ^ 52) 32) = .ok () →
      (∀ q ∈ s.me.pend, q.acq = 0) → s.guardHit s.myCore (runAt (y.toNat % 2 ^ 52) 32) = false →
      s.readBytes s.sched.cur s.sched.nextId false (runAt (y.toNat % 2 ^ 52) 32) = some (s1, .ok bytes) →
      f 0 16 ≠ 0 → f 16 3 ≤ 3 → f 19 13 = 0 → f 96 160 = 0 →
      c.mode = .opn → c.parent = none → c.nchild = 0 → c.group = none → c.notes = [] →
      (∀ p ∈ s.ctxs, ∀ n, p.2.await ≠ .barrier k n) →
      let new : Barrier := { Barrier.initial with
        expect := f 0 16, op := BitVec.ofNat 3 (f 16 3), reload := f 32 32, pend := f 64 32, pay := freshPay (f 16 3) }
      let sets (x : Barrier) : Prop := ∃ t, exec (.binit a b) s = .next t ∧ t.me = advance (settled s1.me) ∧ SameMemory s1 t ∧ t.bar k = x ∧
        ∀ n, n ≠ k → t.bar n = s1.bar n
      (c.queue = [] → sets new) ∧
      (∀ v, c.queue = [.arrive v] → 1 < f 0 16 → sets { new with arr := 1, pay := combined (f 16 3) new.pay v })) ∧
    (c.mode = .opn → c.arr = 0 → c.group = none → OwnerAnswers s k → (∀ q, c.parent = some q → s.jobHere asid (q / 1024) = true) →
      (y = 0 → ends (.blink a b) (fun t => (t.bar k).parent = none)) ∧
      (y ≠ 0 → s.barRefused s.sched.cur y = false → barrierKey y ≠ k → s.jobHere asid (barrierKey y / 1024) = true →
        (s.bar (barrierKey y)).nchild < 64 → c.parent = none →
        ends (.blink a b) (fun t => (t.bar k).parent = some (barrierKey y) ∧
          (t.bar (barrierKey y)).nchild = (s.bar (barrierKey y)).nchild + 1 ∧ ∀ n, n ≠ k → n ≠ barrierKey y → t.bar n = s.bar n))) ∧
    (let g := y.toNat
     let mine (m : Member) : Prop := (s.group g).member s.myCore = some m
     g < 256 → s.groupRefused g = false → OwnerAnswers s k → c.parent = none → ∀ m, mine m → m.leaving = false →
     (∀ n ∈ (s.group g).members, n.core = s.myCore → n.leaving = false ∧ (n.bound = none ∨ n.bound = some (k % 1024))) →
     (s.groupIdle g = true → s.groupHere g s.myCore = true → ends (.bbind a b) (fun t => (t.bar k).group = some g)) ∧
     (s.groupIdle g = false → ends (.bbind a b) (fun t =>
       (t.group g).binding = (s.group g).binding ++ [(s.myCore, k % 1024, false)] ∧ (t.group g).members = (s.group g).members ∧
       t.barriers = s.barriers)))

/-- R308, R309, R310, R311, R318: an event that reaches an OPEN barrier: an arrival counts and combines its value, a withdrawal counts both
ways, bytes count down. The arrival that completes the phase flips a barrier with no parent and no group: its outcome is kept, its
phase advances, and the contexts of its job that wait for it are released. A note fires at once, with the time of the flip, when the phase
has passed, else it is armed. In a barrier
that is not OPEN an event is held. -/
def Sys2Proof.Claims.BarrierEventsAreApplied : Prop :=
  ∀ (s : State) (f : Flight) (k : Nat) (e : BEvent) (asid : BitVec 16),
    s.flights.find? (fun g => g.id == f.id) = some f → (∀ g ∈ s.flights, g.id < f.id → g.src = f.src → g.body.bar ≠ some k) →
    (s.core (k / 1024)).hasJob = true → (s.core (k / 1024)).asid = asid → s.packetLost asid f.tag = false →
    let b := s.bar k
    let run (q : State → Prop) : Prop := ∃ t, exec (.barrierEvent f.id) s = .next t ∧ (∀ g ∈ t.flights, g.id ≠ f.id) ∧ SameMemory s t ∧ q t
    (f.body = .barrier k e asid → b.mode = .opn → b.queue = [] →
      (∀ v, e = .arrive v → b.arr ≠ b.expect → (b.arr + 1 ≠ b.expect ∨ (b.pend ≠ 0 ∧ b.err = false)) →
        run (fun t => t.bar k = { b with arr := b.arr + 1, pay := combined b.op.toNat b.pay v })) ∧
      (∀ v, e = .arrive v → b.arr + 1 = b.expect → (b.pend = 0 ∨ b.err = true) → b.parent = none → b.group = none → b.holdb = 0 →
        run (fun t => (t.bar k).phase = b.phase + 1 ∧ (t.bar k).lastPay = combined b.op.toNat b.pay v ∧ (t.bar k).lastErr = b.err ∧
          (t.bar k).lastWdn = b.wdn ∧ (t.bar k).arr = 0 ∧ (t.bar k).pay = freshPay b.op.toNat ∧ (t.bar k).err = false ∧ (t.bar k).pend = b.reload ∧
          (t.bar k).mode = .opn ∧ (t.bar k).expect = b.expect ∧ (t.bar k).lastTime = some s.time ∧
          ∀ key n, (s.ctx key).await = .barrier k n → s.jobHere asid (coreOf key) = true → ∃ w, (t.ctx key).wake = some (.bwait (combined b.op.toNat b.pay v) w))) ∧
      (e = .withdraw → b.group = none → b.arr + 1 < b.expect → run (fun t => t.bar k = { b with arr := b.arr + 1, wdn := b.wdn + 1 })) ∧
      (∀ n, e = .bytes n false → b.arr ≠ b.expect → n ≤ b.pend → run (fun t => t.bar k = { b with pend := b.pend - n })) ∧
      (∀ n, e = .add n → b.arr ≠ b.expect → b.pend + n < 2 ^ 32 → run (fun t => t.bar k = { b with pend := b.pend + n }))) ∧
    (f.body = .barrier k e asid → b.mode ≠ .opn → (∀ n x, e ≠ .bytes n x) → (e = .withdraw → b.group = none) → s.heldEvents (k / 1024) < 64 →
      run (fun t => t.bar k = { b with queue := b.queue ++ [e] })) ∧
    (∀ n : Note, f.body = .bnote k n → n.asid = asid → b.phase.toNat = n.phase → run (fun t => t.bar k = { b with notes := b.notes ++ [n] })) ∧
    (∀ n : Note, f.body = .bnote k n → n.asid = asid → b.phase.toNat ≠ n.phase →
      ∃ t m, exec (.barrierEvent f.id) s = .next t ∧ t.mail = s.mail ++ [m] ∧ m.dest = n.core % 4096 ∧ m.msg.kind = 11 ∧
        m.msg.words[2] = b.lastPay ∧ (∀ τ, b.lastTime = some τ → m.msg.words[4] = τ) ∧ t.barriers = s.barriers)

/-- R314: a linked child takes its parent's flip, whatever its MODE: it flips with the parent's payload, error and withdrawals. -/
def Sys2Proof.Claims.ParentsFlipTheirChildren : Prop :=
  ∀ (s : State) (f : Flight) (k w : Nat) (p : Word) (e sw tr : Bool) (asid : BitVec 16),
    s.flights.find? (fun g => g.id == f.id) = some f → f.body = .flip k p e w sw tr asid →
    (s.core (k / 1024)).hasJob = true → (s.core (k / 1024)).asid = asid → (s.bar k).parent.isSome = true → (s.bar k).queue = [] →
    (s.bar k).expect ≠ 0 →
    ∃ t, exec (.parentFlip f.id) s = .next t ∧ (t.bar k).phase = (s.bar k).phase + 1 ∧ (t.bar k).lastPay = p ∧ (t.bar k).lastErr = e ∧
      (t.bar k).lastWdn = w ∧ (t.bar k).lastSelfW = sw ∧ (t.bar k).lastTree = tr ∧ (t.bar k).mode = .opn ∧ (t.bar k).arr = 0 ∧
      (∀ g ∈ t.flights, g.id ≠ f.id) ∧ SameMemory s t

/-- R317, R318, R319: in a group exchange a member's state is kept until every bound member's has come; then all their barriers flip with the
same joint payload, and GPHASE advances. A member whose task has been killed is withdrawn, its barrier flipping with its own values, and so is one
whose collectives have not drained 200 microseconds after a job switch was asked for. -/
def Sys2Proof.Claims.GroupsExchangeAndWithdraw : Prop :=
  ∀ (s : State) (g rank k : Nat) (m : Member),
    let x := s.group g
    let b := s.bar k
    x.members[rank]? = some m → m.bar = some k →
    (b.mode = .exch → s.groupHere g m.core = true → (∀ n ∈ x.members, n.bar.isSome = true → s.groupHere g n.core = true) →
      (∀ n ∈ x.members, n.core = m.core → n = m) →
      let brought (n : Member) : Option (Word × Bool × Nat) := if n = m then some (b.pay, b.err, b.wdn) else n.state
      ((∃ n ∈ x.members, n.bound.isSome = true ∧ brought n = none) →
        ∃ t, exec (.groupExchangeRound g rank b.pay b.err b.wdn none) s = .next t ∧ t.barriers = s.barriers ∧ (t.group g).gphase = x.gphase ∧
          ∀ n ∈ (t.group g).members, n.core = m.core → n.state = some (b.pay, b.err, b.wdn)) ∧
      ((∀ n ∈ x.members, n.bound.isSome = true → (brought n).isSome = true) →
        (x.members.filterMap Member.bar).Nodup → x.joining = [] → x.binding = [] → x.farWords = [] → (∀ n ∈ x.members, n.leaving = false) →
        (∀ n ∈ x.members, ∀ q, n.bar = some q → (s.bar q).mode = .exch ∧ (s.bar q).queue = [] ∧ (s.bar q).expect ≠ 0 ∧ (s.bar q).op = b.op ∧
          (s.bar q).holdb = 0) →
        ∃ t pay, exec (.groupExchangeRound g rank b.pay b.err b.wdn none) s = .next t ∧ (t.group g).gphase = x.gphase + 1 ∧
          (b.op ≠ 3 → pay = ((x.members.filter (fun n => n.bound.isSome)).filterMap brought).foldl
            (fun a v => combined b.op.toNat a v.1) (freshPay b.op.toNat)) ∧
          ∀ n ∈ x.members, ∀ q, n.bar = some q → (t.bar q).phase = (s.bar q).phase + 1 ∧ (t.bar q).lastPay = pay ∧ (t.bar q).mode = .opn ∧
            (t.bar q).arr = 0)) ∧
    (x.members = [m] → s.deadTag (s.core m.core).asid m.task = true → x.joining = [] → x.binding = [] → x.farWords = [] → b.queue = [] → b.expect ≠ 0 →
      s.groupHere g m.core = true →
      ∃ t, exec (.groupWithdrawal g m.core) s = .next t ∧ (t.group g).members = [] ∧ (t.bar k).phase = b.phase + 1 ∧
        (t.bar k).lastSelfW = true ∧ (t.bar k).lastPay = b.pay) ∧
    (∀ w, s.switch = some w → s.selectionHeld m.core = true → x.members = [m] → x.joining = [] → x.binding = [] → x.farWords = [] →
      w.born.toNat + 200000 ≤ s.time.toNat → (∃ q ∈ x.running, q ≠ absentKey ∧ q / 128 = m.core) →
      ∃ t, exec (.collectiveDrainTimeout g m.core) s = .next t ∧ (t.group g).members = [])

/-- R315, R316, R317, R324: the state of a bound member in another package is kept while another's is wanted; a core of another package joins a
group that is idle and empty at once; and a data collective that a far member has QUEUED takes its next number. -/
def Sys2Proof.Claims.FarMembersTakePart : Prop :=
  ∀ (s : State) (g p c : Nat),
    let x := s.group g
    (∀ (rank wdn : Nat) (m : Member) (pay : Word) (err : Bool), x.members[rank]? = some m → m.far = true → m.bound.isSome = true → m.state = none →
      (∃ n ∈ x.members, n.bound.isSome = true ∧ n.state = none ∧ ¬(n.far = true ∧ n.pkg = m.pkg ∧ n.core = m.core)) →
      ∃ t, exec (.groupExchangeRound g rank pay err wdn none) s = .next t ∧ t.barriers = s.barriers ∧ (t.group g).gphase = x.gphase ∧
        ∀ n ∈ (t.group g).members, n.far = true → n.pkg = m.pkg → n.core = m.core → n.state = some (pay, err, wdn)) ∧
    (∀ (tr : Bool) (j : Job), s.groupJob g = some j → j.fld 0 32 12 ≠ p → x.members = [] → x.joining = [] → x.binding = [] → x.farWords = [] →
      x.running = [] →
      ∃ t n, exec (.groupExchangeRound g 0 0 false 0 (some (p, c, .join tr))) s = .next t ∧ (t.group g).members = [n] ∧ n.far = true ∧ n.pkg = p ∧
        n.core = c ∧ n.tree = tr ∧ t.barriers = s.barriers) ∧
    (∀ (sub : Nat) (r : BitVec 512) (m : Member), x.members = [m] → m.far = true → m.pkg = p → m.core = c → 2 ≤ sub → sub ≤ 6 →
      ∃ t, exec (.groupExchangeRound g 0 0 false 0 (some (p, c, .issue sub r))) s = .next t ∧
        (t.group g).members = [{ m with issued := m.issued + 1 }] ∧
        (t.group g).farOps = x.farOps ++ [{ key := farKey p c, no := m.issued + 1, sub := sub, record := r }] ∧ t.barriers = s.barriers)

namespace Sys2Proof.Claims

open Sys2Proof.Machine

/-- The element size of a DTYPE (R323). -/
def dtypeBytes (t : Nat) : Nat := if t = 0 ∨ t = 3 then 4 else if t = 4 then 8 else 2
/-- x op y of a fold (R324): floating sums rounded to the DTYPE under RNE, floating extremes as FMIN and FMAX, integer sums that wrap. -/
def foldStep (t op x y : Nat) : Nat :=
  let w := 8 * dtypeBytes t
  if t ≤ 2 then
    match op with
    | 0 => (roundTo (fmtOf t) 0 0 (sumExact 0 [unpack (fmtOf t) x, unpack (fmtOf t) y]).1).1
    | 1 => (minMax (fmtOf t) false x y).1
    | _ => (minMax (fmtOf t) true x y).1
  else match op with
    | 0 => (x + y) % 2 ^ w
    | 1 => if signedOf w y < signedOf w x then y else x
    | 2 => if signedOf w x < signedOf w y then y else x
    | 3 => x &&& y
    | 4 => x ||| y
    | _ => x ^^^ y
/-- The table of R324: what byte j of DST at rank i becomes, from byte c of block b of the source of rank m. None where it stays. -/
def collectiveByte (f : Form) (t op len root : Nat) (live : List Nat) (src : Nat → Nat → Nat → Byte) (i j : Nat) : Option Byte :=
  let z := dtypeBytes t
  let element (m b : Nat) : Nat := leNat ((List.range z).map (fun c => src m b (j / z * z + c)))
  let fold (b : Nat) : Option Byte := if j < len then
    match live.map (fun m => element m b) with
    | [] => none
    | x :: xs => some (BitVec.ofNat 8 (xs.foldl (foldStep t op) x / 256 ^ (j % z)))
    else none
  let from' (b : Nat) : Option Byte := if live.contains (j / len) then some (src (j / len) b (j % len)) else none
  match f with
  | .cred => fold 0
  | .cbcast => if live.contains root ∧ j < len then some (src root 0 j) else none
  | .cgath => from' 0
  | .crscat => fold i
  | .ca2a => from' i
  | _ => none

end Sys2Proof.Claims

/-- R323, R324: the table of the data collectives: at a member whose operation is DONE, whose DST lies in a scratchpad and meets no other
member's, every byte of DST is what CRED, CBCAST, CGATH, CRSCAT or CA2A puts there from the present ranks' sources in increasing rank
order, and stays where they put nothing; a source block in a scratchpad is what its bytes held. -/
def Sys2Proof.Claims.CollectivesWriteTheirTable : Prop :=
  ∀ (s s1 s3 : State) (g i k : Nat) (ins : List CollIn) (src : Nat → Nat → Nat → Byte),
    let ks := (s.group g).running
    let n := ks.length
    let live := liveRanks ks
    let o := s.keyOp k
    let len := recFld o.record 384 32
    let dst (q : Nat) : Nat := recFld (s.keyOp q).record 320 52
    ks[i]? = some k → k < absentKey → (∀ q ∈ ks, q ≤ absentKey) → (ks.filter (fun q => decide (q < absentKey))).Nodup →
    o.form.isData = true → 0 < len → len % 64 = 0 → recFld o.record 436 4 ≤ 4 → recFld o.record 440 4 ≤ 5 →
    (∀ q ∈ ks, q < absentKey → (s.keyOp q).form = o.form ∧ recFld (s.keyOp q).record 384 32 = len ∧
      recFld (s.keyOp q).record 424 20 = recFld o.record 424 20) →
    (∀ m ∈ live, s.entering (ks.getD m absentKey) (s.collNamed g) = false) →
    s.collReads ks (collBlocks o.form (recFld o.record 424 12) live) = (s1, ins) →
    (∀ d ∈ ins, ∃ b, d.data = some (.ok b) ∧ ∀ c, c < len → b.getD c 0 = src d.rank d.block c) →
    s1.collGive g live ins live = some s3 → (s3.keyOp k).status = 0x01 →
    (∀ c, c < n * len → isSp (dst k + c) = true) → (∀ q ∈ ks, q < absentKey → dst q + n * len ≤ 2 ^ 52) →
    (∀ q ∈ ks, q < absentKey → q ≠ k → dst q + n * len ≤ dst k ∨ dst k + n * len ≤ dst q) →
    (∃ t, exec (.collectiveComplete g []) s = .next t ∧ ∀ j, j < n * len → memGet t.mem.cells (dst k + j) =
      (collectiveByte o.form (recFld o.record 436 4) (recFld o.record 440 4) len (recFld o.record 424 12) live src i j).getD
        (memGet s.mem.cells (dst k + j))) ∧
    (∀ d ∈ ins, let a := recFld (s.keyOp (ks.getD d.rank absentKey)).record 256 52 + d.block * len
      a + len ≤ 2 ^ 52 → (∀ c, c < len → isSp (a + c) = true) → ∀ c, c < len → src d.rank d.block c = memGet s.mem.cells (a + c))

/-- R315, R316, R317, R318, R319, R325: in a group of any size: a GJOIN of an idle group makes its core a member, ranked by package and core, and
one of a group that is not idle waits for the boundary; a GLEAVE of an idle group removes its member and unbinds its barrier, and one of a core that
is no member is DONE at once. A member whose task is dead is removed at once, its barrier flipping with its own values; where every other bound
member has brought its state the phase completes on the tree without it. A member whose collectives have not drained is removed too, its operation
FAULTED with WAITTIME. -/
def Sys2Proof.Claims.LargerGroupsJoinLeaveAndWithdraw : Prop :=
  ∀ (s : State) (g : Nat),
    let x := s.group g
    let settled : Prop := x.joining = [] ∧ x.binding = [] ∧ x.farWords = [] ∧ ∀ n ∈ x.members, n.leaving = false
    let ranked (ms : List Member) : Prop := ms.Pairwise (fun a b => a.pkg < b.pkg ∨ (a.pkg = b.pkg ∧ a.core ≤ b.core))
    (∀ k, s.groupQueued g = [k] → (s.keyOp k).form = .gjoin → x.member (k / 128) = none → s.collWaiting g (k / 128) = [] →
      x.running = [] → settled → x.members.length < 4096 →
      (s.groupIdle g = true → ∃ t new, exec (.collectiveStart g) s = .next t ∧ (∀ n, n ∈ (t.group g).members ↔ n ∈ x.members ∨ n = new) ∧
        (t.group g).members.length = x.members.length + 1 ∧ ranked (t.group g).members ∧ new.core = k / 128 ∧ new.far = false ∧
        new.task = (s.keyOp k).task ∧ new.tree = (s.keyOp k).record.getLsbD 264 ∧ new.bound = none ∧ (t.group g).gphase = x.gphase ∧
        (t.keyOp k).state = .running ∧ (t.keyOp k).status = 0x01 ∧ fieldOf (t.keyOp k).word2 24 12 = x.members.length + 1 ∧ SameMemory s t) ∧
      (s.groupIdle g = false → (∀ n ∈ x.members, n.far = false → n.issued ≤ x.sequence) → (∃ n ∈ x.members, n.far = false) →
        ∃ t, exec (.collectiveStart g) s = .next t ∧ (t.group g).members = x.members ∧ (t.keyOp k).state = .running ∧
        (t.keyOp k).status = (s.keyOp k).status ∧ ((t.group g).joining.map (·.1)) = [k / 128] ∧ SameMemory s t)) ∧
    (∀ k, s.groupQueued g = [k] → (s.keyOp k).form = .gleave → x.running = [] → settled →
      (x.member (k / 128) = none → (∀ n ∈ x.members, n.far = false ∧ n.issued ≤ x.sequence) →
        ∃ t, exec (.collectiveStart g) s = .next t ∧ (t.group g).members = x.members ∧ (t.keyOp k).status = 0x01 ∧ SameMemory s t) ∧
      (∀ m, x.member (k / 128) = some m → s.groupIdle g = true → (s.keyOp k).status = 0 → s.groupHere g m.core = true →
        (∀ n ∈ x.members, n.at m.core = false → n.far = false ∧ n.issued ≤ x.sequence) →
        ∃ t, exec (.collectiveStart g) s = .next t ∧ (∀ n, n ∈ (t.group g).members ↔ n ∈ x.members ∧ n.at m.core = false) ∧
          ranked (t.group g).members ∧ (t.keyOp k).status = 0x01 ∧ (∀ q, m.bar = some q → (t.bar q).group = none) ∧ SameMemory s t)) ∧
    (∀ (m : Member) (k : Nat), x.member m.core = some m → m.bar = some k → s.groupHere g m.core = true → settled →
      (s.bar k).queue = [] → (s.bar k).expect ≠ 0 →
      let b := s.bar k
      let others := x.members.filter (fun n => !n.at m.core)
      let bound := others.filter (fun n => n.bound.isSome)
      let removed (t : State) : Prop := (∀ n, n ∈ (t.group g).members ↔ ∃ o ∈ others, n.core = o.core ∧ n.pkg = o.pkg ∧ n.far = o.far ∧
          n.bound = o.bound ∧ n.task = o.task ∧ n ∈ (t.group g).members) ∧ (t.group g).members.length = others.length ∧
        (t.bar k).phase = b.phase + 1 ∧ (t.bar k).lastPay = b.pay ∧ (t.bar k).lastErr = b.err ∧ (t.bar k).lastWdn = b.wdn ∧
        (t.bar k).lastSelfW = true ∧ (t.bar k).group = none
      (s.deadTag (s.core m.core).asid m.task = true → x.running = [] →
        ((bound = [] ∨ ∃ n ∈ bound, n.state = none) → ∃ t, exec (.groupWithdrawal g m.core) s = .next t ∧ removed t ∧
          (t.group g).gphase = x.gphase ∧ (t.group g).onTree = true ∧ (t.group g).wdn = x.wdn + 1 ∧ SameMemory s t) ∧
        (bound ≠ [] → (∀ n ∈ bound, n.state.isSome = true ∧ (n.far = true ∨ s.groupHere g n.core = true)) → (x.members.filterMap Member.bar).Nodup →
          (∀ n ∈ bound, ∀ q, n.bar = some q → (s.bar q).mode = .exch ∧ (s.bar q).queue = [] ∧ (s.bar q).expect ≠ 0 ∧ (s.bar q).op = b.op ∧
            (s.bar q).holdb = 0) → (∃ n ∈ bound, n.far = false) →
          ∃ t, exec (.groupWithdrawal g m.core) s = .next t ∧ removed t ∧ (t.group g).gphase = x.gphase + 1 ∧
            ∀ n ∈ bound, ∀ q, n.bar = some q → (t.bar q).phase = (s.bar q).phase + 1 ∧ (t.bar q).mode = .opn ∧ (t.bar q).arr = 0 ∧
              (t.bar q).lastTree = true ∧ (t.bar q).lastErr = (bound.filterMap (·.state)).any (fun v => v.2.1) ∧
              (t.bar q).lastWdn = x.wdn + 1 + ((bound.filterMap (·.state)).map (fun v => v.2.2)).sum ∧
              (t.bar q).lastPay = (bound.filterMap (·.state)).foldl (fun a v => if b.op = 3 then a + v.1 else combined b.op.toNat a v.1)
                (freshPay b.op.toNat))) ∧
      (∀ w q, s.switch = some w → s.selectionHeld m.core = true → w.born.toNat + 200000 ≤ s.time.toNat →
        (bound = [] ∨ ∃ n ∈ bound, n.state = none) → q ∈ x.running → q < absentKey → q / 128 = m.core → (s.keyOp q).state = .running →
        (∀ p ∈ x.running, p / 128 = m.core → p = q) →
        ∃ t, exec (.collectiveDrainTimeout g m.core) s = .next t ∧ removed t ∧ (t.keyOp q).status = 0x10 ∧ (t.keyOp q).cause = cWAITTIME ∧
          (t.group g).running = x.running.map (fun p => if p = q then absentKey else p)))

/-- R316, R324, R325: a GJOIN of an idle group makes its core a member and is decided DONE. A collective starts when every member has issued it
and each is QUEUED and agrees with the others: each becomes RUNNING with its rank. When every present member's buffers have been read and
written, the collective is over and its sequence number advances. -/
def Sys2Proof.Claims.CollectivesStartAndComplete : Prop :=
  ∀ (s : State) (g : Nat),
    let x := s.group g
    (∀ k, s.groupQueued g = [k] → (s.keyOp k).form = .gjoin → (s.keyOp k).state = .queued → x.members = [] → x.joining = [] → x.binding = [] →
      x.farWords = [] → x.running = [] →
      ∃ t, exec (.collectiveStart g) s = .next t ∧ ((t.group g).members.map (·.core)) = [k / 128] ∧ (t.keyOp k).state = .running ∧
        (t.keyOp k).status = 0x01 ∧ SameMemory s t) ∧
    (∀ ks : List Nat, x.running = [] → ks ≠ [] → ks.Nodup → ks.length = x.members.length → (∀ k ∈ ks, k < absentKey) →
      (∀ (i : Nat) (m : Member) (k : Nat), x.members[i]? = some m → ks[i]? = some k → s.brings g (x.sequence + 1) m = .op k) → s.agree g ks = true →
      (∀ k ∈ s.groupQueued g, (s.keyOp k).form.isData = true ∧ (x.member (k / 128)).isSome = true) →
      ∃ t, exec (.collectiveStart g) s = .next t ∧ (t.group g).running = ks ∧ (t.group g).members = x.members ∧ SameMemory s t ∧
        ∀ (i k : Nat), ks[i]? = some k → (t.keyOp k).state = .running ∧ (t.keyOp k).prog = i) ∧
    (∀ s1 ins s3, let live := liveRanks x.running
      let o := s.keyOp (x.running.getD (live.headD 0) absentKey)
      live ≠ [] → (∀ k ∈ x.running, k ≤ absentKey) → (∀ m ∈ live, s.entering (x.running.getD m absentKey) (s.collNamed g) = false) →
      s.collReads x.running (collBlocks o.form (collRoot o.record) live) = (s1, ins) → (∀ d ∈ ins, ∃ b, d.data = some (.ok b)) →
      s1.collGive g live ins live = some s3 →
      ∃ t, exec (.collectiveComplete g []) s = .next t ∧ (t.group g).running = [] ∧ (t.group g).sequence = x.sequence + 1 ∧ SameMemory s3 t)

/-- R384, R386, R387, R389: SEMADD and SEMSET on a semaphore of the job are releases, then counted operations of the unit; SEMRD is a counted
load; SEMWAIT.N arms a notice. SEMWAIT sends its wait once, waits, and ends with an acquire when it is satisfied. An index outside the allotment
traps PROT naming it. -/
def Sys2Proof.Claims.SemaphoreInstructionsReachTheUnit : Prop :=
  ∀ (d a b : Reg) (c : BitVec 6) (s : State) (j : Job), s.jobOn s.myCore = some j →
    let x := rdG s.me a
    let y := rdG s.me b
    let n := j.fld 3 0 10 + x.toNat
    let asid := (s.core s.myCore).asid
    (j.fld 3 10 11 ≤ x.toNat → ∀ i ∈ [Instr.semadd a b, .semset a b, .semrd d a, .semwait a b, .semwaitN a b c], exec i s = .next (trapAt s cPROT x)) ∧
    (x.toNat < j.fld 3 10 11 →
      (s.me.st < 63 → ReleaseClear s 2 → SendsCounted (.semadd a b) s (.sem n (.add y) asid) ∧ SendsCounted (.semset a b) s (.sem n (.set y) asid)) ∧
      (s.me.st < 63 → s.chanBad s.sched.cur c.toNat = false → s.armed.length + (s.flights.filter (fun f => f.body.arms)).length < 2048 →
        SendsCounted (.semwaitN a b c) s (.sem n (.arm y c.toNat s.me.taskTag) asid)) ∧
      (s.me.ld < 63 → (∀ q ∈ s.me.pend, q.acq = 0) →
        ∃ t p f, exec (.semrd d a) s = .next t ∧ t.me = { advance (settled s.me) with ld := s.me.ld + 1, pend := s.me.pend ++ [p] } ∧
          p.load = true ∧ p.dst = .g d false ∧ t.flights = s.flights ++ [f] ∧ f.body = .sem n .read asid ∧ f.op = p.id ∧ SameMemory s t) ∧
      (s.me.wake = some .sem → ∃ t, exec (.semwait a b) s = .next t ∧ t.me = advance (settled s.me) ∧ Acquired s t ∧ SameMemory s t) ∧
      (s.me.wake ≠ some .sem → s.me.await ≠ .sem n y → s.me.waitLimit ≠ 0 →
        ∃ t f, exec (.semwait a b) s = .next t ∧ t.flights = s.flights ++ [f] ∧ f.body = .sem n (.wait y) asid ∧ f.key = s.sched.cur ∧
          t.me = { s.me with waiting := true, blocking := true, await := .sem n y, awaitTok := 0, waited := waitedIn s true }))

/-- R384, R386 to R389: the unit does the operations of one context in their order. An addition is clamped to 0 and 2^64 - 1; every update fires
the armed notices that its value satisfies, in arming order, each a NOTIFY with the semaphore, the value, the threshold and the time, and
releases every context whose wait for it has reached the unit; a read answers with the value; a wait armed when it is satisfied already fires
at once. SEMVAL and SEMINC writes act as SEMSET and SEMADD. -/
def Sys2Proof.Claims.SemaphoreUnitUpdates : Prop :=
  ∀ (s : State) (n : Nat) (v : Word),
    let old := s.sem n
    let sum : Word := BitVec.ofInt 64 (max 0 (min (2 ^ 64 - 1) ((old.toNat : Int) + v.toInt)))
    let base (asid : BitVec 16) : Nat := ((s.job asid).map (fun j => j.fld 3 0 10)).getD 0
    let tells (m : Mail) (w : Armed) (y : Word) : Prop := m.src = w.core ∧ m.dest = w.core % 4096 ∧ m.msg.kind = 11 ∧ m.msg.chan = w.chan % 64 ∧
      m.msg.tag = w.tag ∧ m.msg.asid = w.asid ∧ m.msg.words[1] = BitVec.ofNat 64 (w.sem - base w.asid) ∧ m.msg.words[2] = y ∧
      m.msg.words[3] = w.thr ∧ m.msg.words[4] = s.time ∧ m.msg.words[5] = 0 ∧ m.msg.words[6] = 0 ∧ m.msg.words[7] = 0
    let waitsBelow (key : Nat) (y : Word) : Prop := ∃ thr, (s.ctx key).await = .sem n thr ∧ thr.toNat ≤ y.toNat ∧
      ∀ g ∈ s.flights, g.key = key → g.op = (s.ctx key).act → ∀ m th asid, g.body ≠ .sem m (.wait th) asid
    let updated (t : State) (y : Word) : Prop := t.sem n = y ∧ (∀ k, k ≠ n → t.sem k = s.sem k) ∧ SameMemory s t ∧
      (∀ w, w ∈ t.armed ↔ w ∈ s.armed ∧ ¬(w.sem = n ∧ w.thr.toNat ≤ y.toNat)) ∧
      (let fired := s.armed.filter (fun w => decide (w.sem = n ∧ w.thr.toNat ≤ y.toNat))
       ∃ ms, t.mail = s.mail ++ ms ∧ ms.length = fired.length ∧ ∀ (i : Nat) (m : Mail) (w : Armed), ms[i]? = some m → fired[i]? = some w → tells m w y) ∧
      (∀ key, (s.ctx key).wake = none → (waitsBelow key y → (t.ctx key).wake = some .sem) ∧ (¬waitsBelow key y → (t.ctx key).wake = none))
    (∀ (f : Flight) (op : SemOp) (asid : BitVec 16), s.flights.find? (fun g => g.id == f.id) = some f → f.body = .sem n op asid →
      (∀ g ∈ s.flights, g.id < f.id → g.key = f.key → g.body.isSem = false) → (s.job asid).isSome = true →
      let run (q : State → Prop) : Prop := ∃ t, exec (.semUnitOp f.id) s = .next t ∧ (∀ g ∈ t.flights, g.id ≠ f.id) ∧ q t
      (op = .add v → run (fun t => updated t sum)) ∧ (op = .set v → run (fun t => updated t v)) ∧
      (op = .read → ∀ p, (s.ctx f.key).pend = [p] → p.id = f.op → p.parts = 1 → p.reply = none → p.counted = true →
        run (fun t => t.sems = s.sems ∧ ∃ q, (t.ctx f.key).pend = [q] ∧ q.reply = some (.bytes (leBytes 8 old.toNat)) ∧ q.parts = 0)) ∧
      (∀ thr, op = .wait thr → thr.toNat ≤ old.toNat → (s.ctx f.key).await = .sem n thr → (s.ctx f.key).wake = none →
        (∀ g ∈ s.flights, g.id ≠ f.id → g.key ≠ f.key) → (∃ p ∈ s.ctxs, p.1 = f.key) →
        run (fun t => (t.ctx f.key).wake = some .sem ∧ t.sems = s.sems)) ∧
      (∀ thr ch tag, op = .arm thr ch tag → thr.toNat ≤ old.toNat → run (fun t => t.sems = s.sems ∧ t.armed = s.armed ∧ ∃ m, t.mail = s.mail ++ [m] ∧
        tells m { sem := n, thr := thr, core := coreOf f.key, chan := ch, tag := tag, asid := asid } old)) ∧
      (∀ thr ch tag, op = .arm thr ch tag → old.toNat < thr.toNat → run (fun t => t.sems = s.sems ∧
        t.armed = s.armed ++ [{ sem := n, thr := thr, core := coreOf f.key, chan := ch, tag := tag, asid := asid }]))) ∧
    (n < 1024 → (∃ t, exec (.semvalWrite n v) s = .next t ∧ updated t v) ∧ (∃ t, exec (.semincWrite n v) s = .next t ∧ updated t sum))

namespace Sys2Proof.Claims

open Sys2Proof.Machine

/-! ### The fabric (R327 to R340) and kills (R351 to R355) -/

/-- What a CIRC operation finds at its port (R338): it is its turn there, and no set-up works. -/
def CircTurn (s : State) (core slot : Nat) : Prop :=
  slot < 128 ∧ (s.op core slot).state = .queued ∧ s.portTaken core slot = false ∧ (s.port (fabPort (s.op core slot).record)).op = none
/-- The ends of a set-up: the status and the cause of its operation. -/
def Concluded (t : State) (k : Nat) (status cause : BitVec 8) : Prop :=
  (t.op (k / 128) (k % 128)).status = status ∧ (t.op (k / 128) (k % 128)).cause = cause

end Sys2Proof.Claims

/-- R329, R333, R337, R338: CIRC ends FAULTED for an unbound peer (XLATE), a port whose light is lost or that is off (ENGBAD), and DONE at once
where the circuit asked for is up; else it takes an old circuit down and begins the set-up of the new one. CIRC.T takes the port's circuit down. -/
def Sys2Proof.Claims.CircuitOperationsExecute : Prop :=
  ∀ (s : State) (core slot : Nat), CircTurn s core slot →
    let o := s.op core slot
    let p := fabPort o.record
    let x := s.port p
    let pp := fabPport o.record
    let peer := (s.job o.asid).bind (fun j => s.famOf j (fabPeer o.record))
    (o.form = .circ → x.state ≠ 3 →
      (peer = none → ∃ t, exec (.circExecution core slot) s = .next t ∧ Decided t core slot 0x10 cXLATE (circWord p 0 pp 3 0 0)) ∧
      (∀ e, peer = some e →
        (x.state = 6 → ∃ t, exec (.circExecution core slot) s = .next t ∧ Decided t core slot 0x10 cENGBAD (circWord p e.phys.toNat pp 4 0 0)) ∧
        (x.state = 0 ∨ x.state = 1 →
          ∃ t, exec (.circExecution core slot) s = .next t ∧ Decided t core slot 0x10 cENGBAD (circWord p e.phys.toNat pp 0 0 0)) ∧
        (x.state = 4 ∨ x.state = 5 → x.phys = e.phys → x.pport.toNat = pp →
          ∃ t, exec (.circExecution core slot) s = .next t ∧ t.fabric = s.fabric ∧
            Decided t core slot (if x.state = 5 then 0x04 else 0x01) 0 (circWord p e.phys.toNat pp (if x.state = 5 then 5 else 0) 0 x.skew.toNat)) ∧
        (x.state = 2 ∨ ((x.state = 4 ∨ x.state = 5) ∧ ¬(x.phys = e.phys ∧ x.pport.toNat = pp)) →
          ∃ t, exec (.circExecution core slot) s = .next t ∧ (t.op core slot).state = .running ∧ (t.op core slot).status = o.status ∧
            (t.port p).state = 3 ∧ (t.port p).op = some (core * 128 + slot) ∧ (t.port p).attempt = 1 ∧ (t.port p).settling = false ∧
            (t.port p).phys = e.phys ∧ (t.port p).pport.toNat = pp ∧ ∀ q, q ≠ p → t.port q = s.port q))) ∧
    (o.form = .circT →
      let up : Prop := x.state = 4 ∨ x.state = 5
      ∃ t, exec (.circTExecution core slot) s = .next t ∧ (t.op core slot).status = 0x01 ∧ (t.op core slot).state = .running ∧
        (up → (t.port p).state = 2 ∧ (t.port p).phys = 0 ∧ (t.port p).pport = 0) ∧ (¬up → t.port p = x) ∧
        ∀ q, q ≠ p → t.port q = s.port q)

/-- R332, R338: an acknowledged set-up settles; a refused one backs off and tries again, and its eighth refusal ends it in WAITTIME. An idle port
of the running job acknowledges a request and settles, a port that carries a circuit to the port that asks acknowledges it again, and a port
that is dark, gated or without light refuses it. A settled circuit is UP, or HELD above 64 ns of skew, and its operation ends DONE; a teardown makes
the port IDLE. -/
def Sys2Proof.Claims.CircuitsSettle : Prop :=
  ∀ (s : State) (p : Nat),
    let x := s.port p
    (∀ k far, x.op = some k → x.state = 3 → x.settling = false → x.reason = 0 →
      (∃ t, exec (.setupAnswer p true far) s = .next t ∧ t.port p = { x with settling := true } ∧ t.ops = s.ops) ∧
      (x.attempt < 8 → ∃ t, exec (.setupAnswer p false far) s = .next t ∧ t.port p = { x with reason := if far then 2 else 1 } ∧ t.ops = s.ops) ∧
      (8 ≤ x.attempt → ∃ t, exec (.setupAnswer p false far) s = .next t ∧ (t.port p).state = 2 ∧ (t.port p).op = none ∧ Concluded t k 0x10 cWAITTIME)) ∧
    (∀ k, x.op = some k → x.reason ≠ 0 → x.state = 3 →
      ∃ t, exec (.setupBackoffExpiry p) s = .next t ∧ t.port p = { x with attempt := x.attempt + 1, reason := 0 } ∧ t.ops = s.ops) ∧
    (∀ k, x.op = some k → x.state ≠ 3 →
      ∃ t, exec (.setupBackoffExpiry p) s = .next t ∧ (t.port p).state = x.state ∧ (t.port p).op = none ∧ Concluded t k 0x10 cENGBAD) ∧
    (∀ (phys far : Nat) (asid : BitVec 16), p < 64 →
      let answers (yes : Bool) (y : Port) : Prop := ∃ t, exec (.setupRequest p phys far asid) s = .next t ∧ t.port p = y ∧
        t.fabric.answered = some (phys, far, p, yes) ∧ ∀ q, q ≠ p → t.port q = s.port q
      (x.state = 2 → x.op = none → x.jobp = true → (∃ c ∈ s.cores, c.2.hasJob = true ∧ c.2.asid = asid) →
        answers true { x with state := 3, settling := true, phys := BitVec.ofNat 12 phys, pport := BitVec.ofNat 6 far }) ∧
      (x.state = 4 ∨ x.state = 5 → x.phys.toNat = phys → x.pport.toNat = far → answers true x) ∧
      (x.state = 0 ∨ x.state = 1 ∨ x.state = 6 ∨ (x.state = 2 ∧ x.jobp = false) → answers false x)) ∧
    (∀ skew, x.state = 3 → x.settling = true →
      ∃ t, exec (.circuitTrained p skew) s = .next t ∧ (t.port p).state = (if 64000 < skew then 5 else 4) ∧ (t.port p).settling = false ∧
        (t.port p).phys = x.phys ∧ (t.port p).skew.toNat = min skew (2 ^ 24 - 1) ∧
        ∀ k, x.op = some k → Concluded t k (if 64000 < skew then 0x04 else 0x01) 0) ∧
    ((x.state = 4 ∨ x.state = 5) ∨ (x.state = 3 ∧ x.op = none) →
      ∃ t, exec (.teardownReceived p) s = .next t ∧ (t.port p).state = 2 ∧ (t.port p).phys = 0 ∧ (t.port p).pport = 0)

/-- R333, R340: with no earlier operation open on a port of its mask, PGATE moves the IDLE ports of its mask, unless a set-up is working on them, to GATED; PWAKE moves the DARK and the GATED ports to IDLE and ends FAULTED with
ENGBAD, the failed ports in word 2, when a port of the mask has lost its light. -/
def Sys2Proof.Claims.PortsAreGatedAndWoken : Prop :=
  ∀ (s : State) (core slot : Nat), slot < 128 → (s.op core slot).state = .queued → s.portTaken core slot = false →
    let m := fabMask (s.op core slot).record
    ((s.op core slot).form = .pgate → ∃ t, exec (.pgateExecution core slot) s = .next t ∧ Decided t core slot 0x01 0 0 ∧ ∀ p, p < 64 →
      t.port p = if m.getLsbD p = true ∧ (s.port p).state = 2 ∧ (s.port p).op = none then { s.port p with state := 1 } else s.port p) ∧
    ((s.op core slot).form = .pwake → ∃ t, exec (.pwakeExecution core slot) s = .next t ∧ (t.op core slot).state = .running ∧
      ((∀ p, p < 64 → m.getLsbD p = true → (s.port p).state ≠ 6) → Decided t core slot 0x01 0 0) ∧
      ((∃ p, p < 64 ∧ m.getLsbD p = true ∧ (s.port p).state = 6) → (t.op core slot).status = 0x10 ∧ (t.op core slot).cause = cENGBAD ∧
        ∀ p, p < 64 → ((t.op core slot).word2.getLsbD p = true ↔ m.getLsbD p = true ∧ (s.port p).state = 6)) ∧
      ∀ p, p < 64 → t.port p =
        if m.getLsbD p = true ∧ ((s.port p).state = 0 ∨ (s.port p).state = 1) then { s.port p with state := 2 } else s.port p)

/-- R331, R353: an acknowledgement ends a packet and what waits for it; a packet unanswered for 20 microseconds is sent again, and past its lifetime
it is given up, its operation ending in WAITTIME, and so a collective whose exchange it carried. A dead tag leaves the filter after its lifetime, and no
message that it was installed to meet outlives it. -/
def Sys2Proof.Claims.PacketsAreAnsweredOrGivenUp : Prop :=
  ∀ (s : State) (r : Retry), s.fabric.retry.find? (fun q => q.id == r.id) = some r →
    let gone (t : State) : Prop := ∀ q ∈ t.fabric.retry, q.id ≠ r.id
    let answered (t : State) (x : Reply) : Prop := ∀ p, (s.ctx r.key).pend = [p] → p.id = r.op → p.parts = 1 → p.reply = none → p.counted = true →
      ∃ q, (t.ctx r.key).pend = [q] ∧ q.reply = some x ∧ q.parts = 0
    (s.upTo r.phys = true →
      (∀ m, r.body = .msg m none → ∃ t, exec (.packetAck r.id .ok) s = .next t ∧ gone t ∧ answered t .done) ∧
      (∀ pa op z x c v fl, r.body = .atomic pa op z x c → ∃ t, exec (.packetAck r.id (.old v fl)) s = .next t ∧ gone t ∧ answered t (.old v fl)) ∧
      (∀ core slot va cells, r.body = .beat core slot va cells → cells ≠ [] →
        ∃ t, exec (.packetAck r.id .ok) s = .next t ∧ gone t ∧ (t.op core slot).unacked = (s.op core slot).unacked - 1 ∧
          (t.op core slot).bytes = (s.op core slot).bytes + cells.length)) ∧
    (r.last + cyclesOf 20 ≤ s.now → ∃ t, exec (.packetRetry r.id) s = .next t ∧ { r with last := s.now } ∈ t.fabric.retry ∧
      t = { s with fabric := t.fabric } ∧ ∀ q ∈ s.fabric.retry, q.id ≠ r.id → q ∈ t.fabric.retry) ∧
    (r.born + cyclesOf s.fabric.fablife.toNat ≤ s.now → ∀ m, r.body = .msg m none →
      ∃ t, exec (.packetLifetimeExpiry r.id) s = .next t ∧ gone t ∧ answered t (.fault cWAITTIME (s.faultAddr r.key r.op))) ∧
    (r.born + cyclesOf s.fabric.fablife.toNat ≤ s.now → ∀ core slot seq, r.body = .exchange core slot seq → (s.op core slot).state = .running →
      (s.op core slot).status = 0 → (s.op core slot).seq = seq →
      ∃ t, exec (.packetLifetimeExpiry r.id) s = .next t ∧ gone t ∧ (t.op core slot).status = 0x10 ∧ (t.op core slot).cause = cWAITTIME) ∧
    (∀ n d, s.deadTags[n]? = some d → d.born.toNat + 1000 * s.fabric.fablife.toNat ≤ s.time.toNat →
      let old (m : Mail) : Prop := m.id < d.since ∧ m.msg.asid = d.asid ∧ m.msg.tag = d.tag ∧ m.msg.kind ∈ [0, 1, 7, 9, 11]
      ∃ t, exec (.deadTagExpiry n) s = .next t ∧ t.deadTags = s.deadTags.eraseIdx n ∧ t.cores = s.cores ∧ SameMemory s t ∧
        (∀ m ∈ t.mail, m ∈ s.mail ∧ ¬old m) ∧ (∀ m ∈ s.mail, (∀ x ∈ s.mail, x.id = m.id → ¬old x) → m ∈ t.mail))

/-- R227, R229, R261, R330, R331: a packet from another package takes effect once, when a circuit to its source is UP, and an ordered one after all
those before it: a message joins those on their way, a beat is written, bytes go to their barrier, an atomic updates its home; a duplicate is
discarded. -/
def Sys2Proof.Claims.PacketsTakeEffectOnce : Prop :=
  ∀ (s : State) (src seq : Nat) (body : FabIn),
    let due (u : State) : Prop := (body.ordered = true → seq = tabGet u.fabric.nextIn src 0) ∧ (body.ordered = false → (src, seq) ∉ u.fabric.seen)
    let took (q : State → Prop) : Prop := ∃ t, exec (.packetArrival src seq body) s = .next t ∧ ¬due t ∧ q t
    ((s.upTo src = false ∨ ¬due s) → exec (.packetArrival src seq body) s = .next s) ∧
    (s.upTo src = true → due s →
      (body = .marker → (∀ m ∈ s.mail, m.src ≠ farSource src) → took (fun t => t = { s with fabric := t.fabric })) ∧
      (∀ (ws : Vector Word 8) asid pkg, body = .msg ws asid pkg → fieldOf ws[0] 63 60 ≠ 0 → took (fun t => SameMemory s t ∧
        ∃ m, t.mail = s.mail ++ [m] ∧ m.msg.words = ws ∧ m.msg.asid = asid ∧ m.dest = fieldOf ws[0] 37 26)) ∧
      (∀ asid (dst : BitVec 52) data, body = .beat asid dst data → regionOf dst.toNat = 0xC → dst.toNat % 64 = 0 → s.mem.poison = [] →
        s.spRefused asid false ((List.range 64).map (dst.toNat + ·)) = false →
        took (fun t => memBytes t.mem.cells dst.toNat 64 = leBytes 64 data.toNat ∧
          ∀ a, (a < dst.toNat ∨ dst.toNat + 64 ≤ a) → memGet t.mem.cells a = memGet s.mem.cells a)) ∧
      (∀ asid name n err j, body = .barrier asid name n err → s.job asid = some j → name.toNat / 2 ^ 22 % 2 ^ 10 = 0 → name.toNat / 2 ^ 50 = 0 →
        j.holds (barrierKey name / 1024) = true → barrierKey name % 1024 < j.nbOn (barrierKey name / 1024) →
        took (fun t => ∃ f, t.flights = s.flights ++ [f] ∧ f.body = .barrier (barrierKey name) (if n = 0 then .error else .bytes n err) asid)) ∧
      (∀ (pa : BitVec 52) op z x c, body = .atomic pa op z x c →
        let a := pa.toNat % 2 ^ 40
        let n := atomBytes z
        a + n ≤ dramSize → s.dramPoisoned a = false → (s.lmeta (lineOf a)).state = 0 → s.homeTrans (lineOf a) = none →
        took (fun t => memBytes t.mem.cells a n = leBytes n (atomNew op n (leNat (memBytes s.mem.cells a n)) x.toNat c.toNat).1 ∧
          ∀ b, (b < a ∨ a + n ≤ b) → memGet t.mem.cells b = memGet s.mem.cells b)))

namespace Sys2Proof.Claims

open Sys2Proof.Machine

/-- A packet that reports to a sender when it is given up: a message, an atomic, or a child operation's arrival. -/
def reports (r : Retry) : Bool := match r.body with | .msg _ _ => true | .atomic _ _ _ _ _ => true | .barrier _ _ _ => true | _ => false
/-- A packet for which a context waits. -/
def answersContext (r : Retry) : Bool := match r.body with | .msg _ _ => true | .atomic _ _ _ _ _ => true | _ => false
/-- A packet of a copy. -/
def isBeat (r : Retry) : Bool := match r.body with | .beat _ _ _ _ => true | _ => false

end Sys2Proof.Claims

/-- R339: FAMWR of an entry of the job installs the binding at once when the entry is not valid or FORCE is set; the unacknowledged ordered packets to
the old package leave the retry buffer, FAMDROP counts them, and each reports XLATE: to the context of a message or an atomic, and in the record of a
child operation, FAULTED. Else the entry drains, a marker follows the packets to the old package, and its acknowledgement installs the binding. A coherent
entry, or a package outside the allotment, is refused with PROT. -/
def Sys2Proof.Claims.MapEntriesAreWritten : Prop :=
  ∀ (s : State) (core slot : Nat), slot < 128 →
    let o := s.op core slot
    let ph : BitVec 12 := o.record.extractLsb' 268 12
    let valid := o.record.getLsbD 280
    let force := o.record.getLsbD 281
    (∀ j, o.form = .famwr → o.state = .queued → s.entryTaken core slot = false → s.job o.asid = some j → fabIndex o.record < j.fld 11 12 13 →
      let k := j.fld 11 0 12 + fabIndex o.record
      let e := s.fam k
      let lost := s.fabric.retry.filter (fun r => r.ordered && r.index == k && r.phys == e.phys.toNat)
      let allowed : Prop := e.coh = false ∧ (valid = true → ph.toNat ∈ s.fabric.pkgAllot)
      (¬allowed → ∃ t, exec (.famwrExecution core slot) s = .next t ∧ Decided t core slot 0x10 cPROT (famWord o e.phys.toNat e.valid 0)) ∧
      (allowed → e.valid = false ∨ force = true →
        ∃ t, exec (.famwrExecution core slot) s = .next t ∧ (t.fam k).phys = ph ∧ (t.fam k).valid = valid ∧
          Decided t core slot 0x01 0 (famWord o e.phys.toNat e.valid lost.length) ∧
          t.fabric.famdrop = s.fabric.famdrop + BitVec.ofNat 32 lost.length ∧
          ((∀ q ∈ s.fabric.retry, q.id < s.sched.nextId) → ∀ q ∈ t.fabric.retry, ∀ r ∈ lost, q.id ≠ r.id) ∧
          ((∀ q ∈ lost, Claims.reports q = true) →
            (∀ q ∈ s.fabric.retry, (∀ r ∈ lost, q.id ≠ r.id) → Claims.isBeat q = false → q ∈ t.fabric.retry) ∧
            (∀ r p, lost.filter (fun q => q.key == r.key && q.op == r.op) = [r] → Claims.answersContext r = true → (s.ctx r.key).pend = [p] →
              p.id = r.op → p.parts = 1 → p.reply = none → p.counted = true →
              ∃ q, (t.ctx r.key).pend = [q] ∧ q.reply = some (.fault cXLATE (s.faultAddr r.key r.op)) ∧ q.parts = 0) ∧
            (∀ r n, lost = [r] → Claims.answersContext r = false → (s.ops.find? (fun p => p.1 / 128 == r.key && p.2.seq == r.op)).map (·.1) = some n →
              (s.keyOp n).state = .running → (s.keyOp n).status = 0 → (t.keyOp n).status = 0x10 ∧ (t.keyOp n).cause = cXLATE))) ∧
      (allowed → e.valid = true → force = false →
        ∃ t r, exec (.famwrExecution core slot) s = .next t ∧ t.fam k = { e with drain := true } ∧ (t.op core slot).state = .running ∧
          r.body = .marker core slot ∧ r.phys = e.phys.toNat ∧ (r ∈ t.fabric.retry ∨ r ∈ t.fabric.held) ∧
          (k, core * 128 + slot, ph, valid) ∈ t.fabric.draining)) ∧
    (∀ r k x ph valid, s.fabric.retry.find? (fun q => match q.body with | .marker c n => c == core && n == slot | _ => false) = some r →
      s.fabric.draining.find? (fun d => d.2.1 == core * 128 + slot) = some (k, x, ph, valid) → s.upTo r.phys = true →
      ∃ t, exec (.drainMarkerAck core slot) s = .next t ∧ (t.fam k).phys = ph ∧ (t.fam k).valid = valid ∧ (t.fam k).drain = false ∧
        (t.op core slot).status = 0x01 ∧ ∀ d ∈ t.fabric.draining, d.2.1 ≠ core * 128 + slot)

/-- R245, R351 to R355: TKILL puts the task's tag into the filter and waits; each core of the job ends the task's activations, discards its waiting
messages, reclaims its regions and forgets its records, withdraws its group members with their collectives, retires its attached operations and cancels
the RUNNING ones; when all have done so the creators are told and the
instruction ends. At job level another task's kill needs no privilege, but a reserved bit or task 0 traps PRIV. -/
def Obligations.TasksAreKilled : Prop :=
  ∀ (a : Reg) (s : State) (core : Nat) (k : Kill),
    let x := rdG s.me a
    let tag : BitVec 16 := BitVec.ofNat 16 x.toNat
    (s.svc s.sched.cur = false → (2 ^ 16 ≤ x.toNat ∨ x = 0) → exec (.tkill a) s = .next (trapNow s cPRIV)) ∧
    (s.svc s.sched.cur = false → x.toNat < 2 ^ 16 → x ≠ 0 → (∀ n, s.me.await ≠ .kill n) → s.deadTags.length < 64 →
      ∃ t q, exec (.tkill a) s = .next t ∧ t.deadTags = s.deadTags ++ [{ asid := (s.core s.myCore).asid, tag := tag, born := s.time, heir := s.heirOf (s.core s.myCore).asid s.myCore tag, since := s.sched.nextId }] ∧
        t.kills = s.kills ++ [q] ∧ q.tag = tag ∧ q.asid = (s.core s.myCore).asid ∧ q.key = s.sched.cur ∧
        (∀ j c, s.job (s.core s.myCore).asid = some j → (c ∈ q.todo ↔ c < 4096 ∧ j.holds c = true)) ∧
        t.me.pc = s.me.pc ∧ t.me.waiting = true ∧ t.me.await = .kill q.id ∧ SameMemory s t) ∧
    (∀ n, s.svc s.sched.cur = false → x.toNat < 2 ^ 16 → x ≠ 0 → s.me.await = .kill n → (∀ q ∈ s.kills, q.id ≠ n) →
      ∃ t, exec (.tkill a) s = .next t ∧ OnlyMe s t ∧ t.me = advance (settled s.me)) ∧
    (s.kills.find? (fun q => q.id == k.id) = some k → core ∈ k.todo → (s.core core).hasJob = true → (s.core core).asid = k.asid →
      ∃ t, exec (.tkillPurge k.id core) s = .next t ∧
        (∀ j, j < 8 → (s.ctx (core * 8 + j)).phase = .run → (s.ctx (core * 8 + j)).taskTag = k.tag →
          (s.ctx (core * 8 + j)).await ≠ .kill k.id → (t.ctx (core * 8 + j)).phase ≠ .run) ∧
        (∀ y ∈ (t.core core).inbox, y.msg.tag = k.tag → y.busy = true) ∧
        (∀ r ∈ (t.core core).tasks, r.tag ≠ k.tag) ∧ (∀ f ∈ (t.core core).fwds, f.tag ≠ k.tag) ∧
        (∀ i, i < 32 → let r := s.region core i
          r.nbank ≠ 0 → r.origin = .ralloc → r.task = k.tag → r.asid = k.asid → (t.region core i).reclaim ≠ 0) ∧
        (∀ n, n < 128 → let o := s.op core n
          o.asid = k.asid → o.owner = k.tag → o.det = false →
          ((o.state = .pending ∨ o.state = .queued ∨ o.state = .suspended ∨ Over o) → (t.op core n).state = .free) ∧
          (o.state = .running → o.status = 0 → o.cancel = 0 → (∀ g m, g < 256 → (s.group g).member core = some m → m.task ≠ k.tag) →
            (t.op core n).state = .running ∧ (t.op core n).cancel = 0x42 ∧ (t.op core n).killed = true ∧ (t.op core n).ntf = false)) ∧
        (∀ g m, g < 256 → (s.group g).member core = some m → m.task = k.tag → s.groupHere g core = true → (∀ h, (s.group h).joining = []) →
          (t.group g).member core = none ∧
          ∀ q ∈ (s.group g).running, q < absentKey → q / 128 = core → (s.keyOp q).state = .running → (s.keyOp q).form ≠ .gleave →
            (t.keyOp q).status = 0x11 ∧ (t.keyOp q).cause = 0x42) ∧
        ∃ q ∈ t.kills, q.id = k.id ∧ core ∉ q.todo) ∧
    (s.kills.find? (fun q => q.id == k.id) = some k → k.todo = [] →
      ∃ t, exec (.tkillComplete k.id) s = .next t ∧ (∀ q ∈ t.kills, q.id ≠ k.id) ∧
        ((s.ctx k.key).phase = .run → (s.ctx k.key).await = .kill k.id → (s.ctx k.key).taskTag = k.tag → (s.core k.core).asid = k.asid →
          (t.ctx k.key).phase ≠ .run) ∧
        (∀ dest chan parent, k.creators = [((s.pkgOf k.asid).toNat, dest, chan, parent)] →
          ∃ m, t.mail = s.mail ++ [m] ∧ m.msg.kind = 9 ∧ m.msg.words[1] = k.tag.setWidth 64 ∧ m.dest = dest % 4096))

namespace Sys2Proof.Claims

open Sys2Proof.Machine

/-! ### The memory side (R194 to R214, R363 to R366) -/

/-- The metadata of the line of a PA of this package. -/
def metaOf (s : State) (pa : Nat) : LMeta := s.lmeta (lineOf (pa % 2 ^ 40))
/-- The home may take a member's request for the line now, and its metadata is sound (R205, R207). -/
def HomeReady (s : State) (pa member : Nat) : Prop :=
  s.homeHere pa = true ∧ pa % 2 ^ 40 < dramSize ∧ member < 32 ∧ (∀ t ∈ s.mem.trans, t.line ≠ lineOf pa) ∧ (metaOf s pa).state ≤ 4
/-- The state, the mask and the owner of the line become these, and no other line changes. -/
def LineBecomes (s t : State) (pa state : Nat) (mask : BitVec 4) (owner : Nat) : Prop :=
  (metaOf t pa).state = state ∧ (metaOf t pa).mask = mask ∧ (metaOf t pa).owner = owner ∧
  ∀ l, l ≠ lineOf (pa % 2 ^ 40) → t.lmeta l = s.lmeta l
/-- A transaction of this kind starts on the line; its metadata stays. -/
def Starts (s t : State) (pa kind member : Nat) : Prop :=
  (∃ x, t.mem.trans = s.mem.trans ++ [x] ∧ x.line = lineOf pa ∧ x.kind = kind ∧ x.member = member) ∧ SameMemory s t ∧ t.mem.lmeta = s.mem.lmeta
/-- One NOTIFY to service core 0 on channel 2 tells of a RAS record (R363). -/
def RasTold (s t : State) : Prop := ∃ m, t.mail = s.mail ++ [m] ∧ m.dest = 0 ∧ m.msg.kind = 11 ∧ m.msg.chan = 2

end Sys2Proof.Claims

/-- R202: XINV removes the matching entries of every translation cache and the matching lines of every L1, and is BUSY until what was translated with
them is over; a request while BUSY or with SIZE 3 sets ERR. -/
def Sys2Proof.Claims.XinvRemovesTranslations : Prop :=
  ∀ (s : State) (lo hi : Word),
    let x := xreqOf lo hi
    let hitT (t : Tlb) : Bool := x.hits t.asid (t.page * 2 ^ levelBits t.size) (2 ^ levelBits t.size)
    let removed (t : State) : Prop := (∀ e, e ∈ t.mem.tlb ↔ e ∈ s.mem.tlb ∧ hitT e = false) ∧
      (∀ c l, l ∈ (t.core c).l1 ↔ l ∈ (s.core c).l1 ∧ x.hits l.asid (l.line * 64) 64 = false) ∧ SameMemory s t
    (s.mem.xinv ≠ none ∨ fieldOf lo 19 18 = 3 → exec (.xinv lo hi) s = .next { s with mem := { s.mem with xinvErr := true } }) ∧
    (s.mem.xinv = none → fieldOf lo 19 18 ≠ 3 → ∃ t, exec (.xinv lo hi) s = .next t ∧ removed t ∧ t.mem.xinv = some (lo, hi)) ∧
    (s.mem.xinv = some (lo, hi) → (∀ e ∈ s.mem.l2q, x.hits e.asid (e.vline * 64) 64 = false) → (∀ p ∈ s.ops, p.2.beats = []) →
      (∀ r ∈ s.fabric.retry ++ s.fabric.held, ∀ pa op z y c, r.body ≠ .atomic pa op z y c) →
      ∃ t, exec .xinvComplete s = .next t ∧ removed t ∧ t.mem.xinv = none)

/-- R204, R205, R206, R214: the home's states: a GETS makes a HOME line EXCL-REMOTE, adds its
group to a SHARED line's mask and asks the holder of another; a GETX takes a HOME line whole and
asks its holders for another; an eviction returns a line with its data. A local access that the state does not allow starts a transaction. A member's
copy answers a probe. -/
def Sys2Proof.Claims.CoherenceRequestsAreTaken : Prop :=
  ∀ (s : State) (pa member : Nat) (data : VWord),
    let x := metaOf s pa
    let g : BitVec 4 := 1#4 <<< (member / 8 % 4)
    let runs (i : Instr) (f : State → Prop) : Prop := ∃ t, exec i s = .next t ∧ f t
    let wrote (t : State) : Prop := memBytes t.mem.cells (lineOf (pa % 2 ^ 40) * 64) 64 = leBytes 64 data.toNat
    (HomeReady s pa member →
      (x.state = 0 → runs (.cohGets pa member) (fun t => LineBecomes s t pa 2 g 0 ∧ SameMemory s t)) ∧
      (x.state = 1 → runs (.cohGets pa member) (fun t => LineBecomes s t pa 1 (x.mask ||| g) 0 ∧ SameMemory s t)) ∧
      (2 ≤ x.state → runs (.cohGets pa member) (fun t => Starts s t pa 4 member)) ∧
      (x.state = 0 → runs (.cohGetx pa member) (fun t => LineBecomes s t pa 4 g member ∧ SameMemory s t)) ∧
      (x.state ≠ 0 → runs (.cohGetx pa member) (fun t => Starts s t pa 5 member)) ∧
      (x.state = 2 → x.mask &&& g ≠ 0 → runs (.cohEviction pa member 0 data) (fun t => LineBecomes s t pa 0 0 0 ∧ SameMemory s t)) ∧
      (x.state = 2 → x.mask &&& g ≠ 0 → runs (.cohEviction pa member 1 data) (fun t => LineBecomes s t pa 0 0 0 ∧ wrote t)) ∧
      (x.state = 3 → x.owner = member → runs (.cohEviction pa member 2 data) (fun t => LineBecomes s t pa 1 x.mask 0 ∧ wrote t)) ∧
      (x.state = 4 → x.owner = member → runs (.cohEviction pa member 1 data) (fun t => LineBecomes s t pa 0 0 0 ∧ wrote t)) ∧
      (2 ≤ x.state → runs (.cohLocalRead pa) (fun t => Starts s t pa 0 0)) ∧ (x.state ≤ 1 → exec (.cohLocalRead pa) s = .next s) ∧
      (x.state ≠ 0 → runs (.cohLocalWrite pa) (fun t => Starts s t pa 1 0)) ∧ (x.state = 0 → exec (.cohLocalWrite pa) s = .next s)) ∧
    (s.homeHere pa = false → (∀ t ∈ s.mem.trans, t.line ≠ lineOf pa) → (∀ p ∈ s.mem.rlines, p.1 ≠ lineOf pa) →
      runs (.cohLocalRead pa) (fun t => Starts s t pa 2 0) ∧ runs (.cohLocalWrite pa) (fun t => Starts s t pa 3 0)) ∧
    (s.homeHere pa = false →
      runs (.cohProbe pa 2) (fun t => (∀ p ∈ t.mem.rlines, p.1 ≠ lineOf pa) ∧ SameMemory s t) ∧
      runs (.cohProbe pa 0) (fun t => (∀ p ∈ t.mem.rlines, p.1 = lineOf pa → p.2.state = 0) ∧ SameMemory s t) ∧
      runs (.cohProbe pa 1) (fun t => (∀ p ∈ t.mem.rlines, p.1 = lineOf pa → p.2.state = 0 ∨ p.2.state = 2) ∧ SameMemory s t))

/-- R204, R206, R207, R331: where circuits reach every member asked, a transaction ends and leaves the line as its kind asks: SHARED after a local
read, HOME after a local write, SHARED or OWNED-REMOTE of the holder after a GETS, owned by the member after its GETX, with the data of a holder that had
written it; our own request gives us a copy, which may be poison. One unanswered for 100 microseconds ends in a poisoned copy, or at the home in a line that
is HOME with POISON and reported. -/
def Sys2Proof.Claims.CoherenceTransactionsEnd : Prop :=
  ∀ (s : State) (pa : Nat) (written : Bool) (data : VWord) (t : Trans), s.mem.trans.find? (fun x => x.line == lineOf pa) = some t →
    let x := metaOf s pa
    let ring := lineOf (s.dev.rasRing.toNat % 2 ^ 40)
    let dirty : Prop := (x.state = 2 ∧ written = true) ∨ x.state = 3 ∨ x.state = 4
    let ends (f : State → Prop) : Prop := s.reaches (s.cohEntries pa t.kind t.member) = true → ∃ u, exec (.cohTransactionComplete pa written data) s = .next u ∧
      (∀ y ∈ u.mem.trans, y.line ≠ lineOf pa) ∧ f u
    let wrote (u : State) : Prop := memBytes u.mem.cells (lineOf (pa % 2 ^ 40) * 64) 64 = leBytes 64 data.toNat
    (t.kind = 0 → ends (fun u => LineBecomes s u pa 1 (if x.state = 4 then 1#4 <<< (x.owner / 8 % 4) else x.mask) 0 ∧
      (dirty → wrote u) ∧ (¬dirty → SameMemory s u))) ∧
    (t.kind = 1 → ends (fun u => LineBecomes s u pa 0 0 0 ∧ (dirty → wrote u) ∧ (¬dirty → SameMemory s u))) ∧
    (t.kind = 2 ∨ t.kind = 3 → ends (fun u => SameMemory s u ∧ ∃ b, tabGet u.mem.rlines (lineOf pa) RLine.none =
      { state := if t.kind = 3 then 3 else if written then 1 else 0, data := data, poison := b })) ∧
    (t.kind = 4 → x.state = 2 → written = false → ends (fun u => LineBecomes s u pa 1 (x.mask ||| 1#4 <<< (t.member / 8 % 4)) 0)) ∧
    (t.kind = 4 → x.state = 2 → written = true → ends (fun u =>
      LineBecomes s u pa 3 (x.mask ||| 1#4 <<< (t.member / 8 % 4)) (data.extractLsb' 0 5).toNat ∧ SameMemory s u)) ∧
    (t.kind = 4 → x.state = 3 → ends (fun u => LineBecomes s u pa 3 (x.mask ||| 1#4 <<< (t.member / 8 % 4)) x.owner ∧ SameMemory s u)) ∧
    (t.kind = 4 → x.state = 4 → ends (fun u =>
      LineBecomes s u pa 3 (1#4 <<< (x.owner / 8 % 4) ||| 1#4 <<< (t.member / 8 % 4)) x.owner ∧ SameMemory s u)) ∧
    (t.kind = 5 → ends (fun u => LineBecomes s u pa 4 (1#4 <<< (t.member / 8 % 4)) t.member ∧ SameMemory s u)) ∧
    (∀ member, t.born + cyclesOf 100 ≤ s.now → (t.kind = 2 ∨ t.kind = 3) →
      ∃ u, exec (.probeTimeout pa member) s = .next u ∧ (tabGet u.mem.rlines (lineOf pa) RLine.none).poison = true ∧
        ∀ y ∈ u.mem.trans, y.line ≠ lineOf pa) ∧
    (∀ member, t.born + cyclesOf 100 ≤ s.now → t.kind ≠ 2 → t.kind ≠ 3 →
      ∃ u, exec (.probeTimeout pa member) s = .next u ∧ (metaOf u pa).state = 0 ∧ RasTold s u ∧ (∀ y ∈ u.mem.trans, y.line ≠ lineOf pa) ∧
        (lineOf (pa % 2 ^ 40) < ring ∨ ring + 2 ^ s.dev.rasLen.toNat + 1 < lineOf (pa % 2 ^ 40) →
          (metaOf u pa).poison = true ∧ (metaOf u pa).mask = 0))

/-- R209, R210: an armed window expires at its deadline, and until its lines are all HOME with POISON again EXPIRED reads 1; a deadline lies at most
256 ms after its write, and one that has passed stays passed. -/
def Sys2Proof.Claims.TransientWindowsExpire : Prop :=
  ∀ (s : State) (k : Nat), k < 16 →
    let w := s.window k
    let others (t : State) : Prop := (∀ n, n ≠ k → t.window n = s.window n) ∧ SameMemory s t
    (w.valid = true → w.expired = false → w.deadline.toNat ≤ s.time.toNat →
      ∃ t, exec (.transientDeadline k) s = .next t ∧ t.window k = { w with expired := true } ∧ others t) ∧
    (w.expired = true → ∃ t, exec (.transientRearm k) s = .next t ∧ t.window k = { w with expired := false } ∧ others t ∧
      ∀ l, w.base.toNat * 32768 ≤ l → l < (w.base.toNat + w.nframe.toNat + 1) * 32768 → (t.lmeta l).state = 0 ∧ (t.lmeta l).poison = true) ∧
    (∀ v : Word, ∃ t, exec (.deadlineWrite k v) s = .next t ∧ others t ∧
      t.window k = { w with expired := w.expired || (w.valid && decide (w.deadline.toNat ≤ s.time.toNat)), deadline := BitVec.ofNat 64 (min v.toNat (s.time.toNat + 256000000)) })

/-- R208, R211, R212, R363, R365, R366: an uncorrectable error poisons its line and is recorded; a corrected one is recorded when it is the first of its
millisecond, else counted; the count is recorded at the end of it. Failed remap copies and preempted refreshes are counted for their tower. -/
def Obligations.MemoryErrorsAreRecorded : Prop :=
  ∀ (s : State) (source unit addr tower : Nat),
    let l := lineOf (addr % 2 ^ 40)
    let ring := s.dev.rasRing.toNat % 2 ^ 40
    ((source = 2 ∨ source = 4) → (regionOf addr = 0xC ∨ regionOf addr = 0xE) →
      ∃ t, exec (.memoryEccError source unit addr) s = .next t ∧ t.spPoisoned addr = true ∧ RasTold s t) ∧
    ((source = 2 ∨ source = 4) → regionOf addr < 0xC → addr % 2 ^ 40 < dramSize →
      (∀ b, ring ≤ b → b < ring + 64 + 64 * 2 ^ s.dev.rasLen.toNat → lineOf b ≠ l) →
      ∃ t, exec (.memoryEccError source unit addr) s = .next t ∧ (t.lmeta l).poison = true ∧ RasTold s t) ∧
    ((source = 1 ∨ source = 3) → (∀ f ∈ s.dev.folds, ¬(f.source = source ∧ f.unit = unit)) →
      ∃ t f, exec (.memoryEccError source unit addr) s = .next t ∧ RasTold s t ∧ t.dev.folds = s.dev.folds ++ [f] ∧ f.source = source ∧
        f.unit = unit ∧ f.count = 0) ∧
    ((source = 1 ∨ source = 3) → ∀ f, s.dev.folds = [f] → f.source = source → f.unit = unit → f.born.toNat + 1000000 ≤ s.time.toNat → f.count = 0 →
      ∃ t g, exec (.memoryEccError source unit addr) s = .next t ∧ RasTold s t ∧ t.dev.folds = [g] ∧ g.source = source ∧ g.unit = unit ∧
        g.count = 0) ∧
    ((source = 1 ∨ source = 3) → ∀ f, s.dev.folds = [f] → f.source = source → f.unit = unit → s.time.toNat < f.born.toNat + 1000000 →
      ∃ t g, exec (.memoryEccError source unit addr) s = .next t ∧ t.mail = s.mail ∧ t.dev.folds = [g] ∧ g.count = f.count + 1) ∧
    (∀ f, s.dev.folds = [f] → f.born.toNat + 1000000 ≤ s.time.toNat →
      ∃ t, exec (.rasFoldExpiry f.source f.unit) s = .next t ∧ t.dev.folds = [] ∧ (f.count ≠ 0 → RasTold s t)) ∧
    (tower < 8 → ∀ base extent,
      let c (y : Word) (hi : Bool) : Nat := if hi then fieldOf y 63 32 else fieldOf y 31 0
      let e := tabGet s.mem.remapErr tower 0
      ∃ t u, exec (.remapError tower false base extent) s = .next t ∧ exec (.remapError tower true base extent) s = .next u ∧
        c (tabGet t.mem.remapErr tower 0) false = min (c e false + 1) (2 ^ 32 - 1) ∧ c (tabGet t.mem.remapErr tower 0) true = c e true ∧
        c (tabGet u.mem.remapErr tower 0) true = min (c e true + 1) (2 ^ 32 - 1) ∧ t.mem.fenced = s.mem.fenced ∧
        u.mem.fenced = s.mem.fenced ++ [(base, extent)] ∧ RasTold s u) ∧
    (tower < 8 → ∃ t, exec (.refreshPreemption tower) s = .next t ∧ SameMemory s t ∧
      (tabGet t.mem.refpre tower 0).toNat = min ((tabGet s.mem.refpre tower 0).toNat + 1) (2 ^ 32 - 1))

/-- R213, R214: a well-formed record of a page that is homed here starts a move. The first pass copies the whole page to the new frame; when a later pass
finds no written line the leaf names the new frame and the translations of the page are gone; after eight passes, or where a line of either frame is poisoned, the move is given up. -/
def Obligations.PagesAreMoved : Prop :=
  ∀ (s : State),
    (∀ pa leaf level leafPa,
      let r : BitVec 256 := BitVec.ofNat 256 (leNat (memBytes s.mem.cells (pa % 2 ^ 40) 32))
      let f (lo n : Nat) : Nat := (r.extractLsb' lo n).toNat
      let old := (leaf.extractLsb' 16 29).toNat * 2 ^ 16
      pa % 32 = 0 → pa % 2 ^ 40 < dramSize → s.homeHere pa = true → s.mem.move = none → LinesHere s → s.dramPoisoned (pa % 2 ^ 40) = false → f 18 46 = 0 → f 116 12 = 0 → f 173 19 = 0 → f 204 52 = 0 → f 16 2 ≠ 3 →
      f 64 52 % 2 ^ sizeBits (f 16 2) = 0 → f 128 45 % 2 ^ sizeBits (f 16 2) = 0 →
      s.walk (r.extractLsb' 0 16) (f 64 52) = .ok (leaf, level, leafPa) → level + f 16 2 = 3 → s.homed (r.extractLsb' 0 16) old = true →
      ∃ t v, exec (.pageMove pa) s = .next t ∧ t.mem.move = some v ∧ v.asid = r.extractLsb' 0 16 ∧ v.va = f 64 52 ∧ v.oldPa = old ∧
        v.newPa = f 128 45 ∧ v.size = f 16 2 ∧ v.attempt = 0 ∧ v.dirty = []) ∧
    (∀ v, s.mem.move = some v →
      let n := 2 ^ sizeBits v.size
      let old := v.oldPa % 2 ^ 40
      let new := v.newPa % 2 ^ 40
      let lines := (List.range (n / 64)).map (fun i => lineOf old + i)
      (v.attempt = 0 → old % n = 0 → new % n = 0 → old ≠ new → old + n ≤ dramSize → new + n ≤ dramSize → s.homed v.asid v.newPa = true →
        (∀ l ∈ lines, (s.lmeta l).state = 0 ∧ s.homeTrans l = none ∧ s.dramPoisoned (l * 64) = false ∧
          (s.lmeta (l - lineOf old + lineOf new)).state = 0 ∧ s.homeTrans (l - lineOf old + lineOf new) = none ∧
          s.dramPoisoned ((l - lineOf old + lineOf new) * 64) = false) →
        ∃ t u, exec .pageMoveCheck s = .next t ∧ t.mem.move = some u ∧ u.attempt = 1 ∧ u.dirty = [] ∧
          (∀ i, i < n → memGet t.mem.cells (new + i) = memGet s.mem.cells (old + i)) ∧
          ∀ a, a < new ∨ new + n ≤ a → memGet t.mem.cells a = memGet s.mem.cells a) ∧
      (v.attempt ≠ 0 → (∀ l ∈ v.dirty, l ∉ lines) → s.mem.xinv = none → (∀ l ∈ lines, (s.lmeta l).state ≤ 1 ∧ s.homeTrans l = none) → v.recPa % 32 = 0 →
        (s.lmeta (lineOf (v.leafPa % 2 ^ 40))).state = 0 → s.homeTrans (lineOf (v.leafPa % 2 ^ 40)) = none → s.dramPoisoned (v.leafPa % 2 ^ 40) = false →
        lineOf (v.recPa % 2 ^ 40) ≠ lineOf (v.leafPa % 2 ^ 40) → v.leafPa % 8 = 0 →
        ∃ t, exec .pageMoveCheck s = .next t ∧ t.mem.move = none ∧
          fieldOf (t.localWord (v.leafPa % 2 ^ 40)) 44 16 = v.newPa / 2 ^ 16 % 2 ^ 29 ∧
          ∀ e ∈ t.mem.tlb, e.asid = v.asid → e.page * 2 ^ levelBits e.size + 2 ^ levelBits e.size ≤ v.va ∨
            v.va + n ≤ e.page * 2 ^ levelBits e.size) ∧
      (v.attempt = 0 → (∀ l ∈ lines, (s.lmeta l).state = 0 ∧ s.homeTrans l = none ∧ (s.lmeta (l - lineOf old + lineOf new)).state = 0 ∧
          s.homeTrans (l - lineOf old + lineOf new) = none) → (∃ l ∈ lines, s.dramPoisoned (l * 64) = true ∨
          s.dramPoisoned ((l - lineOf old + lineOf new) * 64) = true) → ∃ t, exec .pageMoveCheck s = .next t ∧ t.mem.move = none) ∧
      (8 ≤ v.attempt → (∃ l ∈ v.dirty, l ∈ lines) → ∃ t, exec .pageMoveCheck s = .next t ∧ t.mem.move = none))

namespace Sys2Proof.Claims

open Sys2Proof.Machine

/-! ### Rings, decks and light (R393 to R407) -/

/-- The state that R402 decides for a deck. -/
def decided (s : State) (d : Nat) : BitVec 2 :=
  let x := s.deck d
  if s.photonic.laserPresent.getLsbD (d % 4) = false ∨ x.tripped = true ∨ x.req = 2 then 2 else if x.req = 1 then 1 else 0
/-- A wavelength has moved from one ring of a bank to another, and no heater has changed (R399). -/
def Moved (s t : State) (bk f g : Nat) : Prop :=
  (t.ring bk g).lambda = (s.ring bk f).lambda ∧ (t.ring bk f).lambda = 31 ∧ (t.ring bk f).sat = false ∧
  (∀ k r, r < 18 → (t.ring k r).heater = (s.ring k r).heater) ∧ (∀ r, r < 18 → r ≠ f → r ≠ g → t.ring bk r = s.ring bk r)
/-- No other ring than one changes. -/
def OnlyRing (s t : State) (bk r : Nat) : Prop := ∀ k q, q < 18 → (k, q) ≠ (bk, r) → t.ring k q = s.ring k q
/-- The thermal ring takes a record at this address (R406). -/
def RingTakes (s : State) (a : Nat) : Prop :=
  s.photonic.thrlog ≠ 0 ∧ (s.photonic.thwr - s.photonic.thrd).toNat ≠ 2 ^ s.photonic.thrlog.toNat ∧ s.photonic.thring.toNat % 32 = 0 ∧
  a = s.photonic.thring.toNat % 2 ^ 40 + 32 * (s.photonic.thwr.toNat % 2 ^ s.photonic.thrlog.toNat) ∧ a + 32 ≤ dramSize ∧
  (s.lmeta (lineOf a)).state = 0 ∧ s.homeTrans (lineOf a) = none ∧ s.dramPoisoned (lineOf a * 64) = false
/-- A record lies at an address (R406). -/
def ThermalRecord (s t : State) (a type deck bank ring : Nat) (data aux : Word) (temp : Nat) : Prop :=
  let w := t.localWord a
  fieldOf w 7 0 = type ∧ fieldOf w 11 8 = deck / 4 ∧ fieldOf w 13 12 = deck % 4 ∧ fieldOf w 19 14 = bank ∧ fieldOf w 24 20 = ring ∧
  fieldOf w 31 25 = 0 ∧ fieldOf w 47 32 = temp ∧ fieldOf w 63 48 = 0 ∧ t.localWord (a + 8) = data ∧ t.localWord (a + 16) = aux ∧
  t.localWord (a + 24) = s.time ∧ t.photonic.thwr = s.photonic.thwr + 1 ∧
  ∀ b, b < a ∨ a + 32 ≤ b → memGet t.mem.cells b = memGet s.mem.cells b

end Sys2Proof.Claims

/-- R273, R335, R396, R402, R404: between matrix commands a deck takes the state that REQ, its trip and its laser module decide. A module that is lost turns
its ports SRCLOST and its decks OFF at once; re-lit, its decks return to the decided state, where their matrix lanes are idle at once, and RELIGHT gates its ports again. A write of DECKCTL sets its fields. -/
def Obligations.DecksTakeTheirState : Prop :=
  ∀ (s : State),
    (∀ e d, e < 16 → d < 4 → (s.engine e).matrix = none →
      ∃ t, exec (.deckStateApply e d) s = .next t ∧ t.deck (e * 4 + d) = { s.deck (e * 4 + d) with avail := decided s (e * 4 + d) } ∧
        ∀ k, k ≠ e * 4 + d → t.deck k = s.deck k) ∧
    (∀ d v, d < 64 →
      let x := s.deck d
      ∃ t, exec (.deckctlWrite d v) s = .next t ∧ SameMemory s t ∧ (∀ k, k ≠ d → t.deck k = s.deck k) ∧
        t.deck d = { x with req := t.deck d |>.req, wlen := v.getLsbD 2, pberr := x.pberr && !v.getLsbD 3, tripped := t.deck d |>.tripped
                            tript := t.deck d |>.tript } ∧
        (t.deck d).req.toNat = (if fieldOf v 1 0 = 3 then 2 else fieldOf v 1 0) ∧ (t.deck d).tript.toNat = min (fieldOf v 31 16) 5968 ∧
        ((t.deck d).tripped = true ↔ x.tripped = true ∧ (v.getLsbD 4 = false ∨ (x.tript.toNat : Int) - 80 < x.temp.toNat))) ∧
    (∀ m, m < 4 → s.photonic.laserPresent.getLsbD m = true →
      ∃ t, exec (.laserLoss m) s = .next t ∧ t.photonic.laserPresent.getLsbD m = false ∧ (∀ p, p / 16 = m → (t.port p).state = 6) ∧
        (∀ p, p / 16 ≠ m → t.port p = s.port p) ∧ (∀ d, d < 64 → d % 4 = m → (t.deck d).avail = 2) ∧
        (∀ d, d % 4 ≠ m → (t.deck d).avail = (s.deck d).avail) ∧ ∃ x ∈ t.mail, x.dest = 0 ∧ x.msg.kind = 11 ∧ x.msg.chan = 2) ∧
    (∀ m, m < 4 → s.photonic.laserPresent.getLsbD m = true → exec (.laserModuleRelit m) s = .next s) ∧
    (∀ m, m < 4 → s.photonic.laserPresent.getLsbD m = false →
      ∃ t, exec (.laserModuleRelit m) s = .next t ∧ t.photonic.laserPresent.getLsbD m = true ∧ t.photonic.laserLit.getLsbD m = true ∧
        (∀ d, d < 64 → d % 4 = m → (t.deck d).avail = if (s.engine (d / 4)).matrix = none then decided t d else (s.deck d).avail) ∧ ∀ d, d % 4 ≠ m → (t.deck d).avail = (s.deck d).avail) ∧
    (∀ m, m < 4 → s.photonic.laserPresent.getLsbD m = true → s.photonic.laserLit.getLsbD m = true →
      ∃ t, exec (.laserRelight m) s = .next t ∧ SameMemory s t ∧ t.photonic = s.photonic ∧
        ∀ p, t.port p = if p / 16 = m ∧ (s.port p).state = 6 then { s.port p with state := 1 } else s.port p)

/-- R398, R399, R401: a heater's write is limited on a ring that carries a wavelength and stored on a spare. A write of RINGMOVE that is judged a move takes
effect at once on an idle lane and else waits for its boundary; another sets BAD. A wear move tunes its spare first, then moves. -/
def Obligations.RingsAreWrittenAndMoved : Prop :=
  ∀ (s : State) (d b : Nat), d < 64 → b < 64 →
    let bk := d * 64 + b
    let y := s.bank bk
    let idle : Prop := (s.engine (d / 4)).matrix = none
    (∀ r v, r < 18 →
      let x := s.ring bk r
      ∃ t, exec (.ringWrite d b r v) s = .next t ∧ OnlyRing s t bk r ∧ SameMemory s t ∧
        t.ring bk r = { x with heater := (t.ring bk r).heater, heats := (t.ring bk r).heats, refs := (t.ring bk r).refs, tune := if x.lambda = 31 then v.extractLsb' 50 4 else x.tune } ∧
        (s.time, x.heater) ∈ (t.ring bk r).heats ∧ (x.lambda = 31 → (s.time, x.tune) ∈ (t.ring bk r).refs) ∧ (∀ p ∈ x.heats, s.time.toNat < p.1.toNat + 4000 → p ∈ (t.ring bk r).heats) ∧
        ((t.ring bk r).heater.toNat : Int) = (if x.lambda = 31 then ((fieldOf v 11 0 : Nat) : Int) else
          min (max ((fieldOf v 11 0 : Nat) : Int) ((x.heater.toNat : Int) - 64)) ((x.heater.toNat : Int) + 64)) ∧
        (y.wear ≠ none → y.wearing = false → (t.bank bk).wear = none ∧ t.photonic.wlAbort = s.photonic.wlAbort + 1)) ∧
    (∀ v,
      let f := fieldOf v 4 0
      let g := fieldOf v 9 5
      let plain : Prop := v.getLsbD 11 = true ∧ f = 0 ∧ g = 0
      let move : Prop := y.pending = false ∧ f < 18 ∧ g < 18 ∧ f ≠ g ∧ (s.ring bk f).lambda ≠ 31 ∧ (s.ring bk g).lambda = 31
      y.wear = none → y.wearing = false →
      ∃ t, exec (.ringmoveWrite d b v) s = .next t ∧
        (plain → t.bank bk = { y with bad := false } ∧ (∀ r, r < 18 → t.ring bk r = s.ring bk r)) ∧
        (¬plain → ¬move → t.bank bk = { y with bad := true } ∧ (∀ r, r < 18 → t.ring bk r = s.ring bk r)) ∧
        (move → idle → (t.bank bk).pending = false ∧ Moved s t bk f g) ∧
        (move → ¬idle → (t.bank bk).pending = true ∧ (t.bank bk).moveFrom.toNat = f ∧ (t.bank bk).moveTo.toNat = g ∧
          (∀ r, r < 18 → t.ring bk r = s.ring bk r))) ∧
    (y.pending = true → y.wearing = false → idle → y.moveFrom.toNat < 18 → y.moveTo.toNat < 18 → y.moveFrom ≠ y.moveTo →
      ∃ t, exec (.ringMoveApply d b) s = .next t ∧ (t.bank bk).pending = false ∧ Moved s t bk y.moveFrom.toNat y.moveTo.toNat) ∧
    (∀ f g heater, g < 18 →
      (y.wear = none → y.wearTime = none → y.pending = false → (s.deck d).wlen = true → idle → (s.ring bk g).lambda = 31 → f < 18 →
        (s.ring bk f).lambda ≠ 31 → (∀ q, q < 18 → q ≠ f → (s.ring bk q).lambda ≠ 31 → (s.ring bk q).heater < (s.ring bk f).heater) →
        ∃ t, exec (.wearMove d b g heater) s = .next t ∧ (t.bank bk).wear = some (f, g) ∧ (t.ring bk g).heater = heater ∧ OnlyRing s t bk g ∧
          (t.ring bk g).tune = (s.ring bk f).lambda.extractLsb' 0 4 ∧ (t.ring bk g).lambda = 31) ∧
      (y.wear = some (f, g) → y.wearing = false → idle → f < 18 → f ≠ g →
        ∃ t, exec (.wearMove d b g heater) s = .next t ∧ (t.bank bk).wear = none ∧ (t.bank bk).pending = false ∧
          (t.bank bk).wearTime = some s.time ∧ t.photonic.wlMoves = s.photonic.wlMoves + 1 ∧
          (t.ring bk g).lambda = (s.ring bk f).lambda ∧ (t.ring bk f).lambda = 31))

/-- R394, R400, R402, R403, R404, R405, R406, R436: a sample sets MPD, ERR (the heat needed for a reference wavelength that it may reflect, less a heat that it may reflect) and SAT, tells its stratum of a heater that saturates, and trips a deck at its threshold.
Records are written to the thermal ring or counted as dropped. Probes, power alerts and phase-bank errors leave what their rules say. (ERR beyond its range keeps its sign: log entry 28.) -/
def Obligations.HeatIsMeasuredAndRecorded : Prop :=
  ∀ (s : State) (d : Nat), d < 64 →
    let x := s.deck d
    (∀ temp b r mpd (need : List Int), b < 64 → r < 18 →
      let bk := d * 64 + b
      let y := s.ring bk r
      let sat (err : BitVec 12) : Prop := y.lambda ≠ 31 ∧ ((y.heater = 4095 ∧ 0 < err.toInt) ∨ (y.heater = 0 ∧ err.toInt < 0))
      let trips : Prop := x.tripped = false ∧ x.tript.toNat ≤ temp.toNat
      ∃ t err, exec (.monitorSample d temp [(b * 18 + r, mpd, need)]) s = .next t ∧ OnlyRing s t bk r ∧ (t.deck d).temp = temp ∧
        (∃ h w, (h = y.heater ∨ ∃ τ, (τ, h) ∈ y.heats ∧ s.time.toNat < τ.toNat + 4000) ∧
          (w = (if y.lambda = 31 then y.tune else y.lambda.extractLsb' 0 4) ∨ ∃ τ, (τ, w) ∈ y.refs ∧ s.time.toNat < τ.toNat + 4000) ∧
          let e : Int := need.getD w.toNat 0 - (h.toNat : Int)
          (-2048 ≤ e → e ≤ 2047 → err.toInt = e) ∧ (2047 < e → 0 < err.toInt) ∧ (e < -2048 → err.toInt < 0)) ∧
        t.ring bk r = { y with mpd := mpd, err := err, sat := (t.ring bk r).sat } ∧ ((t.ring bk r).sat = true ↔ sat err) ∧
        (trips → (t.deck d).tripped = true ∧ (t.deck d).avail = 2) ∧ (¬trips → (t.deck d).tripped = x.tripped ∧ (t.deck d).avail = x.avail) ∧
        (sat err → y.sat = false → ∃ m rest, t.mail = s.mail ++ m :: rest ∧ m.dest = d % 4 * 1024 ∧ m.msg.kind = 11 ∧ m.msg.chan = 4) ∧
        (¬(sat err ∧ y.sat = false) → ¬trips → t.mail = s.mail)) ∧
    (∀ a, s.photonic.thPeriod ≠ 0 → x.tempTime.toNat + 1000 * s.photonic.thPeriod.toNat ≤ s.time.toNat →
      (RingTakes s a → ∃ t, exec (.tempRecordTimer d) s = .next t ∧ ThermalRecord s t a 1 d 0 31 0 0 x.temp.toNat) ∧
      (s.photonic.thrlog ≠ 0 → (s.photonic.thwr - s.photonic.thrd).toNat = 2 ^ s.photonic.thrlog.toNat →
        ∃ t, exec (.tempRecordTimer d) s = .next t ∧ SameMemory s t ∧ t.photonic.thwr = s.photonic.thwr ∧
          t.photonic.thDrop.toNat = min (s.photonic.thDrop.toNat + 1) (2 ^ 32 - 1))) ∧
    (∀ mebc n, x.avail = 0 → (s.engine (d / 4)).matrix = none →
      ∃ t, exec (.probeCalibration (d / 4) (d % 4) mebc n) s = .next t ∧ SameMemory s t ∧
        t.deck d = { x with mebc := mebc, mvalid := true, nprobe := n, mtime := s.time } ∧ ∀ k, k ≠ d → t.deck k = s.deck k) ∧
    (∀ watts,
      let rises : Prop := s.photonic.pwrNow.toNat ≤ s.photonic.pwrAlert.toNat ∧ s.photonic.pwrAlert.toNat < watts.toNat
      ∃ t, exec (.powerAlert watts) s = .next t ∧ t.photonic.pwrNow = watts ∧ t.photonic.decks = s.photonic.decks ∧
        t.photonic.scrubPpm.toNat ≤ 5000 ∧ t.photonic.telPpm.toNat ≤ 100 ∧
        (rises → ∃ m, t.mail = s.mail ++ [m] ∧ m.dest = 0 ∧ m.msg.kind = 11 ∧ m.msg.chan = 3) ∧ (¬rises → t.mail = s.mail)) ∧
    (∀ v : Word, v.toNat % 32 = 0 → exec (.thringWrite v) s =
      .next { s with photonic := { s.photonic with thring := v, thwr := 0, thrd := 0 } }) ∧
    (∀ code,
      (∃ t, exec (.scrub d code true) s = .next t ∧ t.deck d = { x with pberr := true } ∧ RasTold s t) ∧
      ((∀ f ∈ s.dev.folds, ¬(f.source = 5 ∧ f.unit = d / 4)) →
        ∃ t, exec (.scrub d code false) s = .next t ∧ t.photonic = s.photonic ∧ RasTold s t))

namespace Sys2Proof.Claims

open Sys2Proof.Machine

/-! ### Jobs (R358 to R362, R369, R376 to R382) -/

/-- Every line from a up to a + n is HOME, has no transaction in progress, and reads without poison. -/
def Clean (s : State) (a n : Nat) : Prop :=
  a + n ≤ dramSize ∧ ∀ l, a / 64 ≤ l → l * 64 < a + n → (s.lmeta l).state = 0 ∧ s.homeTrans l = none ∧ s.dramPoisoned (l * 64) = false
/-- The job that the launch record at an address asks for. -/
def jobAt (s : State) (a : Nat) : Job :=
  { asid := (s.localWord a).extractLsb' 0 16, record := (List.range 160).map (fun i => s.localWord (a + 8 * i)), active := true }
/-- The job's LAUNCH is refused, and nothing else changes (R377). -/
def launchRefused (s : State) (reason word : Nat) (asid : BitVec 16) : State :=
  { s with dev := { s.dev with launchState := 3, launchReason := BitVec.ofNat 8 reason, launchWord := BitVec.ofNat 8 word, launchAsid := asid } }
/-- The partitions of a set all run this job, or all run none (R360). -/
def RunsOn (s : State) (parts : Word) (asid : Option (BitVec 16)) : Prop :=
  (∀ c ∈ s.cores, c.2.hasJob = true → parts.getLsbD (partitionOf c.1) = true → asid = some c.2.asid) ∧
  ∀ p, p < 64 → parts.getLsbD p = true → asid ≠ none → ∃ c ∈ s.cores, c.2.hasJob = true ∧ partitionOf c.1 = p

end Sys2Proof.Claims

/-- R376, R377, R381, R382, R411: a LAUNCH before READY or while BUSY is ignored; a record that cannot be read, one of another version and one whose ASID
runs are refused with their reasons; a record that passes every check becomes a job, with its cores' handler tables, its semaphores and the STARTs of level 0. -/
def Obligations.JobsAreLaunched : Prop :=
  ∀ (s : State) (v : Word),
    let a := v.toNat % 2 ^ 40
    let j := jobAt s a
    let dom := j.level 0 0 0 3
    let ch := j.level 0 0 5 6
    (s.dev.bootState ≠ 3 ∨ s.dev.launchState = 1 → exec (.launch v) s = .next s) ∧
    (s.dev.bootState = 3 → s.dev.launchState ≠ 1 →
      (v.toNat % 256 ≠ 0 ∨ 2 ^ 45 ≤ v.toNat ∨ (v.toNat / 2 ^ 40 ≠ 0 ∧ s.homeHere v.toNat = false) →
        exec (.launch v) s = .next (launchRefused s 1 0 0)) ∧
      (v.toNat % 256 = 0 → v.toNat < 2 ^ 40 → Clean s a 1280 →
        (j.fld 0 24 8 ≠ 1 → exec (.launch v) s = .next (launchRefused s 2 0 j.asid)) ∧
        (j.headerBad = [] → j.levelsBad = [] → j.tablesBad = [] → (∃ k ∈ s.jobs, k.asid = j.asid) →
          exec (.launch v) s = .next (launchRefused s 3 0 j.asid)) ∧
        (∀ r w, s.launchRefusal j = some (r, w) → exec (.launch v) s = .next (launchRefused s r w j.asid)) ∧
        (s.launchRefusal j = none →
          ∃ t, exec (.launch v) s = .next t ∧ t.jobs = s.jobs ++ [j] ∧ t.dev.launchState = 2 ∧ t.dev.launchReason = 0 ∧ t.dev.launchAsid = j.asid ∧
            (∀ k, k < j.fld 3 10 11 → t.sem (j.fld 3 0 10 + k) = 0) ∧
            (∀ c, j.holds c = true → (t.core c).asid = j.asid ∧ (t.core c).hasJob = true ∧ (t.core c).inbox = [] ∧ (t.core c).nb = j.nbOn c ∧
              ∀ k, k < 64 →
                let w := j.word (64 + k)
                t.chan c k = { Chan.initial with entry := w.extractLsb' 2 50, prio := w.extractLsb' 52 2, enable := w.getLsbD 54, allot := w.getLsbD 55, atomh := w.getLsbD 56 }) ∧
            (dom < 4 → ∀ (i : Nat) (u : UnitPlace), ((s.levelUnits j 0).take (j.level 0 0 16 13))[i]? = some u →
              ∃ m ∈ t.mail, m.dest = u.leader ∧ m.msg.asid = j.asid ∧ HasHeader (m.msg.words[0]) 0 ch 0 u.leader 0 i ∧
                (m.msg.words[1]).toNat = fieldOf (j.word (64 + ch)) 51 2 * 4 ∧ m.msg.words[2] = j.word 26 ∧
                (m.msg.words[3]).toNat = i ∧ m.msg.words[4] = 0))))

/-- R246, R369: JOBEND ends a job: no core of it has it any more, its queued messages and its armed waits are gone, and once its stores are over its record and
its map entries are reclaimed. -/
def Sys2Proof.Claims.JobsEndAndAreReclaimed : Prop :=
  ∀ (s : State) (v : Word) (j : Job), s.job (v.extractLsb' 0 16) = some j →
    (j.active = true →
      ∃ t, exec (.jobend v) s = .next t ∧ (∀ k ∈ t.jobs, k.asid = j.asid → k.active = false) ∧ t.jobLive j.asid = false ∧
        (∀ c, c < 4096 → (s.core c).hasJob = true → (s.core c).asid = j.asid → (t.core c).hasJob = false ∧ (t.core c).inbox = []) ∧
        (∀ w ∈ t.armed, w.asid ≠ j.asid) ∧ (∀ k ∈ t.kills, k.asid ≠ j.asid)) ∧
    (j.active = false →
      (∀ c, j.holds c = true → (∀ i, i < 8 → (s.ctx (c * 8 + i)).phase = .free) ∧ (s.core c).sb = [] ∧ (∀ e ∈ s.mem.l2q, e.core ≠ c) ∧
        ∀ f ∈ s.flights, f.src ≠ c) →
      ∃ t, exec (.jobend v) s = .next t ∧ t.job j.asid = none ∧ (∀ k, k.asid ≠ j.asid → (k ∈ t.jobs ↔ k ∈ s.jobs)) ∧
        ∀ i, i < j.fld 11 12 13 → t.fam (j.fld 11 0 12 + i) = Fam.initial)

/-- R358, R359, R360, R362: a switch is refused while one is BUSY, for an empty set and for a misplaced save area, and else starts. It is over when its cores
rest: the outgoing job is saved and leaves them; the incoming one finds its messages, with those that came meanwhile at the end. -/
def Sys2Proof.Claims.JobsAreSwitched : Prop :=
  ∀ (s : State) (v : Word),
    let parts := s.dev.swParts
    let refused (n : Nat) : Prop := ∃ t, exec (.jobSwitch v) s = .next t ∧ t.dev.swRefused = true ∧ t.dev.swReason.toNat = n ∧ t.switch = s.switch ∧
      t.cores = s.cores ∧ t.ctxs = s.ctxs ∧ SameMemory s t
    let starts (out : Option (BitVec 16)) : Prop := ∃ t w, exec (.jobSwitch v) s = .next t ∧ t.dev.swRefused = false ∧ t.switch = some w ∧ w.parts = parts ∧
      w.out = out ∧ w.into = none ∧ w.save = s.dev.swSave.toNat % 2 ^ 40 ∧ t.cores = s.cores ∧ t.ctxs = s.ctxs ∧ SameMemory s t
    (s.switch ≠ none → refused 1) ∧
    (s.switch = none → parts = 0 → refused 2) ∧
    (s.switch = none → parts ≠ 0 →
      (∀ a, RunsOn s parts (some a) → s.dev.swSave.toNat % 0x10000 ≠ 0 → refused 3) ∧
      (RunsOn s parts none → v.getLsbD 16 = false → s.dev.swLoad.toNat % 0x10000 ≠ 0 → refused 4) ∧
      (∀ a, RunsOn s parts (some a) → s.dev.swSave.toNat % 0x10000 = 0 → s.dev.swSave.toNat + areaSize parts ≤ dramSize → v.getLsbD 16 = true → starts (some a)) ∧
      (RunsOn s parts none → v.getLsbD 16 = true → starts none)) ∧
    (∀ w, s.switch = some w → (∀ c ∈ coresIn w.parts, s.coreRests c = true) →
      (w.out = none → w.into = none → exec .jobSwitchComplete s = .next { s with switch := none }) ∧
      (∀ a, w.out = some a → w.into = none → s.jobLive a = true →
        ∃ t x, exec .jobSwitchComplete s = .next t ∧ t.switch = none ∧ t.saved = x :: s.saved ∧ x.asid = a ∧ x.parts = w.parts ∧ x.out = true ∧
          ∀ c ∈ coresIn w.parts, (t.core c).hasJob = false ∧ (t.core c).inbox = []) ∧
      (∀ a d x, w.out = none → w.into = some (a, d) → s.jobLive a = true →
        s.saved.find? (fun y => y.asid == a && y.parts == w.parts && y.digest == d) = some x →
        ∃ t, exec .jobSwitchComplete s = .next t ∧ t.switch = none ∧
          ∀ c ∈ coresIn w.parts, (t.core c).hasJob = true ∧ (t.core c).asid = a ∧ (t.core c).nb = (tabGet x.cores c Core.initial).nb ∧
            (t.core c).inbox = (tabGet x.cores c Core.initial).inbox ++
              ((s.savedInbox.filter (fun p => p.1 == c && p.2.msg.asid == a)).map (·.2))))

namespace Sys2Proof.Claims

open Sys2Proof.Machine

/-! ### The host (R367 to R375, R389 to R392) -/

/-- The first check of R374 that a block fails, or 0, for a page whose job is not switched out on the block's core. -/
def blockRefusal (s : State) (page : Nat) (b : Vector Word 8) : Nat :=
  let pg := tabGet s.dev.amPage page 0
  let asid := pg.extractLsb' 0 16
  let dest := fieldOf b[0] 37 26
  let h := s.chan dest (fieldOf b[0] 59 54)
  if s.dev.bootState ≠ 3 ∨ pg.getLsbD 16 = false ∨ s.jobLive asid = false then 2
  else if 1 < fieldOf b[0] 63 60 then 3
  else if (s.job asid).all (fun j => !j.holds dest) then 4
  else if h.allot = false ∨ h.atomh = true then 5
  else if fieldOf b[0] 63 60 = 0 ∧ b[1].toNat % 4 ≠ 0 then 6
  else 0
/-- A page counts one refused message, and records the first (R369, R374). -/
def CountsRefusal (s t : State) (page reason : Nat) (w : Word) : Prop :=
  t.mail = s.mail ∧ (tabGet t.dev.amDrop page 0).toNat = min ((tabGet s.dev.amDrop page 0).toNat + 1) (2 ^ 32 - 1) ∧
  (tabGet s.dev.amErr page 0 ≠ 0 → tabGet t.dev.amErr page 0 = tabGet s.dev.amErr page 0) ∧
  (tabGet s.dev.amErr page 0 = 0 → fieldOf (tabGet t.dev.amErr page 0) 13 0 = reason ∧ fieldOf (tabGet t.dev.amErr page 0) 63 14 = fieldOf w 63 14)
/-- The memory window counts one refused access and does nothing else (R369, R371). -/
def WindowDrops (s t : State) : Prop :=
  t = { s with dev := { s.dev with mwDrop := t.dev.mwDrop } } ∧ t.dev.mwDrop.toNat = min (s.dev.mwDrop.toNat + 1) (2 ^ 32 - 1)

end Sys2Proof.Claims

/-- R370, R372, R373, R374: a block of the active-message window that passes its page's checks becomes a message with TAG 0, SRC 0 and the page's serial;
another is counted and the first recorded; a partial or poisoned write is refused with reasons 1 and 7. -/
def Sys2Proof.Claims.HostMessagesAreDelivered : Prop :=
  ∀ (s : State) (page : Nat) (b : Vector Word 8), page < 64 →
    let asid := (tabGet s.dev.amPage page 0).extractLsb' 0 16
    let dest := fieldOf b[0] 37 26
    let n := tabGet s.dev.amSerial page 0
    (∃ t, exec (.activeMessageBlock page true true [b]) s = .next t ∧ CountsRefusal s t page 7 b[0] ∧ t.dev.out = s.dev.out ++ [.poisonedTlp]) ∧
    (∃ t, exec (.activeMessageBlock page false false [b]) s = .next t ∧ CountsRefusal s t page 1 b[0]) ∧
    ((s.core dest).hasJob = true → (s.core dest).asid = asid → (s.mail.filter (fun m => decide (16384 ≤ m.src))).length < 256 →
      (blockRefusal s page b ≠ 0 →
        ∃ t, exec (.activeMessageBlock page true false [b]) s = .next t ∧ CountsRefusal s t page (blockRefusal s page b) b[0]) ∧
      (blockRefusal s page b = 0 →
        ∃ t m, exec (.activeMessageBlock page true false [b]) s = .next t ∧ t.mail = s.mail ++ [m] ∧ m.dest = dest ∧ m.msg.asid = asid ∧
          HasHeader (m.msg.words[0]) (fieldOf b[0] 63 60) (fieldOf b[0] 59 54) 0 dest 0 n.toNat ∧
          (∀ i, 0 < i → i < 8 → m.msg.words[i]? = b[i]?) ∧ tabGet t.dev.amSerial page 0 = n + 1 ∧ SameMemory s t))

/-- R370, R371, R410: the memory window reads and writes DRAM, refuses what lies outside it, marks poison with EP and all ones, counts what it drops, and
before READY reaches the staging buffer. -/
def Sys2Proof.Claims.MemoryWindowReadsAndWrites : Prop :=
  ∀ (s : State) (off : Nat) (bytes : List Byte),
    let n := bytes.length
    let oneLine : Prop := 0 < n ∧ off % 64 + n ≤ 64
    let answers (len : Nat) (o : HostOut) : Prop := ∃ t, exec (.memoryWindowRead off len) s = .next t ∧ t = { s with dev := { s.dev with out := s.dev.out ++ [o] } }
    (∃ t, exec (.memoryWindowWrite off true bytes) s = .next t ∧ t.dev.mwDrop.toNat = min (s.dev.mwDrop.toNat + 1) (2 ^ 32 - 1) ∧
      t = { s with dev := { s.dev with mwDrop := t.dev.mwDrop, out := s.dev.out ++ [.poisonedTlp] } }) ∧
    (s.dev.bootState = 3 →
      (Clean s off n → ∃ t, exec (.memoryWindowWrite off false bytes) s = .next t ∧ memBytes t.mem.cells off n = bytes ∧ t.dev = s.dev ∧
        ∀ a, a < off ∨ off + n ≤ a → memGet t.mem.cells a = memGet s.mem.cells a) ∧
      (0 < n → dramSize ≤ off → ∃ t, exec (.memoryWindowWrite off false bytes) s = .next t ∧ WindowDrops s t) ∧
      (oneLine → n < 64 → off + n ≤ dramSize → (s.lmeta (lineOf off)).poison = true → (s.lmeta (lineOf off)).state = 0 →
        s.homeTrans (lineOf off) = none → ∃ t, exec (.memoryWindowWrite off false bytes) s = .next t ∧ WindowDrops s t) ∧
      (oneLine → Clean s off n → s.dramPoisoned off = false → answers n (.data (memBytes s.mem.cells off n) false)) ∧
      (0 < n → dramSize ≤ off → answers n .unsupported) ∧
      (oneLine → off + n ≤ dramSize → (s.lmeta (lineOf off)).state ≤ 1 → s.homeTrans (lineOf off) = none → s.dramPoisoned off = true → answers n (.data (List.replicate n 0xFF) true))) ∧
    (s.dev.bootState ≠ 3 →
      (off + n ≤ 0x400000 → (∃ t, exec (.memoryWindowWrite off false bytes) s = .next t ∧ memBytes t.dev.staging off n = bytes ∧ t.mem = s.mem) ∧
        answers n (.data (memBytes s.dev.staging off n) false)) ∧
      (0 < n → 0x400000 ≤ off → answers n .unsupported))

/-- R8, R367, R390: clearing a vector's mask sends what is pending where the function lets it; the link trains; a package reset makes every field its reset value, but
for what is fused and for global time. -/
def Sys2Proof.Claims.LinkInterruptsAndReset : Prop :=
  ∀ (s : State),
    (∀ vec, vec < 2048 →
      let d := s.dev
      let e := tabGet d.msixTable vec 0
      ∃ t, exec (.msixUnmask vec) s = .next t ∧ vec ∈ t.dev.msixOpen ∧ SameMemory s t ∧
        (d.msixEnable = true → d.msixFunctionMask = false → d.msixPending = [vec] →
          t.dev.msixPending = [] ∧ t.dev.out = d.out ++ [.msix vec (e.extractLsb' 0 64) (e.extractLsb' 64 32)]) ∧
        (d.msixEnable = false ∨ d.msixFunctionMask = true → t.dev.msixPending = d.msixPending ∧ t.dev.out = d.out)) ∧
    (∀ rate width, 1 ≤ rate → rate ≤ 7 → width = 1 ∨ width = 2 ∨ width = 4 ∨ width = 8 ∨ width = 16 →
      exec (.pcieLinkTraining rate width) s = .next { s with dev := { s.dev with linkRate := rate, linkWidth := width } }) ∧
    (∃ t, exec .packageReset s = .next t ∧ t.time = s.time ∧ t.dev.svnMin = s.dev.svnMin ∧ t.dev.bootState = 0 ∧
      t = { State.reset with sched := t.sched, timeBase := t.timeBase, dev := { Device.initial with svnMin := s.dev.svnMin, linkRate := t.dev.linkRate
                                                                                                    linkWidth := t.dev.linkWidth, out := t.dev.out } })

/-- R391, R392: a checkpoint to the host starts for a well-formed descriptor; a malformed one, or a second one, is refused with STATUS 3. At its end every line
has been sent in order, a poisoned one as zeros, and the descriptor says DONE with the poisoned lines; one to a peer is DONE once the peer has acknowledged its
lines; one whose target failed ends with a RAS record. -/
def Sys2Proof.Claims.CheckpointsRun : Prop :=
  ∀ (s : State) (v : Word),
    let a := v.toNat % 2 ^ 40
    let total := dramSize / 64
    let bad := (List.range total).filter (fun l => s.dramPoisoned (l * 64))
    (Clean s a 32 →
      (s.dev.ckpt ≠ none ∨ fieldOf (s.localWord a) 63 13 ≠ 0 ∨ fieldOf (s.localWord (a + 8)) 15 0 ≠ 0 ∨ fieldOf (s.localWord (a + 16)) 31 8 ≠ 0 →
        ∃ t, exec (.checkpoint v) s = .next t ∧ t.dev = s.dev ∧ memGet t.mem.cells (a + 16) = 3) ∧
      (s.dev.ckpt = none → s.localWord a = 0 → fieldOf (s.localWord (a + 8)) 15 0 = 0 → fieldOf (s.localWord (a + 16)) 31 8 = 0 →
        ∃ t c, exec (.checkpoint v) s = .next t ∧ t.dev.ckpt = some c ∧ c.desc = a ∧ c.peer = false ∧ c.sent = none ∧ c.dest = s.localWord (a + 8) ∧
          memGet t.mem.cells (a + 16) = 0 ∧ ∀ b, b < a + 16 ∨ a + 32 ≤ b → memGet t.mem.cells b = memGet s.mem.cells b)) ∧
    (∀ c n first, s.dev.ckpt = some c → c.peer = true → c.sent = some (n, first) →
      ((∃ r ∈ s.fabric.retry, r.isLine = true) → exec (.checkpointComplete true) s = .next s) ∧
      ((∀ r ∈ s.fabric.retry, r.isLine = false) → Clean s c.desc 32 → n < 2 ^ 32 → first < 2 ^ 64 →
        ∃ t, exec (.checkpointComplete true) s = .next t ∧ t.dev = { s.dev with ckpt := none } ∧ fieldOf (t.localWord (c.desc + 16)) 7 0 = 1 ∧
          fieldOf (t.localWord (c.desc + 16)) 63 32 = n ∧ (t.localWord (c.desc + 24)).toNat = first)) ∧
    (∀ c, s.dev.ckpt = some c → c.peer = false → c.sent = none → (∀ l, (s.lmeta l).state = 0 ∧ s.homeTrans l = none) →
      (Clean s c.desc 32 → bad.length < 2 ^ 32 →
        ∃ t, exec (.checkpointComplete true) s = .next t ∧ t.dev.ckpt = none ∧ t.dev.out.length = s.dev.out.length + total ∧
          (∀ l, l < total → t.dev.out[s.dev.out.length + l]? = some (.write (c.dest + BitVec.ofNat 64 (l * 64))
            (if s.dramPoisoned (l * 64) = true then 0 else BitVec.ofNat 512 (leNat (memBytes s.mem.cells (l * 64) 64))))) ∧
          fieldOf (t.localWord (c.desc + 16)) 7 0 = 1 ∧ fieldOf (t.localWord (c.desc + 16)) 63 32 = bad.length ∧
          (t.localWord (c.desc + 24)).toNat = bad.headD 0 * 64) ∧
      ∃ t, exec (.checkpointComplete false) s = .next t ∧ t.dev.ckpt = none ∧ RasTold s t)

namespace Sys2Proof.Claims

open Sys2Proof.Machine

/-! ### Trust and registers (R8, R368, R369, R408 to R413) -/

/-- A number in the staged image. -/
def img (s : State) (lo n : Nat) : Nat := leNat (memBytes s.dev.staging lo n)
/-- A read of the control window answers the host with a value. -/
def ReadsAs (s : State) (off : Nat) (x : Word) : Prop := ∃ t, exec (.readClear off) s = .next t ∧ t.dev.out = s.dev.out ++ [.register off x]

end Sys2Proof.Claims

/-- R408, R409, R410, R411: BOOTGO begins to verify the staged image, and is ignored while it does; the checks follow the order of the rule's pseudocode, and a
good image starts the service cores at its entry (that a verification ends with the next cycle is the model's choice, log entry 16). READY comes with DRAM zeroed, every line HOME and the staging buffer cleared. SVNMIN only rises. -/
def Sys2Proof.Claims.FirmwareIsVerifiedAndStarted : Prop :=
  ∀ (s : State),
    (∀ v : Word, (s.dev.bootState ≠ 0 → s.dev.bootState ≠ 4 → exec (.bootgo v) s = .next s) ∧
      (s.dev.bootState = 0 ∨ s.dev.bootState = 4 → exec (.bootgo v) s = .next { s with dev := { s.dev with bootState := 1, bootGo := v } })) ∧
    (∀ n, s.dev.bootState = 1 → (passTime s n).dev = s.dev → elapse s n = (passTime s n).bootEnds) ∧
    (let d := s.dev
      let n := img s 8 8
      let failed (r : BitVec 8) : Prop := s.bootEnds = { s with dev := { d with bootState := 4, bootReason := r } }
      let lengthOk : Prop := d.bootGo.toNat = n ∧ 256 ≤ n ∧ n ≤ 4194304 ∧ n % 64 = 0
      let headerOk : Prop := img s 0 4 = 0x57464D4B ∧ img s 4 4 = 1 ∧ img s 16 8 % 4 = 0 ∧ img s 28 4 = 0 ∧ img s 160 96 = 0
      let keyOk (k : Nat) : Prop := Config.keyHash k = sha256 (memBytes d.staging 32 64) ∧ Config.keyRevoke.getLsbD k = false
      let h := sha256 (memBytes d.staging 0 96 ++ List.replicate 64 0 ++ memBytes d.staging 160 (n - 160))
      let be (lo : Nat) : Nat := beNat (memBytes d.staging lo 32)
      let signed : Prop := ecdsaVerify (be 32, be 64) h (be 96) (be 128) = true
      (d.bootState = 1 →
        (¬lengthOk → failed 2) ∧ (lengthOk → ¬headerOk → failed 1) ∧ (lengthOk → headerOk → (∀ k, k < 4 → ¬keyOk k) → failed 3) ∧
        (∀ k, lengthOk → headerOk → k < 4 → keyOk k → (∀ i, i < k → ¬keyOk i) →
          (¬signed → failed 4) ∧ (signed → img s 24 4 < d.svnMin.toNat → failed 5) ∧
          (signed → d.svnMin.toNat ≤ img s 24 4 →
            ∃ t, s.bootEnds = t ∧ t.dev.bootState = 2 ∧ t.dev.fwHash = h ∧ t.dev.keySlot.toNat = k ∧ t.dev.svn.toNat = img s 24 4 ∧
              ∀ c, c / 1024 < 4 → c % 1024 < 4 → (t.ctx (c * 8)).phase = .run ∧ (t.ctx (c * 8)).pc = BitVec.ofNat 52 (spAddr c (img s 16 8)) ∧
                ∀ i, i < min n spSize → memGet t.mem.cells (spAddr c i) = memGet d.staging i)))) ∧
    (s.dev.bootState = 2 → ∃ t, exec .firmwareReady s = .next t ∧ t.dev.bootState = 3 ∧ t.dev.staging = [] ∧ (∀ l, t.lmeta l = LMeta.initial) ∧
      (∀ a, a < dramSize → memGet t.mem.cells a = 0) ∧
      (∀ c, c < 4096 → isService c = true → (t.core c).asid = t.dev.svcAsid) ∧ t.dev.svcRoots.length = 12 ∧
      ∀ a, isSp a = true → memGet t.mem.cells a = if isService (spOwner a) = true then memGet s.mem.cells a else 0) ∧
    (∀ v : Word, v.toNat < 2 ^ 32 → ∃ t, exec (.svnburn v) s = .next t ∧ t.dev.svnMin.toNat = max s.dev.svnMin.toNat v.toNat ∧
      t = { s with dev := { s.dev with svnMin := t.dev.svnMin } })

/-- R412, R413: GO captures what a report holds, or sets ERR while BUSY; the report is complete when BUSY clears, and its first 128 bytes are those captured. -/
def Sys2Proof.Claims.AttestationsAreMade : Prop :=
  ∀ (s : State),
    let d := s.dev
    (∀ v : Word,
      let asid := v.extractLsb' 0 16
      (v.getLsbD 16 = true → d.attBusy = true → exec (.attestationGo v) s = .next { s with dev := { d with attErr := true } }) ∧
      (v.getLsbD 16 = false →
        exec (.attestationGo v) s = .next { s with dev := { d with attAsid := asid, attErr := d.attErr && !v.getLsbD 18 } }) ∧
      (v.getLsbD 16 = true → d.attBusy = false →
        ∃ t, exec (.attestationGo v) s = .next t ∧ t.dev.attBusy = true ∧ t.dev.attAsid = asid ∧ t.dev.attRep = d.attRep ∧
          let c (lo n : Nat) : Nat := t.dev.attCapture.toNat / 2 ^ (8 * lo) % 2 ^ (8 * n)
          c 0 32 = d.attNonce.toNat ∧ c 64 8 = Config.serial.toNat ∧ c 76 2 = asid.toNat ∧ c 78 2 = (if s.jobLive asid = true then 1 else 0) ∧
          (s.jobLive asid = false → c 80 32 = 0) ∧ c 112 8 = s.time.toNat ∧ c 120 8 = 0 ∧
          (d.bootState = 3 → c 32 32 = leNat (beBytes 32 d.fwHash.toNat) ∧ c 72 4 = d.svn.toNat))) ∧
    (d.attBusy = true → ∃ t, exec .attestationDone s = .next t ∧ t.dev.attBusy = false ∧ t.dev.attRep.toNat % 2 ^ 1024 = d.attCapture.toNat ∧
      t.dev.attNonce = d.attNonce)

/-- R8, R201, R368, R369, R370, R372, R377, R389, R404, R408: a write of the control window acts as its register says, a poisoned or unassigned one changes
no register, and a read answers with the register's value and clears an RC register. -/
def Obligations.ControlWindowReadsAndWrites : Prop :=
  ∀ (s : State) (v : Word),
    let d := s.dev
    let write (off : Nat) := exec (.registerWrite off false v) s
    (∀ off, off < 0x1000000 → ∃ t, exec (.registerWrite off true v) s = .next t ∧
      t = { s with dev := { d with cwDrop := t.dev.cwDrop, out := d.out ++ [.poisonedTlp] } } ∧
      t.dev.cwDrop.toNat = min (d.cwDrop.toNat + 1) (2 ^ 32 - 1)) ∧
    (write 0x00 = exec (.launch v) s ∧ write 0x10 = exec (.jobend v) s ∧ write 0x20 = exec (.jobSwitch v) s ∧ write 0x800 = exec (.checkpoint v) s ∧
      write 0x8008 = exec (.bootgo v) s ∧ write 0x8020 = exec (.svnburn v) s ∧ write 0x8220 = exec (.attestationGo v) s ∧
      write 0x10000 = exec (.xinv v s.mem.xinvHi) s ∧ write 0x10040 = exec (.pageMove v.toNat) s ∧ write 0x100080 = exec (.thringWrite v) s ∧
      (∀ m, m < 4 → v.getLsbD 0 = true → write (0x100020 + 8 * m) = exec (.laserRelight m) s) ∧
      ∀ n, n < 1024 → write (0x20000 + 8 * n) = exec (.semvalWrite n v) s ∧ write (0x22000 + 8 * n) = exec (.semincWrite n v) s) ∧
    (write 0x18 = .next { s with dev := { d with swParts := v } } ∧ write 0x30 = .next { s with dev := { d with swSave := v } } ∧
      write 0x38 = .next { s with dev := { d with swLoad := v } } ∧
      (v.toNat % 64 = 0 → write 0x40 = .next { s with dev := { d with rasRing := v } }) ∧
      ∀ j, j < 64 → ∃ t, write (0x100 + 8 * j) = .next t ∧ (tabGet t.dev.amPage j 0).toNat = v.toNat % 2 ^ 17 ∧
        ∀ k, k ≠ j → tabGet t.dev.amPage k 0 = tabGet d.amPage k 0) ∧
    (∀ off, 0x2000000 ≤ off → ReadsAs s off 0) ∧
    (∀ off, (0x60 ≤ off ∧ off < 0x100) ∨ (0x808 ≤ off ∧ off < 0x8000) ∨ (0x24000 ≤ off ∧ off < 0x80000) →
      write off = .next s ∧ ReadsAs s off 0) ∧
    (ReadsAs s 0x18 d.swParts ∧ ReadsAs s 0x30 d.swSave ∧ ReadsAs s 0x38 d.swLoad ∧ ReadsAs s 0x40 d.rasRing ∧ ReadsAs s 0x8018 Config.serial ∧
      ReadsAs s 0x100090 s.photonic.thwr ∧ ReadsAs s 0x100080 s.photonic.thring ∧
      (∃ x, ReadsAs s 0x08 x ∧ fieldOf x 1 0 = d.launchState.toNat ∧ fieldOf x 9 2 = d.launchReason.toNat ∧ fieldOf x 17 10 = d.launchWord.toNat ∧
        fieldOf x 33 18 = d.launchAsid.toNat ∧ fieldOf x 63 34 = 0) ∧
      (∀ n, n < 1024 → ReadsAs s (0x20000 + 8 * n) (s.sem n) ∧ ReadsAs s (0x22000 + 8 * n) (s.sem n)) ∧
      ∀ j, j < 64 → ReadsAs s (0x500 + 8 * j) (tabGet d.amErr j 0)) ∧
    (∃ t, exec (.readClear 0x50) s = .next t ∧ t.dev.mwDrop = 0 ∧ t.dev.cwDrop = d.cwDrop) ∧
    (∃ t, exec (.readClear 0x58) s = .next t ∧ t.dev.cwDrop = 0 ∧ t.dev.mwDrop = d.mwDrop) ∧
    (∀ j, j < 64 → ∃ t, exec (.readClear (0x300 + 8 * j)) s = .next t ∧ tabGet t.dev.amDrop j 0 = 0 ∧ ∀ k, k ≠ j → tabGet t.dev.amDrop k 0 = tabGet d.amDrop k 0)

namespace Sys2Proof.Claims

open Sys2Proof.Machine

/-! ### Words, steps and memory -/

/-- The decoder gives a word no instruction, so that a step traps ILLEGAL on it (R72). -/
def TrapsIllegal (w : IWord) : Prop := ∃ e, decode w = .error e
/-- A word built from its major and four numbers at their places. -/
def placed (base d a b low : Nat) : IWord := BitVec.ofNat 32 (base + d * 2 ^ 21 + a * 2 ^ 16 + b * 2 ^ 11 + low)
/-- The state in which the first of a core's contexts issues, with the schedule moved on. -/
def issuing (s : State) (rest : List Action) (k : Nat) : State := atContext { s with sched := { s.sched with agenda := rest } } k
/-- That state once the context holds the word it issues. -/
def holding (u : State) (k : Nat) (w : IWord) : State := u.modCtx k (fun c => { c with ir := w, ilen := 4, ext := none, fetched := true })
/-- The context issues a fresh instruction: no trap has come due, no wait goes on, no frame is replayed. -/
def Fresh (c : Ctx) : Prop := c.budgetLeft ≠ 0 ∧ c.waiting = false ∧ c.deferred = [] ∧ c.rpt = none

end Sys2Proof.Claims

/-- R29, R36, R72, R73, R92, R98: a step that the schedule gives a core runs, in its first ready context, the instruction that the bytes at its PC decode to, by `exec`; a word
of no row and a fetch that faults are their steps, and an exhausted budget comes first. A step of the schedule without an encoding is `exec` of it. -/
def Obligations.AStepRunsTheDecodedInstruction : Prop :=
  ∀ (s : State) (rest : List Action),
    (∀ core k, s.sched.agenda = .issue core :: rest → (issueOrder { s with sched := { s.sched with agenda := rest } } core).head? = some k →
      let u := issuing s rest k
      let c := u.ctx k
      (∀ v w i, Fresh c → u.fetch k c.pc = (v, .ok w) → decode w = .ok i → step s = exec i (holding v k w)) ∧
      (∀ v w e, Fresh c → u.fetch k c.pc = (v, .ok w) → decode w = .error e → step s = exec (.illegalInstruction k) (holding v k w)) ∧
      (∀ v e, Fresh c → u.fetch k c.pc = (v, .error e) → step s = exec (.instructionFetchFault k) u) ∧
      (∀ r, c.budgetLeft ≠ 0 → c.waiting = false → c.deferred = [] → c.rpt = some r →
        let w := staggered (r.frame.getD r.slot 0) r.iter r.sd r.sa r.sb
        ∀ i, decode w = .ok i → step s = exec i (u.setCtx k { c with ir := w, ilen := 4, ext := none, fetched := true })) ∧
      (c.waiting = false → c.budgetLeft = 0 → step s = exec (.budgetExpiry k) u) ∧
      (c.waiting = false → c.budgetLeft ≠ 0 → c.deferred ≠ [] → step s = exec (.deferredFault k) u) ∧
      (isService (k / 8) = true → regionOf c.pc.toNat = 0xC → spMalformed c.pc.toNat = false → s.spPoisoned c.pc.toNat = false →
        u.fetch k c.pc = (u, .ok (BitVec.ofNat 32 (leNat (memBytes s.mem.cells c.pc.toNat 4)))))) ∧
    (∀ i, s.sched.agenda = .event i :: rest → i.isWord = false → step s = exec i { s with sched := { s.sched with agenda := rest } }) ∧
    (∀ n, s.sched.agenda = .tick n :: rest → step s = .next (elapse { s with sched := { s.sched with agenda := rest } } n))

/-- R30 and the worked words of the spec's chapters: these words decode to these instructions. -/
def Obligations.WrittenOutWordsDecode : Prop :=
  decode 0x20840203#32 = .ok (.srai 4 4 3) ∧ decode 0xB8221820#32 = .ok (.fadd 1 2 3 0 1) ∧ decode 0xA4432120#32 = .ok (.vfma 2 3 4 1 1) ∧
  decode 0x9C04C001#32 = .ok (.syswr 4 0xC00) ∧ decode 0x9CA0C130#32 = .ok (.sysrd 5 0xC13) ∧ decode 0x9C070003#32 = .ok (.irq 7) ∧
  decode 0x98060340#32 = .ok (.tkill 6) ∧ decode 0x74640081#32 = .ok (.vldf 3 4 1) ∧ decode 0xDC042800#32 = .ok (.semadd 4 5) ∧
  decode 0xDC640080#32 = .ok (.semrd 3 4) ∧ decode 0xDC04290C#32 = .ok (.semwaitN 4 5 12) ∧ TrapsIllegal 0x00000000#32

/-- R148 whole: the quotient and the remainder of the pseudocode, with no trap and no flag. -/
def Obligations.DivisionFollowsItsPseudocode : Prop :=
  ∀ (s : State) (d a b : Reg),
    let x := rdG s.me a
    let y := rdG s.me b
    let gives (i : Instr) (z : Word) : Prop := ∃ t, exec i s = .next t ∧ t.me.fflags = s.me.fflags ∧ t.me.phase = s.me.phase ∧ t.mail = s.mail ∧
      SameMemory s t ∧ ∀ r, rdG t.me r = if r = d ∧ d ≠ 0 then z else rdG s.me r
    gives (.div d a b) (divided true x y).1 ∧ gives (.divn d a b) (divided false x y).1 ∧
    gives (.rem d a b) (divided true x y).2 ∧ gives (.remn d a b) (divided false x y).2

/-- R49, R54, R70, R146, R151 whole: the shift-immediate group, JREG, SEM, TRAP and IRQ decode as their rules say, and every other word of the first three groups
traps ILLEGAL. -/
def Obligations.SmallGroupsDecodeAsTheirRulesSay : Prop :=
  (∀ (w : IWord), fMajor w = 0x08#6 →
    let imm := fImm w
    let op := imm.extractLsb' 8 2
    let k := imm.extractLsb' 0 6
    (imm.extractLsb' 10 6 ≠ 0 ∨ imm.extractLsb' 6 2 ≠ 0 → TrapsIllegal w) ∧
    (imm.extractLsb' 10 6 = 0 → imm.extractLsb' 6 2 = 0 → decode w = .ok (if op = 0 then .slli (fD w) (fA w) k else if op = 1 then .srli (fD w) (fA w) k
      else if op = 2 then .srai (fD w) (fA w) k else .rori (fD w) (fA w) k))) ∧
  (∀ (d a : Reg) (k : BitVec 6),
    decode (placed 0x20000000 d.toNat a.toNat 0 k.toNat) = .ok (.slli d a k) ∧ decode (placed 0x20000000 d.toNat a.toNat 0 (0x100 + k.toNat)) = .ok (.srli d a k) ∧
    decode (placed 0x20000000 d.toNat a.toNat 0 (0x200 + k.toNat)) = .ok (.srai d a k) ∧ decode (placed 0x20000000 d.toNat a.toNat 0 (0x300 + k.toNat)) = .ok (.rori d a k) ∧
    ∀ (s : State) (b : Reg), (rdG s.me b).toNat % 64 = k.toNat →
      exec (.slli d a k) s = exec (.sll d a b) s ∧ exec (.srli d a k) s = exec (.srl d a b) s ∧ exec (.srai d a k) s = exec (.sra d a b) s ∧
      exec (.rori d a k) s = exec (.ror d a b) s) ∧
  decode 0x20840203#32 = .ok (.srai 4 4 3) ∧
  (∀ (w : IWord), fMajor w = 0x23#6 →
    (fFn w = 0x000#11 → fD w = 0 → fB w = 0 → decode w = .ok (.jr (fA w))) ∧ (fFn w = 0x001#11 → fB w = 0 → decode w = .ok (.jlr (fD w) (fA w))) ∧
    (fFn w = 0x000#11 → fD w ≠ 0 ∨ fB w ≠ 0 → TrapsIllegal w) ∧ (fFn w = 0x001#11 → fB w ≠ 0 → TrapsIllegal w) ∧
    (fFn w ≠ 0x000#11 → fFn w ≠ 0x001#11 → TrapsIllegal w)) ∧
  (∀ (w : IWord), fMajor w = 0x37#6 →
    (0x05 ≤ (fSub w).toNat → TrapsIllegal w) ∧ ((fSub w).toNat < 0x04 → w.extractLsb' 0 6 ≠ 0 → TrapsIllegal w)) ∧
  (∀ (d a b : Reg) (c : BitVec 6),
    decode (placed 0xDC000000 0 a.toNat b.toNat 0) = .ok (.semadd a b) ∧ decode (placed 0xDC000000 0 a.toNat b.toNat 0x40) = .ok (.semset a b) ∧
    decode (placed 0xDC000000 d.toNat a.toNat 0 0x80) = .ok (.semrd d a) ∧ decode (placed 0xDC000000 0 a.toNat b.toNat 0xC0) = .ok (.semwait a b) ∧
    decode (placed 0xDC000000 0 a.toNat b.toNat (0x100 + c.toNat)) = .ok (.semwaitN a b c)) ∧
  ∀ (a : Reg) (code : BitVec 12),
    decode (BitVec.ofNat 32 (0x9C000002 + code.toNat * 2 ^ 4)) = .ok (.trap code) ∧ decode (placed 0x9C000003 0 a.toNat 0 0) = .ok (.irq a)

/-- R30, R47 to R70: every well-formed instruction decodes from its own word, with every operand. -/
def Sys2Proof.Claims.DecodeInvertsEncode : Prop :=
  ∀ (i : Instr), i.isWord = true → i.wellFormed = true → decode (encode i) = .ok i

/-- R30, R47 to R72: a word that decodes has one reading: it is the word of its instruction, bit for bit. -/
def Sys2Proof.Claims.EncodeInvertsDecode : Prop :=
  ∀ (w : IWord) (i : Instr), decode w = .ok i → encode i = w ∧ i.isWord = true ∧ i.wellFormed = true

/-- R3, R170, R194: every step keeps the memory in its canonical form: addresses rising, no entry that reads as an unlisted byte does. What an unlisted byte
reads as is the model's choice (log entry 4). -/
def Obligations.StepsKeepMemoryCanonical : Prop :=
  ∀ (s t : State), Safety.MemoryCanonical s → step s = .next t → Safety.MemoryCanonical t

/-- R27, R72, R341: no instruction and no event stops the machine: a step always goes on. -/
def Obligations.EveryStepGoesOn : Prop :=
  (∀ (i : Instr) (s : State), Safety.GoesOn (exec i s)) ∧ ∀ (s : State), Safety.GoesOn (step s)

/-- R408: no instruction, no event and no step lowers SVNMIN. -/
def Obligations.SecurityVersionNeverFalls : Prop :=
  (∀ (i : Instr) (s t : State), exec i s = .next t → s.dev.svnMin.toNat ≤ t.dev.svnMin.toNat) ∧
  ∀ (s t : State), step s = .next t → s.dev.svnMin.toNat ≤ t.dev.svnMin.toNat

/-- R377, R390, R393, R396, R404, R409: after package reset the memory is canonical and no job runs; these registers have the values that their field maps give. -/
def Obligations.ResetLeavesTheSpecsValues : Prop :=
  let s := State.reset
  Safety.MemoryCanonical s ∧ s.jobs = [] ∧ (∀ k, (s.ctx k).phase ≠ .run) ∧ s.dev.bootState = 0 ∧ s.dev.launchState = 0 ∧ s.dev.msixEnable = false ∧
  (∀ v, v ∉ s.dev.msixOpen) ∧ s.photonic.pwrAlert = 2400 ∧ (∀ d, (s.deck d).req = 2 ∧ (s.deck d).tripped = false ∧ (s.deck d).wlen = false) ∧
  (∀ bk r, bk < 4096 → r < 18 → (s.ring bk r).lambda.toNat = if r < 16 then r else 31) ∧ s.fabric.fablife = 1000 ∧
  ∀ page, tabGet s.dev.amSerial page 0 = 0

/-- R3: a byte written is the byte read, and no other changes; a word is its bytes, the lowest first. -/
def Obligations.MemoryReadsWhatWasWritten : Prop :=
  ∀ (m : List Host.Cell),
    (∀ a b c, memGet (memSet m a b) c = if c = a then b else memGet m c) ∧ (∀ a b, memWf m = true → memWf (memSet m a b) = true) ∧
    (∀ a (bs : List Byte), memBytes (memWrite m (cellsAt a bs)) a bs.length = bs ∧ ∀ c, c < a ∨ a + bs.length ≤ c →
      memGet (memWrite m (cellsAt a bs)) c = memGet m c) ∧
    (∀ (n : Nat) (x : Nat), x < 2 ^ (8 * n) → leNat (leBytes n x) = x) ∧
    ∀ m', memWf m = true → memWf m' = true → (∀ a, memGet m a = memGet m' a) → m = m'


/-- Branches and jumps transfer after two slots or trap; where control goes after any instruction. -/
def Obligations.ControlGoesWhereTheRulesSay : Prop :=
  Claims.BranchesAndJumpsTransferAfterTwoSlots ∧ Claims.ForbiddenDelaySlotTraps ∧ Claims.MisalignedJumpTargetTraps ∧ Claims.PlaceAfterInstruction

/-- WWR and WCLR write the message registers; RPT captures an arithmetic frame or traps RPTBODY. -/
def Obligations.MessageRegistersAndFramesAreCaptured : Prop :=
  Claims.MessageRegistersWritten ∧ Claims.RptCapturesArithmeticFrame

/-- WAITC waits for its limits; EXT executes its composite immediate or traps. -/
def Obligations.WaitcAndExtExecute : Prop :=
  Claims.WaitcWaitsForItsLimits ∧ Claims.ExtExecutesCompositeImmediate ∧ Claims.ExtTraps ∧ Claims.ExtExtendsAddressesAndTargets

/-- Vector instructions write their active lanes and keep the others. Rests in part on the model's choice of log entry 23. -/
def Obligations.VectorLanesAreWritten : Prop :=
  Claims.VectorIntegerLanesWritten ∧ Claims.VectorFloatingLanesRounded ∧ Claims.VectorLanesUnderEveryMode

/-- Compares and mask instructions write masks; scalars and reductions come from vectors. -/
def Obligations.MasksScalarsAndReductions : Prop :=
  Claims.MaskInstructionsWriteEveryBit ∧ Claims.ScalarsReadFromVectors ∧ Claims.IntegerReductionsCombineActiveLanes ∧ Claims.FloatingReductionsFollowTheTree

/-- Sparse dot products, unscaled quantisation and the traps of conversions. Rests in part on the model's choice of log
entry 34. -/
def Obligations.DotProductsAndConversions : Prop :=
  Claims.SparseDotProduct ∧ Claims.UnscaledQuantiseWritesCodes ∧ Claims.QuantiseAndSparseDotEnd ∧ Claims.ConversionTraps

/-- A bad address traps with the first cause of its order; an access that must wait waits at its place. Rests in part on the
model's choice of log entries 11, 22. -/
def Obligations.AddressesAreCheckedInOrder : Prop :=
  Claims.BadAddressesTrapInOrder ∧ Claims.AccessesWaitAtTheirPlace

/-- Plain, acquiring and vector loads and stores are issued with their bytes and their counters. Rests in part on the
model's choice of log entries 11, 12. -/
def Obligations.LoadsAndStoresAreIssued : Prop :=
  Claims.LoadsAreIssued ∧ Claims.StoresAreIssued

/-- FENCE, the L1 instructions and the hints end as their rules say. Rests in part on the model's choice of log entries 11,
12, 17, 29, 31. -/
def Obligations.FencesHintsAndL1 : Prop :=
  Claims.FenceEndsWhenEarlierAccessesAreOver ∧ Claims.L1Maintenance ∧ Claims.HintsEndWithoutATrap

/-- Atomics are issued to their owner or home; what each computes. Rests in part on the model's choice of log entries 11,
15. -/
def Obligations.AtomicsAreIssued : Prop :=
  Claims.ScratchpadAtomicsAreIssued ∧ Claims.DramAtomicsAreIssued ∧ Claims.AtomicArithmetic

/-- VLDF and VSTF check their tags and access their elements. Rests in part on the model's choice of log entries 22, 30. -/
def Obligations.FormattedAccesses : Prop :=
  Claims.FormattedTagTraps ∧ Claims.FormattedLoadIsIssued ∧ Claims.FormattedStoreIsIssued

/-- The decode table and the format table are read and written. -/
def Obligations.DecodeAndFormatTables : Prop :=
  Claims.DecodeTableInstructions ∧ Claims.FormatTableWritten ∧ Claims.FormatTableRead

/-- System registers are read and written at their level; IRQ raises its vector. Rests in part on the model's choice of log
entries 3, 10. -/
def Obligations.SystemRegistersAndIrq : Prop :=
  Claims.SystemRegistersRead ∧ Claims.SystemRegistersWritten ∧ Claims.SystemRegisterAccessesComplete ∧ Claims.ServiceRegistersArePrivileged ∧ Claims.IrqRaisesItsVector

/-- What taking a trap saves, where it is told, and which traps come due. Rests in part on the model's choice of log entries
22, 43. -/
def Obligations.TrapsEndTheActivation : Prop :=
  Claims.TrapEndsTheActivation ∧ Claims.TrapInstructionTrapsItsCode ∧ Claims.BoundaryTraps ∧ Claims.LateStoreFaultIsReported

/-- Replies of loads write registers; acknowledgements of stores write banks and lower counters. Rests in part on the
model's choice of log entry 11. -/
def Obligations.RepliesWriteRegistersAndBanks : Prop :=
  Claims.LoadReplyWritesItsRegister ∧ Claims.StoreAckWritesTheBanks

/-- Remote accesses, buffered stores, walks and reclaims take effect at their memory. Rests in part on the model's choice of
log entries 11, 17. -/
def Obligations.AccessesReachTheirMemory : Prop :=
  Claims.RemoteAccessesAreServedAtTheOwner ∧ Claims.BufferedStoresReachMemory ∧ Claims.WalksAndReclaims

/-- SEND, START and SPAWN inject their messages or trap. Rests in part on the model's choice of log entries 21, 22, 51. -/
def Obligations.MessagesAreSent : Prop :=
  Claims.SendsCarryTheMessageRegisters ∧ Claims.SendRefusals ∧ Claims.StartSendsItsTask ∧ Claims.SpawnStartsEveryUnit

/-- END, YIELD, MIGR and ALIGN end, return or hold an activation. Rests in part on the model's choice of log entries 20, 33. -/
def Obligations.ActivationsEnd : Prop :=
  Claims.ActivationsEnd ∧ Claims.ActivationsDoNotEndEarly ∧ Claims.AlignWaitsForLaggards

/-- Channels are enabled, disabled and given priorities; regions are allocated and freed. Rests in part on the model's
choice of log entries 45, 51. -/
def Obligations.ChannelsAndRegionsAreManaged : Prop :=
  Claims.ChannelControl ∧ Claims.ChannelControlPackets ∧ Claims.RegionsAllocatedAndFreed

/-- Messages arrive in order and start activations; forwarding entries expire. Rests in part on the model's choice of log
entries 2, 51. -/
def Obligations.ActivationsBegin : Prop :=
  Claims.ActivationsBegin ∧ Claims.MessagesArriveInOrder ∧ Claims.ForwardingEntriesExpire ∧ Claims.StartsAndContinuationsBegin

/-- Token instructions wait, read, cancel, resume and detach. Rests in part on the model's choice of log entry 10. -/
def Obligations.TokensAreReadAndActedOn : Prop :=
  Claims.TokenStatusIsRead ∧ Claims.TokenActions

/-- TREC and TFENCE; what an operation leaves when it becomes terminal. Rests in part on the model's choice of log entries
10, 22. -/
def Obligations.RecordsAndTerminalOperations : Prop :=
  Claims.RecordsStoredAndFenced ∧ Claims.OperationsBecomeTerminal ∧ Claims.TerminalStepsAreTaken

/-- Child operations take a slot and queue, or trap. Rests in part on the model's choice of log entries 10, 22. -/
def Obligations.ChildOperationsAreIssued : Prop :=
  Claims.ChildOperationsAreIssued ∧ Claims.ChildOperationsAreRefused

/-- Copies are scheduled, advance chunk by chunk, write their beats and stop when cancelled. Rests in part on the model's
choice of log entry 13. -/
def Obligations.CopiesRun : Prop :=
  Claims.CopiesAreScheduled ∧ Claims.CopyChunksAreTakenUp ∧ Claims.CopyBeatsAreWritten ∧ Claims.CancellationsStopAtTheUnit

/-- Matrix commands queue at their engine, migrate, are dispatched and complete. Rests in part on the model's choice of log
entries 14, 15, 51. -/
def Obligations.MatrixCommandsQueueAndComplete : Prop :=
  Claims.MatrixCommandsQueueAndMove ∧ Claims.LanesTakeCommands ∧ Claims.MatrixCommandsComplete

/-- Phase images are loaded, banked, swapped and dropped. Rests in part on the model's choice of log entries 15, 51. -/
def Obligations.ImagesAreLoadedAndSwapped : Prop :=
  Claims.ImagesAreLoaded ∧ Claims.BanksSwapAndImagesDrop

/-- Element transfers end; engines yield at job switches and apply held trims. Rests in part on the model's choice of log
entries 13, 14, 15, 51. -/
def Obligations.TransfersAndBoundaries : Prop :=
  Claims.TransfersByElementEnd ∧ Claims.EnginesYieldAndTrim

/-- Barrier instructions arrive, wait, read, initialise, note, link and bind. Rests in part on the model's choice of log
entries 10, 24, 48. -/
def Obligations.BarrierInstructions : Prop :=
  Claims.BarrierEventsAreSent ∧ Claims.BarriersAreAwaitedAndRead ∧ Claims.BarriersAreSetUp

/-- Barrier events are combined, complete phases and flip children. Rests in part on the model's choice of log entry 24. -/
def Obligations.BarrierEventsAreApplied : Prop :=
  Claims.BarrierEventsAreApplied ∧ Claims.ParentsFlipTheirChildren

/-- Groups exchange and withdraw; collectives start and complete. Rests in part on the model's choice of log entries 24, 26. -/
def Obligations.GroupsAndCollectives : Prop :=
  Claims.GroupsExchangeAndWithdraw ∧ Claims.FarMembersTakePart ∧ Claims.CollectivesStartAndComplete ∧ Claims.CollectivesWriteTheirTable ∧ Claims.LargerGroupsJoinLeaveAndWithdraw

/-- Semaphore instructions reach the unit, which updates values and fires waits. Rests in part on the model's choice of log
entry 10. -/
def Obligations.SemaphoresWork : Prop :=
  Claims.SemaphoreInstructionsReachTheUnit ∧ Claims.SemaphoreUnitUpdates

/-- Circuits are set up and taken down; ports are gated and woken. Rests in part on the model's choice of log entry 27. -/
def Obligations.CircuitsAndPorts : Prop :=
  Claims.CircuitOperationsExecute ∧ Claims.CircuitsSettle ∧ Claims.PortsAreGatedAndWoken

/-- Packets between packages are answered, retried or given up, take effect once; map entries are written. Rests in part on
the model's choice of log entries 20, 27, 49. -/
def Obligations.FabricPacketsAndMap : Prop :=
  Claims.PacketsAreAnsweredOrGivenUp ∧ Claims.PacketsTakeEffectOnce ∧ Claims.MapEntriesAreWritten

/-- XINV removes translations; transient windows expire and are re-armed. Rests in part on the model's choice of log entry
13. -/
def Obligations.TranslationsAndWindows : Prop :=
  Claims.XinvRemovesTranslations ∧ Claims.TransientWindowsExpire

/-- The home's states and transactions. Rests in part on the model's choice of log entries 12, 17. -/
def Obligations.CoherenceProtocol : Prop :=
  Claims.CoherenceRequestsAreTaken ∧ Claims.CoherenceTransactionsEnd

/-- JOBEND ends and reclaims a job; job switches are refused, start and complete. Rests in part on the model's choice of log
entries 17, 35, 51. -/
def Obligations.JobsEndAndAreSwitched : Prop :=
  Claims.JobsEndAndAreReclaimed ∧ Claims.JobsAreSwitched

/-- The active-message window delivers or refuses; the memory window reads and writes. Rests in part on the model's choice
of log entry 36. -/
def Obligations.HostWindows : Prop :=
  Claims.HostMessagesAreDelivered ∧ Claims.MemoryWindowReadsAndWrites

/-- Unmasked vectors, link training, package reset and checkpoints. Rests in part on the model's choice of log entry 36. -/
def Obligations.LinkResetAndCheckpoints : Prop :=
  Claims.LinkInterruptsAndReset ∧ Claims.CheckpointsRun

/-- Firmware is verified and started; attestation reports are captured and completed. Rests in part on the model's choice of
log entries 10, 16. -/
def Obligations.FirmwareAndAttestation : Prop :=
  Claims.FirmwareIsVerifiedAndStarted ∧ Claims.AttestationsAreMade

/-- Decoding and encoding invert each other on every well-formed word. -/
def Obligations.EncodingsRoundTrip : Prop :=
  Claims.DecodeInvertsEncode ∧ Claims.EncodeInvertsDecode
end

