-- ==== Sys2Proof/Laws/State.lean ====
section
/-!
SUPPORT. One law for each field of State under each named update, true by definition.
-/
namespace Sys2Proof.Laws

open Sys2Proof.Machine

@[simp] theorem setCtx_sched (s : State) (k : Nat) (c : Ctx) : (s.setCtx k c).sched = s.sched := rfl
@[simp] theorem setCtx_now (s : State) (k : Nat) (c : Ctx) : (s.setCtx k c).now = s.now := rfl
@[simp] theorem setCtx_timeBase (s : State) (k : Nat) (c : Ctx) : (s.setCtx k c).timeBase = s.timeBase := rfl
@[simp] theorem setCtx_pkgIdx (s : State) (k : Nat) (c : Ctx) : (s.setCtx k c).pkgIdx = s.pkgIdx := rfl
@[simp] theorem setCtx_ctxs (s : State) (k : Nat) (c : Ctx) : (s.setCtx k c).ctxs = tabSet s.ctxs k c := rfl
@[simp] theorem setCtx_cores (s : State) (k : Nat) (c : Ctx) : (s.setCtx k c).cores = s.cores := rfl
@[simp] theorem setCtx_chans (s : State) (k : Nat) (c : Ctx) : (s.setCtx k c).chans = s.chans := rfl
@[simp] theorem setCtx_regions (s : State) (k : Nat) (c : Ctx) : (s.setCtx k c).regions = s.regions := rfl
@[simp] theorem setCtx_ops (s : State) (k : Nat) (c : Ctx) : (s.setCtx k c).ops = s.ops := rfl
@[simp] theorem setCtx_barriers (s : State) (k : Nat) (c : Ctx) : (s.setCtx k c).barriers = s.barriers := rfl
@[simp] theorem setCtx_groups (s : State) (k : Nat) (c : Ctx) : (s.setCtx k c).groups = s.groups := rfl
@[simp] theorem setCtx_mail (s : State) (k : Nat) (c : Ctx) : (s.setCtx k c).mail = s.mail := rfl
@[simp] theorem setCtx_flights (s : State) (k : Nat) (c : Ctx) : (s.setCtx k c).flights = s.flights := rfl
@[simp] theorem setCtx_mem (s : State) (k : Nat) (c : Ctx) : (s.setCtx k c).mem = s.mem := rfl
@[simp] theorem setCtx_sems (s : State) (k : Nat) (c : Ctx) : (s.setCtx k c).sems = s.sems := rfl
@[simp] theorem setCtx_armed (s : State) (k : Nat) (c : Ctx) : (s.setCtx k c).armed = s.armed := rfl
@[simp] theorem setCtx_jobs (s : State) (k : Nat) (c : Ctx) : (s.setCtx k c).jobs = s.jobs := rfl
@[simp] theorem setCtx_deadTags (s : State) (k : Nat) (c : Ctx) : (s.setCtx k c).deadTags = s.deadTags := rfl
@[simp] theorem setCtx_kills (s : State) (k : Nat) (c : Ctx) : (s.setCtx k c).kills = s.kills := rfl
@[simp] theorem setCtx_switch (s : State) (k : Nat) (c : Ctx) : (s.setCtx k c).switch = s.switch := rfl
@[simp] theorem setCtx_saved (s : State) (k : Nat) (c : Ctx) : (s.setCtx k c).saved = s.saved := rfl
@[simp] theorem setCtx_savedInbox (s : State) (k : Nat) (c : Ctx) : (s.setCtx k c).savedInbox = s.savedInbox := rfl
@[simp] theorem setCtx_photonic (s : State) (k : Nat) (c : Ctx) : (s.setCtx k c).photonic = s.photonic := rfl
@[simp] theorem setCtx_fabric (s : State) (k : Nat) (c : Ctx) : (s.setCtx k c).fabric = s.fabric := rfl
@[simp] theorem setCtx_dev (s : State) (k : Nat) (c : Ctx) : (s.setCtx k c).dev = s.dev := rfl

@[simp] theorem modCtx_sched (s : State) (k : Nat) (f : Ctx → Ctx) : (s.modCtx k f).sched = s.sched := rfl
@[simp] theorem modCtx_now (s : State) (k : Nat) (f : Ctx → Ctx) : (s.modCtx k f).now = s.now := rfl
@[simp] theorem modCtx_timeBase (s : State) (k : Nat) (f : Ctx → Ctx) : (s.modCtx k f).timeBase = s.timeBase := rfl
@[simp] theorem modCtx_pkgIdx (s : State) (k : Nat) (f : Ctx → Ctx) : (s.modCtx k f).pkgIdx = s.pkgIdx := rfl
@[simp] theorem modCtx_ctxs (s : State) (k : Nat) (f : Ctx → Ctx) : (s.modCtx k f).ctxs = tabSet s.ctxs k (f (s.ctx k)) := rfl
@[simp] theorem modCtx_cores (s : State) (k : Nat) (f : Ctx → Ctx) : (s.modCtx k f).cores = s.cores := rfl
@[simp] theorem modCtx_chans (s : State) (k : Nat) (f : Ctx → Ctx) : (s.modCtx k f).chans = s.chans := rfl
@[simp] theorem modCtx_regions (s : State) (k : Nat) (f : Ctx → Ctx) : (s.modCtx k f).regions = s.regions := rfl
@[simp] theorem modCtx_ops (s : State) (k : Nat) (f : Ctx → Ctx) : (s.modCtx k f).ops = s.ops := rfl
@[simp] theorem modCtx_barriers (s : State) (k : Nat) (f : Ctx → Ctx) : (s.modCtx k f).barriers = s.barriers := rfl
@[simp] theorem modCtx_groups (s : State) (k : Nat) (f : Ctx → Ctx) : (s.modCtx k f).groups = s.groups := rfl
@[simp] theorem modCtx_mail (s : State) (k : Nat) (f : Ctx → Ctx) : (s.modCtx k f).mail = s.mail := rfl
@[simp] theorem modCtx_flights (s : State) (k : Nat) (f : Ctx → Ctx) : (s.modCtx k f).flights = s.flights := rfl
@[simp] theorem modCtx_mem (s : State) (k : Nat) (f : Ctx → Ctx) : (s.modCtx k f).mem = s.mem := rfl
@[simp] theorem modCtx_sems (s : State) (k : Nat) (f : Ctx → Ctx) : (s.modCtx k f).sems = s.sems := rfl
@[simp] theorem modCtx_armed (s : State) (k : Nat) (f : Ctx → Ctx) : (s.modCtx k f).armed = s.armed := rfl
@[simp] theorem modCtx_jobs (s : State) (k : Nat) (f : Ctx → Ctx) : (s.modCtx k f).jobs = s.jobs := rfl
@[simp] theorem modCtx_deadTags (s : State) (k : Nat) (f : Ctx → Ctx) : (s.modCtx k f).deadTags = s.deadTags := rfl
@[simp] theorem modCtx_kills (s : State) (k : Nat) (f : Ctx → Ctx) : (s.modCtx k f).kills = s.kills := rfl
@[simp] theorem modCtx_switch (s : State) (k : Nat) (f : Ctx → Ctx) : (s.modCtx k f).switch = s.switch := rfl
@[simp] theorem modCtx_saved (s : State) (k : Nat) (f : Ctx → Ctx) : (s.modCtx k f).saved = s.saved := rfl
@[simp] theorem modCtx_savedInbox (s : State) (k : Nat) (f : Ctx → Ctx) : (s.modCtx k f).savedInbox = s.savedInbox := rfl
@[simp] theorem modCtx_photonic (s : State) (k : Nat) (f : Ctx → Ctx) : (s.modCtx k f).photonic = s.photonic := rfl
@[simp] theorem modCtx_fabric (s : State) (k : Nat) (f : Ctx → Ctx) : (s.modCtx k f).fabric = s.fabric := rfl
@[simp] theorem modCtx_dev (s : State) (k : Nat) (f : Ctx → Ctx) : (s.modCtx k f).dev = s.dev := rfl

@[simp] theorem modMe_sched (s : State) (f : Ctx → Ctx) : (s.modMe f).sched = s.sched := rfl
@[simp] theorem modMe_now (s : State) (f : Ctx → Ctx) : (s.modMe f).now = s.now := rfl
@[simp] theorem modMe_timeBase (s : State) (f : Ctx → Ctx) : (s.modMe f).timeBase = s.timeBase := rfl
@[simp] theorem modMe_pkgIdx (s : State) (f : Ctx → Ctx) : (s.modMe f).pkgIdx = s.pkgIdx := rfl
@[simp] theorem modMe_ctxs (s : State) (f : Ctx → Ctx) : (s.modMe f).ctxs = tabSet s.ctxs s.sched.cur (f s.me) := rfl
@[simp] theorem modMe_cores (s : State) (f : Ctx → Ctx) : (s.modMe f).cores = s.cores := rfl
@[simp] theorem modMe_chans (s : State) (f : Ctx → Ctx) : (s.modMe f).chans = s.chans := rfl
@[simp] theorem modMe_regions (s : State) (f : Ctx → Ctx) : (s.modMe f).regions = s.regions := rfl
@[simp] theorem modMe_ops (s : State) (f : Ctx → Ctx) : (s.modMe f).ops = s.ops := rfl
@[simp] theorem modMe_barriers (s : State) (f : Ctx → Ctx) : (s.modMe f).barriers = s.barriers := rfl
@[simp] theorem modMe_groups (s : State) (f : Ctx → Ctx) : (s.modMe f).groups = s.groups := rfl
@[simp] theorem modMe_mail (s : State) (f : Ctx → Ctx) : (s.modMe f).mail = s.mail := rfl
@[simp] theorem modMe_flights (s : State) (f : Ctx → Ctx) : (s.modMe f).flights = s.flights := rfl
@[simp] theorem modMe_mem (s : State) (f : Ctx → Ctx) : (s.modMe f).mem = s.mem := rfl
@[simp] theorem modMe_sems (s : State) (f : Ctx → Ctx) : (s.modMe f).sems = s.sems := rfl
@[simp] theorem modMe_armed (s : State) (f : Ctx → Ctx) : (s.modMe f).armed = s.armed := rfl
@[simp] theorem modMe_jobs (s : State) (f : Ctx → Ctx) : (s.modMe f).jobs = s.jobs := rfl
@[simp] theorem modMe_deadTags (s : State) (f : Ctx → Ctx) : (s.modMe f).deadTags = s.deadTags := rfl
@[simp] theorem modMe_kills (s : State) (f : Ctx → Ctx) : (s.modMe f).kills = s.kills := rfl
@[simp] theorem modMe_switch (s : State) (f : Ctx → Ctx) : (s.modMe f).switch = s.switch := rfl
@[simp] theorem modMe_saved (s : State) (f : Ctx → Ctx) : (s.modMe f).saved = s.saved := rfl
@[simp] theorem modMe_savedInbox (s : State) (f : Ctx → Ctx) : (s.modMe f).savedInbox = s.savedInbox := rfl
@[simp] theorem modMe_photonic (s : State) (f : Ctx → Ctx) : (s.modMe f).photonic = s.photonic := rfl
@[simp] theorem modMe_fabric (s : State) (f : Ctx → Ctx) : (s.modMe f).fabric = s.fabric := rfl
@[simp] theorem modMe_dev (s : State) (f : Ctx → Ctx) : (s.modMe f).dev = s.dev := rfl

@[simp] theorem modCore_sched (s : State) (n : Nat) (f : Core → Core) : (s.modCore n f).sched = s.sched := rfl
@[simp] theorem modCore_now (s : State) (n : Nat) (f : Core → Core) : (s.modCore n f).now = s.now := rfl
@[simp] theorem modCore_timeBase (s : State) (n : Nat) (f : Core → Core) : (s.modCore n f).timeBase = s.timeBase := rfl
@[simp] theorem modCore_pkgIdx (s : State) (n : Nat) (f : Core → Core) : (s.modCore n f).pkgIdx = s.pkgIdx := rfl
@[simp] theorem modCore_ctxs (s : State) (n : Nat) (f : Core → Core) : (s.modCore n f).ctxs = s.ctxs := rfl
@[simp] theorem modCore_cores (s : State) (n : Nat) (f : Core → Core) : (s.modCore n f).cores = tabSet s.cores n (f (s.core n)) := rfl
@[simp] theorem modCore_chans (s : State) (n : Nat) (f : Core → Core) : (s.modCore n f).chans = s.chans := rfl
@[simp] theorem modCore_regions (s : State) (n : Nat) (f : Core → Core) : (s.modCore n f).regions = s.regions := rfl
@[simp] theorem modCore_ops (s : State) (n : Nat) (f : Core → Core) : (s.modCore n f).ops = s.ops := rfl
@[simp] theorem modCore_barriers (s : State) (n : Nat) (f : Core → Core) : (s.modCore n f).barriers = s.barriers := rfl
@[simp] theorem modCore_groups (s : State) (n : Nat) (f : Core → Core) : (s.modCore n f).groups = s.groups := rfl
@[simp] theorem modCore_mail (s : State) (n : Nat) (f : Core → Core) : (s.modCore n f).mail = s.mail := rfl
@[simp] theorem modCore_flights (s : State) (n : Nat) (f : Core → Core) : (s.modCore n f).flights = s.flights := rfl
@[simp] theorem modCore_mem (s : State) (n : Nat) (f : Core → Core) : (s.modCore n f).mem = s.mem := rfl
@[simp] theorem modCore_sems (s : State) (n : Nat) (f : Core → Core) : (s.modCore n f).sems = s.sems := rfl
@[simp] theorem modCore_armed (s : State) (n : Nat) (f : Core → Core) : (s.modCore n f).armed = s.armed := rfl
@[simp] theorem modCore_jobs (s : State) (n : Nat) (f : Core → Core) : (s.modCore n f).jobs = s.jobs := rfl
@[simp] theorem modCore_deadTags (s : State) (n : Nat) (f : Core → Core) : (s.modCore n f).deadTags = s.deadTags := rfl
@[simp] theorem modCore_kills (s : State) (n : Nat) (f : Core → Core) : (s.modCore n f).kills = s.kills := rfl
@[simp] theorem modCore_switch (s : State) (n : Nat) (f : Core → Core) : (s.modCore n f).switch = s.switch := rfl
@[simp] theorem modCore_saved (s : State) (n : Nat) (f : Core → Core) : (s.modCore n f).saved = s.saved := rfl
@[simp] theorem modCore_savedInbox (s : State) (n : Nat) (f : Core → Core) : (s.modCore n f).savedInbox = s.savedInbox := rfl
@[simp] theorem modCore_photonic (s : State) (n : Nat) (f : Core → Core) : (s.modCore n f).photonic = s.photonic := rfl
@[simp] theorem modCore_fabric (s : State) (n : Nat) (f : Core → Core) : (s.modCore n f).fabric = s.fabric := rfl
@[simp] theorem modCore_dev (s : State) (n : Nat) (f : Core → Core) : (s.modCore n f).dev = s.dev := rfl

@[simp] theorem modChan_sched (s : State) (n c : Nat) (f : Chan → Chan) : (s.modChan n c f).sched = s.sched := rfl
@[simp] theorem modChan_now (s : State) (n c : Nat) (f : Chan → Chan) : (s.modChan n c f).now = s.now := rfl
@[simp] theorem modChan_timeBase (s : State) (n c : Nat) (f : Chan → Chan) : (s.modChan n c f).timeBase = s.timeBase := rfl
@[simp] theorem modChan_pkgIdx (s : State) (n c : Nat) (f : Chan → Chan) : (s.modChan n c f).pkgIdx = s.pkgIdx := rfl
@[simp] theorem modChan_ctxs (s : State) (n c : Nat) (f : Chan → Chan) : (s.modChan n c f).ctxs = s.ctxs := rfl
@[simp] theorem modChan_cores (s : State) (n c : Nat) (f : Chan → Chan) : (s.modChan n c f).cores = s.cores := rfl
@[simp] theorem modChan_chans (s : State) (n c : Nat) (f : Chan → Chan) : (s.modChan n c f).chans = tabSet s.chans (n * 64 + c) (f (s.chan n c)) := rfl
@[simp] theorem modChan_regions (s : State) (n c : Nat) (f : Chan → Chan) : (s.modChan n c f).regions = s.regions := rfl
@[simp] theorem modChan_ops (s : State) (n c : Nat) (f : Chan → Chan) : (s.modChan n c f).ops = s.ops := rfl
@[simp] theorem modChan_barriers (s : State) (n c : Nat) (f : Chan → Chan) : (s.modChan n c f).barriers = s.barriers := rfl
@[simp] theorem modChan_groups (s : State) (n c : Nat) (f : Chan → Chan) : (s.modChan n c f).groups = s.groups := rfl
@[simp] theorem modChan_mail (s : State) (n c : Nat) (f : Chan → Chan) : (s.modChan n c f).mail = s.mail := rfl
@[simp] theorem modChan_flights (s : State) (n c : Nat) (f : Chan → Chan) : (s.modChan n c f).flights = s.flights := rfl
@[simp] theorem modChan_mem (s : State) (n c : Nat) (f : Chan → Chan) : (s.modChan n c f).mem = s.mem := rfl
@[simp] theorem modChan_sems (s : State) (n c : Nat) (f : Chan → Chan) : (s.modChan n c f).sems = s.sems := rfl
@[simp] theorem modChan_armed (s : State) (n c : Nat) (f : Chan → Chan) : (s.modChan n c f).armed = s.armed := rfl
@[simp] theorem modChan_jobs (s : State) (n c : Nat) (f : Chan → Chan) : (s.modChan n c f).jobs = s.jobs := rfl
@[simp] theorem modChan_deadTags (s : State) (n c : Nat) (f : Chan → Chan) : (s.modChan n c f).deadTags = s.deadTags := rfl
@[simp] theorem modChan_kills (s : State) (n c : Nat) (f : Chan → Chan) : (s.modChan n c f).kills = s.kills := rfl
@[simp] theorem modChan_switch (s : State) (n c : Nat) (f : Chan → Chan) : (s.modChan n c f).switch = s.switch := rfl
@[simp] theorem modChan_saved (s : State) (n c : Nat) (f : Chan → Chan) : (s.modChan n c f).saved = s.saved := rfl
@[simp] theorem modChan_savedInbox (s : State) (n c : Nat) (f : Chan → Chan) : (s.modChan n c f).savedInbox = s.savedInbox := rfl
@[simp] theorem modChan_photonic (s : State) (n c : Nat) (f : Chan → Chan) : (s.modChan n c f).photonic = s.photonic := rfl
@[simp] theorem modChan_fabric (s : State) (n c : Nat) (f : Chan → Chan) : (s.modChan n c f).fabric = s.fabric := rfl
@[simp] theorem modChan_dev (s : State) (n c : Nat) (f : Chan → Chan) : (s.modChan n c f).dev = s.dev := rfl

@[simp] theorem setRegion_sched (s : State) (n i : Nat) (r : Region) : (s.setRegion n i r).sched = s.sched := rfl
@[simp] theorem setRegion_now (s : State) (n i : Nat) (r : Region) : (s.setRegion n i r).now = s.now := rfl
@[simp] theorem setRegion_timeBase (s : State) (n i : Nat) (r : Region) : (s.setRegion n i r).timeBase = s.timeBase := rfl
@[simp] theorem setRegion_pkgIdx (s : State) (n i : Nat) (r : Region) : (s.setRegion n i r).pkgIdx = s.pkgIdx := rfl
@[simp] theorem setRegion_ctxs (s : State) (n i : Nat) (r : Region) : (s.setRegion n i r).ctxs = s.ctxs := rfl
@[simp] theorem setRegion_cores (s : State) (n i : Nat) (r : Region) : (s.setRegion n i r).cores = s.cores := rfl
@[simp] theorem setRegion_chans (s : State) (n i : Nat) (r : Region) : (s.setRegion n i r).chans = s.chans := rfl
@[simp] theorem setRegion_regions (s : State) (n i : Nat) (r : Region) : (s.setRegion n i r).regions = tabSet s.regions (n * 32 + i) r := rfl
@[simp] theorem setRegion_ops (s : State) (n i : Nat) (r : Region) : (s.setRegion n i r).ops = s.ops := rfl
@[simp] theorem setRegion_barriers (s : State) (n i : Nat) (r : Region) : (s.setRegion n i r).barriers = s.barriers := rfl
@[simp] theorem setRegion_groups (s : State) (n i : Nat) (r : Region) : (s.setRegion n i r).groups = s.groups := rfl
@[simp] theorem setRegion_mail (s : State) (n i : Nat) (r : Region) : (s.setRegion n i r).mail = s.mail := rfl
@[simp] theorem setRegion_flights (s : State) (n i : Nat) (r : Region) : (s.setRegion n i r).flights = s.flights := rfl
@[simp] theorem setRegion_mem (s : State) (n i : Nat) (r : Region) : (s.setRegion n i r).mem = s.mem := rfl
@[simp] theorem setRegion_sems (s : State) (n i : Nat) (r : Region) : (s.setRegion n i r).sems = s.sems := rfl
@[simp] theorem setRegion_armed (s : State) (n i : Nat) (r : Region) : (s.setRegion n i r).armed = s.armed := rfl
@[simp] theorem setRegion_jobs (s : State) (n i : Nat) (r : Region) : (s.setRegion n i r).jobs = s.jobs := rfl
@[simp] theorem setRegion_deadTags (s : State) (n i : Nat) (r : Region) : (s.setRegion n i r).deadTags = s.deadTags := rfl
@[simp] theorem setRegion_kills (s : State) (n i : Nat) (r : Region) : (s.setRegion n i r).kills = s.kills := rfl
@[simp] theorem setRegion_switch (s : State) (n i : Nat) (r : Region) : (s.setRegion n i r).switch = s.switch := rfl
@[simp] theorem setRegion_saved (s : State) (n i : Nat) (r : Region) : (s.setRegion n i r).saved = s.saved := rfl
@[simp] theorem setRegion_savedInbox (s : State) (n i : Nat) (r : Region) : (s.setRegion n i r).savedInbox = s.savedInbox := rfl
@[simp] theorem setRegion_photonic (s : State) (n i : Nat) (r : Region) : (s.setRegion n i r).photonic = s.photonic := rfl
@[simp] theorem setRegion_fabric (s : State) (n i : Nat) (r : Region) : (s.setRegion n i r).fabric = s.fabric := rfl
@[simp] theorem setRegion_dev (s : State) (n i : Nat) (r : Region) : (s.setRegion n i r).dev = s.dev := rfl

@[simp] theorem setOp_sched (s : State) (n i : Nat) (o : Op) : (s.setOp n i o).sched = s.sched := rfl
@[simp] theorem setOp_now (s : State) (n i : Nat) (o : Op) : (s.setOp n i o).now = s.now := rfl
@[simp] theorem setOp_timeBase (s : State) (n i : Nat) (o : Op) : (s.setOp n i o).timeBase = s.timeBase := rfl
@[simp] theorem setOp_pkgIdx (s : State) (n i : Nat) (o : Op) : (s.setOp n i o).pkgIdx = s.pkgIdx := rfl
@[simp] theorem setOp_ctxs (s : State) (n i : Nat) (o : Op) : (s.setOp n i o).ctxs = s.ctxs := rfl
@[simp] theorem setOp_cores (s : State) (n i : Nat) (o : Op) : (s.setOp n i o).cores = s.cores := rfl
@[simp] theorem setOp_chans (s : State) (n i : Nat) (o : Op) : (s.setOp n i o).chans = s.chans := rfl
@[simp] theorem setOp_regions (s : State) (n i : Nat) (o : Op) : (s.setOp n i o).regions = s.regions := rfl
@[simp] theorem setOp_ops (s : State) (n i : Nat) (o : Op) : (s.setOp n i o).ops = tabSet s.ops (n * 128 + i) o := rfl
@[simp] theorem setOp_barriers (s : State) (n i : Nat) (o : Op) : (s.setOp n i o).barriers = s.barriers := rfl
@[simp] theorem setOp_groups (s : State) (n i : Nat) (o : Op) : (s.setOp n i o).groups = s.groups := rfl
@[simp] theorem setOp_mail (s : State) (n i : Nat) (o : Op) : (s.setOp n i o).mail = s.mail := rfl
@[simp] theorem setOp_flights (s : State) (n i : Nat) (o : Op) : (s.setOp n i o).flights = s.flights := rfl
@[simp] theorem setOp_mem (s : State) (n i : Nat) (o : Op) : (s.setOp n i o).mem = s.mem := rfl
@[simp] theorem setOp_sems (s : State) (n i : Nat) (o : Op) : (s.setOp n i o).sems = s.sems := rfl
@[simp] theorem setOp_armed (s : State) (n i : Nat) (o : Op) : (s.setOp n i o).armed = s.armed := rfl
@[simp] theorem setOp_jobs (s : State) (n i : Nat) (o : Op) : (s.setOp n i o).jobs = s.jobs := rfl
@[simp] theorem setOp_deadTags (s : State) (n i : Nat) (o : Op) : (s.setOp n i o).deadTags = s.deadTags := rfl
@[simp] theorem setOp_kills (s : State) (n i : Nat) (o : Op) : (s.setOp n i o).kills = s.kills := rfl
@[simp] theorem setOp_switch (s : State) (n i : Nat) (o : Op) : (s.setOp n i o).switch = s.switch := rfl
@[simp] theorem setOp_saved (s : State) (n i : Nat) (o : Op) : (s.setOp n i o).saved = s.saved := rfl
@[simp] theorem setOp_savedInbox (s : State) (n i : Nat) (o : Op) : (s.setOp n i o).savedInbox = s.savedInbox := rfl
@[simp] theorem setOp_photonic (s : State) (n i : Nat) (o : Op) : (s.setOp n i o).photonic = s.photonic := rfl
@[simp] theorem setOp_fabric (s : State) (n i : Nat) (o : Op) : (s.setOp n i o).fabric = s.fabric := rfl
@[simp] theorem setOp_dev (s : State) (n i : Nat) (o : Op) : (s.setOp n i o).dev = s.dev := rfl

@[simp] theorem modOp_sched (s : State) (n i : Nat) (f : Op → Op) : (s.modOp n i f).sched = s.sched := rfl
@[simp] theorem modOp_now (s : State) (n i : Nat) (f : Op → Op) : (s.modOp n i f).now = s.now := rfl
@[simp] theorem modOp_timeBase (s : State) (n i : Nat) (f : Op → Op) : (s.modOp n i f).timeBase = s.timeBase := rfl
@[simp] theorem modOp_pkgIdx (s : State) (n i : Nat) (f : Op → Op) : (s.modOp n i f).pkgIdx = s.pkgIdx := rfl
@[simp] theorem modOp_ctxs (s : State) (n i : Nat) (f : Op → Op) : (s.modOp n i f).ctxs = s.ctxs := rfl
@[simp] theorem modOp_cores (s : State) (n i : Nat) (f : Op → Op) : (s.modOp n i f).cores = s.cores := rfl
@[simp] theorem modOp_chans (s : State) (n i : Nat) (f : Op → Op) : (s.modOp n i f).chans = s.chans := rfl
@[simp] theorem modOp_regions (s : State) (n i : Nat) (f : Op → Op) : (s.modOp n i f).regions = s.regions := rfl
@[simp] theorem modOp_ops (s : State) (n i : Nat) (f : Op → Op) : (s.modOp n i f).ops = tabSet s.ops (n * 128 + i) (f (s.op n i)) := rfl
@[simp] theorem modOp_barriers (s : State) (n i : Nat) (f : Op → Op) : (s.modOp n i f).barriers = s.barriers := rfl
@[simp] theorem modOp_groups (s : State) (n i : Nat) (f : Op → Op) : (s.modOp n i f).groups = s.groups := rfl
@[simp] theorem modOp_mail (s : State) (n i : Nat) (f : Op → Op) : (s.modOp n i f).mail = s.mail := rfl
@[simp] theorem modOp_flights (s : State) (n i : Nat) (f : Op → Op) : (s.modOp n i f).flights = s.flights := rfl
@[simp] theorem modOp_mem (s : State) (n i : Nat) (f : Op → Op) : (s.modOp n i f).mem = s.mem := rfl
@[simp] theorem modOp_sems (s : State) (n i : Nat) (f : Op → Op) : (s.modOp n i f).sems = s.sems := rfl
@[simp] theorem modOp_armed (s : State) (n i : Nat) (f : Op → Op) : (s.modOp n i f).armed = s.armed := rfl
@[simp] theorem modOp_jobs (s : State) (n i : Nat) (f : Op → Op) : (s.modOp n i f).jobs = s.jobs := rfl
@[simp] theorem modOp_deadTags (s : State) (n i : Nat) (f : Op → Op) : (s.modOp n i f).deadTags = s.deadTags := rfl
@[simp] theorem modOp_kills (s : State) (n i : Nat) (f : Op → Op) : (s.modOp n i f).kills = s.kills := rfl
@[simp] theorem modOp_switch (s : State) (n i : Nat) (f : Op → Op) : (s.modOp n i f).switch = s.switch := rfl
@[simp] theorem modOp_saved (s : State) (n i : Nat) (f : Op → Op) : (s.modOp n i f).saved = s.saved := rfl
@[simp] theorem modOp_savedInbox (s : State) (n i : Nat) (f : Op → Op) : (s.modOp n i f).savedInbox = s.savedInbox := rfl
@[simp] theorem modOp_photonic (s : State) (n i : Nat) (f : Op → Op) : (s.modOp n i f).photonic = s.photonic := rfl
@[simp] theorem modOp_fabric (s : State) (n i : Nat) (f : Op → Op) : (s.modOp n i f).fabric = s.fabric := rfl
@[simp] theorem modOp_dev (s : State) (n i : Nat) (f : Op → Op) : (s.modOp n i f).dev = s.dev := rfl

@[simp] theorem setBar_sched (s : State) (k : Nat) (b : Barrier) : (s.setBar k b).sched = s.sched := rfl
@[simp] theorem setBar_now (s : State) (k : Nat) (b : Barrier) : (s.setBar k b).now = s.now := rfl
@[simp] theorem setBar_timeBase (s : State) (k : Nat) (b : Barrier) : (s.setBar k b).timeBase = s.timeBase := rfl
@[simp] theorem setBar_pkgIdx (s : State) (k : Nat) (b : Barrier) : (s.setBar k b).pkgIdx = s.pkgIdx := rfl
@[simp] theorem setBar_ctxs (s : State) (k : Nat) (b : Barrier) : (s.setBar k b).ctxs = s.ctxs := rfl
@[simp] theorem setBar_cores (s : State) (k : Nat) (b : Barrier) : (s.setBar k b).cores = s.cores := rfl
@[simp] theorem setBar_chans (s : State) (k : Nat) (b : Barrier) : (s.setBar k b).chans = s.chans := rfl
@[simp] theorem setBar_regions (s : State) (k : Nat) (b : Barrier) : (s.setBar k b).regions = s.regions := rfl
@[simp] theorem setBar_ops (s : State) (k : Nat) (b : Barrier) : (s.setBar k b).ops = s.ops := rfl
@[simp] theorem setBar_barriers (s : State) (k : Nat) (b : Barrier) : (s.setBar k b).barriers = tabSet s.barriers k b := rfl
@[simp] theorem setBar_groups (s : State) (k : Nat) (b : Barrier) : (s.setBar k b).groups = s.groups := rfl
@[simp] theorem setBar_mail (s : State) (k : Nat) (b : Barrier) : (s.setBar k b).mail = s.mail := rfl
@[simp] theorem setBar_flights (s : State) (k : Nat) (b : Barrier) : (s.setBar k b).flights = s.flights := rfl
@[simp] theorem setBar_mem (s : State) (k : Nat) (b : Barrier) : (s.setBar k b).mem = s.mem := rfl
@[simp] theorem setBar_sems (s : State) (k : Nat) (b : Barrier) : (s.setBar k b).sems = s.sems := rfl
@[simp] theorem setBar_armed (s : State) (k : Nat) (b : Barrier) : (s.setBar k b).armed = s.armed := rfl
@[simp] theorem setBar_jobs (s : State) (k : Nat) (b : Barrier) : (s.setBar k b).jobs = s.jobs := rfl
@[simp] theorem setBar_deadTags (s : State) (k : Nat) (b : Barrier) : (s.setBar k b).deadTags = s.deadTags := rfl
@[simp] theorem setBar_kills (s : State) (k : Nat) (b : Barrier) : (s.setBar k b).kills = s.kills := rfl
@[simp] theorem setBar_switch (s : State) (k : Nat) (b : Barrier) : (s.setBar k b).switch = s.switch := rfl
@[simp] theorem setBar_saved (s : State) (k : Nat) (b : Barrier) : (s.setBar k b).saved = s.saved := rfl
@[simp] theorem setBar_savedInbox (s : State) (k : Nat) (b : Barrier) : (s.setBar k b).savedInbox = s.savedInbox := rfl
@[simp] theorem setBar_photonic (s : State) (k : Nat) (b : Barrier) : (s.setBar k b).photonic = s.photonic := rfl
@[simp] theorem setBar_fabric (s : State) (k : Nat) (b : Barrier) : (s.setBar k b).fabric = s.fabric := rfl
@[simp] theorem setBar_dev (s : State) (k : Nat) (b : Barrier) : (s.setBar k b).dev = s.dev := rfl

@[simp] theorem setGroup_sched (s : State) (g : Nat) (x : Group) : (s.setGroup g x).sched = s.sched := rfl
@[simp] theorem setGroup_now (s : State) (g : Nat) (x : Group) : (s.setGroup g x).now = s.now := rfl
@[simp] theorem setGroup_timeBase (s : State) (g : Nat) (x : Group) : (s.setGroup g x).timeBase = s.timeBase := rfl
@[simp] theorem setGroup_pkgIdx (s : State) (g : Nat) (x : Group) : (s.setGroup g x).pkgIdx = s.pkgIdx := rfl
@[simp] theorem setGroup_ctxs (s : State) (g : Nat) (x : Group) : (s.setGroup g x).ctxs = s.ctxs := rfl
@[simp] theorem setGroup_cores (s : State) (g : Nat) (x : Group) : (s.setGroup g x).cores = s.cores := rfl
@[simp] theorem setGroup_chans (s : State) (g : Nat) (x : Group) : (s.setGroup g x).chans = s.chans := rfl
@[simp] theorem setGroup_regions (s : State) (g : Nat) (x : Group) : (s.setGroup g x).regions = s.regions := rfl
@[simp] theorem setGroup_ops (s : State) (g : Nat) (x : Group) : (s.setGroup g x).ops = s.ops := rfl
@[simp] theorem setGroup_barriers (s : State) (g : Nat) (x : Group) : (s.setGroup g x).barriers = s.barriers := rfl
@[simp] theorem setGroup_groups (s : State) (g : Nat) (x : Group) : (s.setGroup g x).groups = tabSet s.groups g x := rfl
@[simp] theorem setGroup_mail (s : State) (g : Nat) (x : Group) : (s.setGroup g x).mail = s.mail := rfl
@[simp] theorem setGroup_flights (s : State) (g : Nat) (x : Group) : (s.setGroup g x).flights = s.flights := rfl
@[simp] theorem setGroup_mem (s : State) (g : Nat) (x : Group) : (s.setGroup g x).mem = s.mem := rfl
@[simp] theorem setGroup_sems (s : State) (g : Nat) (x : Group) : (s.setGroup g x).sems = s.sems := rfl
@[simp] theorem setGroup_armed (s : State) (g : Nat) (x : Group) : (s.setGroup g x).armed = s.armed := rfl
@[simp] theorem setGroup_jobs (s : State) (g : Nat) (x : Group) : (s.setGroup g x).jobs = s.jobs := rfl
@[simp] theorem setGroup_deadTags (s : State) (g : Nat) (x : Group) : (s.setGroup g x).deadTags = s.deadTags := rfl
@[simp] theorem setGroup_kills (s : State) (g : Nat) (x : Group) : (s.setGroup g x).kills = s.kills := rfl
@[simp] theorem setGroup_switch (s : State) (g : Nat) (x : Group) : (s.setGroup g x).switch = s.switch := rfl
@[simp] theorem setGroup_saved (s : State) (g : Nat) (x : Group) : (s.setGroup g x).saved = s.saved := rfl
@[simp] theorem setGroup_savedInbox (s : State) (g : Nat) (x : Group) : (s.setGroup g x).savedInbox = s.savedInbox := rfl
@[simp] theorem setGroup_photonic (s : State) (g : Nat) (x : Group) : (s.setGroup g x).photonic = s.photonic := rfl
@[simp] theorem setGroup_fabric (s : State) (g : Nat) (x : Group) : (s.setGroup g x).fabric = s.fabric := rfl
@[simp] theorem setGroup_dev (s : State) (g : Nat) (x : Group) : (s.setGroup g x).dev = s.dev := rfl

@[simp] theorem modMem_sched (s : State) (f : Mem → Mem) : (s.modMem f).sched = s.sched := rfl
@[simp] theorem modMem_now (s : State) (f : Mem → Mem) : (s.modMem f).now = s.now := rfl
@[simp] theorem modMem_timeBase (s : State) (f : Mem → Mem) : (s.modMem f).timeBase = s.timeBase := rfl
@[simp] theorem modMem_pkgIdx (s : State) (f : Mem → Mem) : (s.modMem f).pkgIdx = s.pkgIdx := rfl
@[simp] theorem modMem_ctxs (s : State) (f : Mem → Mem) : (s.modMem f).ctxs = s.ctxs := rfl
@[simp] theorem modMem_cores (s : State) (f : Mem → Mem) : (s.modMem f).cores = s.cores := rfl
@[simp] theorem modMem_chans (s : State) (f : Mem → Mem) : (s.modMem f).chans = s.chans := rfl
@[simp] theorem modMem_regions (s : State) (f : Mem → Mem) : (s.modMem f).regions = s.regions := rfl
@[simp] theorem modMem_ops (s : State) (f : Mem → Mem) : (s.modMem f).ops = s.ops := rfl
@[simp] theorem modMem_barriers (s : State) (f : Mem → Mem) : (s.modMem f).barriers = s.barriers := rfl
@[simp] theorem modMem_groups (s : State) (f : Mem → Mem) : (s.modMem f).groups = s.groups := rfl
@[simp] theorem modMem_mail (s : State) (f : Mem → Mem) : (s.modMem f).mail = s.mail := rfl
@[simp] theorem modMem_flights (s : State) (f : Mem → Mem) : (s.modMem f).flights = s.flights := rfl
@[simp] theorem modMem_mem (s : State) (f : Mem → Mem) : (s.modMem f).mem = f s.mem := rfl
@[simp] theorem modMem_sems (s : State) (f : Mem → Mem) : (s.modMem f).sems = s.sems := rfl
@[simp] theorem modMem_armed (s : State) (f : Mem → Mem) : (s.modMem f).armed = s.armed := rfl
@[simp] theorem modMem_jobs (s : State) (f : Mem → Mem) : (s.modMem f).jobs = s.jobs := rfl
@[simp] theorem modMem_deadTags (s : State) (f : Mem → Mem) : (s.modMem f).deadTags = s.deadTags := rfl
@[simp] theorem modMem_kills (s : State) (f : Mem → Mem) : (s.modMem f).kills = s.kills := rfl
@[simp] theorem modMem_switch (s : State) (f : Mem → Mem) : (s.modMem f).switch = s.switch := rfl
@[simp] theorem modMem_saved (s : State) (f : Mem → Mem) : (s.modMem f).saved = s.saved := rfl
@[simp] theorem modMem_savedInbox (s : State) (f : Mem → Mem) : (s.modMem f).savedInbox = s.savedInbox := rfl
@[simp] theorem modMem_photonic (s : State) (f : Mem → Mem) : (s.modMem f).photonic = s.photonic := rfl
@[simp] theorem modMem_fabric (s : State) (f : Mem → Mem) : (s.modMem f).fabric = s.fabric := rfl
@[simp] theorem modMem_dev (s : State) (f : Mem → Mem) : (s.modMem f).dev = s.dev := rfl

@[simp] theorem modDev_sched (s : State) (f : Device → Device) : (s.modDev f).sched = s.sched := rfl
@[simp] theorem modDev_now (s : State) (f : Device → Device) : (s.modDev f).now = s.now := rfl
@[simp] theorem modDev_timeBase (s : State) (f : Device → Device) : (s.modDev f).timeBase = s.timeBase := rfl
@[simp] theorem modDev_pkgIdx (s : State) (f : Device → Device) : (s.modDev f).pkgIdx = s.pkgIdx := rfl
@[simp] theorem modDev_ctxs (s : State) (f : Device → Device) : (s.modDev f).ctxs = s.ctxs := rfl
@[simp] theorem modDev_cores (s : State) (f : Device → Device) : (s.modDev f).cores = s.cores := rfl
@[simp] theorem modDev_chans (s : State) (f : Device → Device) : (s.modDev f).chans = s.chans := rfl
@[simp] theorem modDev_regions (s : State) (f : Device → Device) : (s.modDev f).regions = s.regions := rfl
@[simp] theorem modDev_ops (s : State) (f : Device → Device) : (s.modDev f).ops = s.ops := rfl
@[simp] theorem modDev_barriers (s : State) (f : Device → Device) : (s.modDev f).barriers = s.barriers := rfl
@[simp] theorem modDev_groups (s : State) (f : Device → Device) : (s.modDev f).groups = s.groups := rfl
@[simp] theorem modDev_mail (s : State) (f : Device → Device) : (s.modDev f).mail = s.mail := rfl
@[simp] theorem modDev_flights (s : State) (f : Device → Device) : (s.modDev f).flights = s.flights := rfl
@[simp] theorem modDev_mem (s : State) (f : Device → Device) : (s.modDev f).mem = s.mem := rfl
@[simp] theorem modDev_sems (s : State) (f : Device → Device) : (s.modDev f).sems = s.sems := rfl
@[simp] theorem modDev_armed (s : State) (f : Device → Device) : (s.modDev f).armed = s.armed := rfl
@[simp] theorem modDev_jobs (s : State) (f : Device → Device) : (s.modDev f).jobs = s.jobs := rfl
@[simp] theorem modDev_deadTags (s : State) (f : Device → Device) : (s.modDev f).deadTags = s.deadTags := rfl
@[simp] theorem modDev_kills (s : State) (f : Device → Device) : (s.modDev f).kills = s.kills := rfl
@[simp] theorem modDev_switch (s : State) (f : Device → Device) : (s.modDev f).switch = s.switch := rfl
@[simp] theorem modDev_saved (s : State) (f : Device → Device) : (s.modDev f).saved = s.saved := rfl
@[simp] theorem modDev_savedInbox (s : State) (f : Device → Device) : (s.modDev f).savedInbox = s.savedInbox := rfl
@[simp] theorem modDev_photonic (s : State) (f : Device → Device) : (s.modDev f).photonic = s.photonic := rfl
@[simp] theorem modDev_fabric (s : State) (f : Device → Device) : (s.modDev f).fabric = s.fabric := rfl
@[simp] theorem modDev_dev (s : State) (f : Device → Device) : (s.modDev f).dev = f s.dev := rfl

@[simp] theorem modPh_sched (s : State) (f : Photonic → Photonic) : (s.modPh f).sched = s.sched := rfl
@[simp] theorem modPh_now (s : State) (f : Photonic → Photonic) : (s.modPh f).now = s.now := rfl
@[simp] theorem modPh_timeBase (s : State) (f : Photonic → Photonic) : (s.modPh f).timeBase = s.timeBase := rfl
@[simp] theorem modPh_pkgIdx (s : State) (f : Photonic → Photonic) : (s.modPh f).pkgIdx = s.pkgIdx := rfl
@[simp] theorem modPh_ctxs (s : State) (f : Photonic → Photonic) : (s.modPh f).ctxs = s.ctxs := rfl
@[simp] theorem modPh_cores (s : State) (f : Photonic → Photonic) : (s.modPh f).cores = s.cores := rfl
@[simp] theorem modPh_chans (s : State) (f : Photonic → Photonic) : (s.modPh f).chans = s.chans := rfl
@[simp] theorem modPh_regions (s : State) (f : Photonic → Photonic) : (s.modPh f).regions = s.regions := rfl
@[simp] theorem modPh_ops (s : State) (f : Photonic → Photonic) : (s.modPh f).ops = s.ops := rfl
@[simp] theorem modPh_barriers (s : State) (f : Photonic → Photonic) : (s.modPh f).barriers = s.barriers := rfl
@[simp] theorem modPh_groups (s : State) (f : Photonic → Photonic) : (s.modPh f).groups = s.groups := rfl
@[simp] theorem modPh_mail (s : State) (f : Photonic → Photonic) : (s.modPh f).mail = s.mail := rfl
@[simp] theorem modPh_flights (s : State) (f : Photonic → Photonic) : (s.modPh f).flights = s.flights := rfl
@[simp] theorem modPh_mem (s : State) (f : Photonic → Photonic) : (s.modPh f).mem = s.mem := rfl
@[simp] theorem modPh_sems (s : State) (f : Photonic → Photonic) : (s.modPh f).sems = s.sems := rfl
@[simp] theorem modPh_armed (s : State) (f : Photonic → Photonic) : (s.modPh f).armed = s.armed := rfl
@[simp] theorem modPh_jobs (s : State) (f : Photonic → Photonic) : (s.modPh f).jobs = s.jobs := rfl
@[simp] theorem modPh_deadTags (s : State) (f : Photonic → Photonic) : (s.modPh f).deadTags = s.deadTags := rfl
@[simp] theorem modPh_kills (s : State) (f : Photonic → Photonic) : (s.modPh f).kills = s.kills := rfl
@[simp] theorem modPh_switch (s : State) (f : Photonic → Photonic) : (s.modPh f).switch = s.switch := rfl
@[simp] theorem modPh_saved (s : State) (f : Photonic → Photonic) : (s.modPh f).saved = s.saved := rfl
@[simp] theorem modPh_savedInbox (s : State) (f : Photonic → Photonic) : (s.modPh f).savedInbox = s.savedInbox := rfl
@[simp] theorem modPh_photonic (s : State) (f : Photonic → Photonic) : (s.modPh f).photonic = f s.photonic := rfl
@[simp] theorem modPh_fabric (s : State) (f : Photonic → Photonic) : (s.modPh f).fabric = s.fabric := rfl
@[simp] theorem modPh_dev (s : State) (f : Photonic → Photonic) : (s.modPh f).dev = s.dev := rfl

@[simp] theorem modFab_sched (s : State) (f : Fabric → Fabric) : (s.modFab f).sched = s.sched := rfl
@[simp] theorem modFab_now (s : State) (f : Fabric → Fabric) : (s.modFab f).now = s.now := rfl
@[simp] theorem modFab_timeBase (s : State) (f : Fabric → Fabric) : (s.modFab f).timeBase = s.timeBase := rfl
@[simp] theorem modFab_pkgIdx (s : State) (f : Fabric → Fabric) : (s.modFab f).pkgIdx = s.pkgIdx := rfl
@[simp] theorem modFab_ctxs (s : State) (f : Fabric → Fabric) : (s.modFab f).ctxs = s.ctxs := rfl
@[simp] theorem modFab_cores (s : State) (f : Fabric → Fabric) : (s.modFab f).cores = s.cores := rfl
@[simp] theorem modFab_chans (s : State) (f : Fabric → Fabric) : (s.modFab f).chans = s.chans := rfl
@[simp] theorem modFab_regions (s : State) (f : Fabric → Fabric) : (s.modFab f).regions = s.regions := rfl
@[simp] theorem modFab_ops (s : State) (f : Fabric → Fabric) : (s.modFab f).ops = s.ops := rfl
@[simp] theorem modFab_barriers (s : State) (f : Fabric → Fabric) : (s.modFab f).barriers = s.barriers := rfl
@[simp] theorem modFab_groups (s : State) (f : Fabric → Fabric) : (s.modFab f).groups = s.groups := rfl
@[simp] theorem modFab_mail (s : State) (f : Fabric → Fabric) : (s.modFab f).mail = s.mail := rfl
@[simp] theorem modFab_flights (s : State) (f : Fabric → Fabric) : (s.modFab f).flights = s.flights := rfl
@[simp] theorem modFab_mem (s : State) (f : Fabric → Fabric) : (s.modFab f).mem = s.mem := rfl
@[simp] theorem modFab_sems (s : State) (f : Fabric → Fabric) : (s.modFab f).sems = s.sems := rfl
@[simp] theorem modFab_armed (s : State) (f : Fabric → Fabric) : (s.modFab f).armed = s.armed := rfl
@[simp] theorem modFab_jobs (s : State) (f : Fabric → Fabric) : (s.modFab f).jobs = s.jobs := rfl
@[simp] theorem modFab_deadTags (s : State) (f : Fabric → Fabric) : (s.modFab f).deadTags = s.deadTags := rfl
@[simp] theorem modFab_kills (s : State) (f : Fabric → Fabric) : (s.modFab f).kills = s.kills := rfl
@[simp] theorem modFab_switch (s : State) (f : Fabric → Fabric) : (s.modFab f).switch = s.switch := rfl
@[simp] theorem modFab_saved (s : State) (f : Fabric → Fabric) : (s.modFab f).saved = s.saved := rfl
@[simp] theorem modFab_savedInbox (s : State) (f : Fabric → Fabric) : (s.modFab f).savedInbox = s.savedInbox := rfl
@[simp] theorem modFab_photonic (s : State) (f : Fabric → Fabric) : (s.modFab f).photonic = s.photonic := rfl
@[simp] theorem modFab_fabric (s : State) (f : Fabric → Fabric) : (s.modFab f).fabric = f s.fabric := rfl
@[simp] theorem modFab_dev (s : State) (f : Fabric → Fabric) : (s.modFab f).dev = s.dev := rfl

@[simp] theorem modEngine_sched (s : State) (e : Nat) (f : Engine → Engine) : (s.modEngine e f).sched = s.sched := rfl
@[simp] theorem modEngine_now (s : State) (e : Nat) (f : Engine → Engine) : (s.modEngine e f).now = s.now := rfl
@[simp] theorem modEngine_timeBase (s : State) (e : Nat) (f : Engine → Engine) : (s.modEngine e f).timeBase = s.timeBase := rfl
@[simp] theorem modEngine_pkgIdx (s : State) (e : Nat) (f : Engine → Engine) : (s.modEngine e f).pkgIdx = s.pkgIdx := rfl
@[simp] theorem modEngine_ctxs (s : State) (e : Nat) (f : Engine → Engine) : (s.modEngine e f).ctxs = s.ctxs := rfl
@[simp] theorem modEngine_cores (s : State) (e : Nat) (f : Engine → Engine) : (s.modEngine e f).cores = s.cores := rfl
@[simp] theorem modEngine_chans (s : State) (e : Nat) (f : Engine → Engine) : (s.modEngine e f).chans = s.chans := rfl
@[simp] theorem modEngine_regions (s : State) (e : Nat) (f : Engine → Engine) : (s.modEngine e f).regions = s.regions := rfl
@[simp] theorem modEngine_ops (s : State) (e : Nat) (f : Engine → Engine) : (s.modEngine e f).ops = s.ops := rfl
@[simp] theorem modEngine_barriers (s : State) (e : Nat) (f : Engine → Engine) : (s.modEngine e f).barriers = s.barriers := rfl
@[simp] theorem modEngine_groups (s : State) (e : Nat) (f : Engine → Engine) : (s.modEngine e f).groups = s.groups := rfl
@[simp] theorem modEngine_mail (s : State) (e : Nat) (f : Engine → Engine) : (s.modEngine e f).mail = s.mail := rfl
@[simp] theorem modEngine_flights (s : State) (e : Nat) (f : Engine → Engine) : (s.modEngine e f).flights = s.flights := rfl
@[simp] theorem modEngine_mem (s : State) (e : Nat) (f : Engine → Engine) : (s.modEngine e f).mem = s.mem := rfl
@[simp] theorem modEngine_sems (s : State) (e : Nat) (f : Engine → Engine) : (s.modEngine e f).sems = s.sems := rfl
@[simp] theorem modEngine_armed (s : State) (e : Nat) (f : Engine → Engine) : (s.modEngine e f).armed = s.armed := rfl
@[simp] theorem modEngine_jobs (s : State) (e : Nat) (f : Engine → Engine) : (s.modEngine e f).jobs = s.jobs := rfl
@[simp] theorem modEngine_deadTags (s : State) (e : Nat) (f : Engine → Engine) : (s.modEngine e f).deadTags = s.deadTags := rfl
@[simp] theorem modEngine_kills (s : State) (e : Nat) (f : Engine → Engine) : (s.modEngine e f).kills = s.kills := rfl
@[simp] theorem modEngine_switch (s : State) (e : Nat) (f : Engine → Engine) : (s.modEngine e f).switch = s.switch := rfl
@[simp] theorem modEngine_saved (s : State) (e : Nat) (f : Engine → Engine) : (s.modEngine e f).saved = s.saved := rfl
@[simp] theorem modEngine_savedInbox (s : State) (e : Nat) (f : Engine → Engine) : (s.modEngine e f).savedInbox = s.savedInbox := rfl
@[simp] theorem modEngine_photonic (s : State) (e : Nat) (f : Engine → Engine) : (s.modEngine e f).photonic = { s.photonic with engines := tabSet s.photonic.engines e (f (s.engine e)) } := rfl
@[simp] theorem modEngine_fabric (s : State) (e : Nat) (f : Engine → Engine) : (s.modEngine e f).fabric = s.fabric := rfl
@[simp] theorem modEngine_dev (s : State) (e : Nat) (f : Engine → Engine) : (s.modEngine e f).dev = s.dev := rfl

@[simp] theorem modDeck_sched (s : State) (d : Nat) (f : Deck → Deck) : (s.modDeck d f).sched = s.sched := rfl
@[simp] theorem modDeck_now (s : State) (d : Nat) (f : Deck → Deck) : (s.modDeck d f).now = s.now := rfl
@[simp] theorem modDeck_timeBase (s : State) (d : Nat) (f : Deck → Deck) : (s.modDeck d f).timeBase = s.timeBase := rfl
@[simp] theorem modDeck_pkgIdx (s : State) (d : Nat) (f : Deck → Deck) : (s.modDeck d f).pkgIdx = s.pkgIdx := rfl
@[simp] theorem modDeck_ctxs (s : State) (d : Nat) (f : Deck → Deck) : (s.modDeck d f).ctxs = s.ctxs := rfl
@[simp] theorem modDeck_cores (s : State) (d : Nat) (f : Deck → Deck) : (s.modDeck d f).cores = s.cores := rfl
@[simp] theorem modDeck_chans (s : State) (d : Nat) (f : Deck → Deck) : (s.modDeck d f).chans = s.chans := rfl
@[simp] theorem modDeck_regions (s : State) (d : Nat) (f : Deck → Deck) : (s.modDeck d f).regions = s.regions := rfl
@[simp] theorem modDeck_ops (s : State) (d : Nat) (f : Deck → Deck) : (s.modDeck d f).ops = s.ops := rfl
@[simp] theorem modDeck_barriers (s : State) (d : Nat) (f : Deck → Deck) : (s.modDeck d f).barriers = s.barriers := rfl
@[simp] theorem modDeck_groups (s : State) (d : Nat) (f : Deck → Deck) : (s.modDeck d f).groups = s.groups := rfl
@[simp] theorem modDeck_mail (s : State) (d : Nat) (f : Deck → Deck) : (s.modDeck d f).mail = s.mail := rfl
@[simp] theorem modDeck_flights (s : State) (d : Nat) (f : Deck → Deck) : (s.modDeck d f).flights = s.flights := rfl
@[simp] theorem modDeck_mem (s : State) (d : Nat) (f : Deck → Deck) : (s.modDeck d f).mem = s.mem := rfl
@[simp] theorem modDeck_sems (s : State) (d : Nat) (f : Deck → Deck) : (s.modDeck d f).sems = s.sems := rfl
@[simp] theorem modDeck_armed (s : State) (d : Nat) (f : Deck → Deck) : (s.modDeck d f).armed = s.armed := rfl
@[simp] theorem modDeck_jobs (s : State) (d : Nat) (f : Deck → Deck) : (s.modDeck d f).jobs = s.jobs := rfl
@[simp] theorem modDeck_deadTags (s : State) (d : Nat) (f : Deck → Deck) : (s.modDeck d f).deadTags = s.deadTags := rfl
@[simp] theorem modDeck_kills (s : State) (d : Nat) (f : Deck → Deck) : (s.modDeck d f).kills = s.kills := rfl
@[simp] theorem modDeck_switch (s : State) (d : Nat) (f : Deck → Deck) : (s.modDeck d f).switch = s.switch := rfl
@[simp] theorem modDeck_saved (s : State) (d : Nat) (f : Deck → Deck) : (s.modDeck d f).saved = s.saved := rfl
@[simp] theorem modDeck_savedInbox (s : State) (d : Nat) (f : Deck → Deck) : (s.modDeck d f).savedInbox = s.savedInbox := rfl
@[simp] theorem modDeck_photonic (s : State) (d : Nat) (f : Deck → Deck) : (s.modDeck d f).photonic = { s.photonic with decks := tabSet s.photonic.decks d (f (s.deck d)) } := rfl
@[simp] theorem modDeck_fabric (s : State) (d : Nat) (f : Deck → Deck) : (s.modDeck d f).fabric = s.fabric := rfl
@[simp] theorem modDeck_dev (s : State) (d : Nat) (f : Deck → Deck) : (s.modDeck d f).dev = s.dev := rfl

@[simp] theorem modPort_sched (s : State) (p : Nat) (f : Port → Port) : (s.modPort p f).sched = s.sched := rfl
@[simp] theorem modPort_now (s : State) (p : Nat) (f : Port → Port) : (s.modPort p f).now = s.now := rfl
@[simp] theorem modPort_timeBase (s : State) (p : Nat) (f : Port → Port) : (s.modPort p f).timeBase = s.timeBase := rfl
@[simp] theorem modPort_pkgIdx (s : State) (p : Nat) (f : Port → Port) : (s.modPort p f).pkgIdx = s.pkgIdx := rfl
@[simp] theorem modPort_ctxs (s : State) (p : Nat) (f : Port → Port) : (s.modPort p f).ctxs = s.ctxs := rfl
@[simp] theorem modPort_cores (s : State) (p : Nat) (f : Port → Port) : (s.modPort p f).cores = s.cores := rfl
@[simp] theorem modPort_chans (s : State) (p : Nat) (f : Port → Port) : (s.modPort p f).chans = s.chans := rfl
@[simp] theorem modPort_regions (s : State) (p : Nat) (f : Port → Port) : (s.modPort p f).regions = s.regions := rfl
@[simp] theorem modPort_ops (s : State) (p : Nat) (f : Port → Port) : (s.modPort p f).ops = s.ops := rfl
@[simp] theorem modPort_barriers (s : State) (p : Nat) (f : Port → Port) : (s.modPort p f).barriers = s.barriers := rfl
@[simp] theorem modPort_groups (s : State) (p : Nat) (f : Port → Port) : (s.modPort p f).groups = s.groups := rfl
@[simp] theorem modPort_mail (s : State) (p : Nat) (f : Port → Port) : (s.modPort p f).mail = s.mail := rfl
@[simp] theorem modPort_flights (s : State) (p : Nat) (f : Port → Port) : (s.modPort p f).flights = s.flights := rfl
@[simp] theorem modPort_mem (s : State) (p : Nat) (f : Port → Port) : (s.modPort p f).mem = s.mem := rfl
@[simp] theorem modPort_sems (s : State) (p : Nat) (f : Port → Port) : (s.modPort p f).sems = s.sems := rfl
@[simp] theorem modPort_armed (s : State) (p : Nat) (f : Port → Port) : (s.modPort p f).armed = s.armed := rfl
@[simp] theorem modPort_jobs (s : State) (p : Nat) (f : Port → Port) : (s.modPort p f).jobs = s.jobs := rfl
@[simp] theorem modPort_deadTags (s : State) (p : Nat) (f : Port → Port) : (s.modPort p f).deadTags = s.deadTags := rfl
@[simp] theorem modPort_kills (s : State) (p : Nat) (f : Port → Port) : (s.modPort p f).kills = s.kills := rfl
@[simp] theorem modPort_switch (s : State) (p : Nat) (f : Port → Port) : (s.modPort p f).switch = s.switch := rfl
@[simp] theorem modPort_saved (s : State) (p : Nat) (f : Port → Port) : (s.modPort p f).saved = s.saved := rfl
@[simp] theorem modPort_savedInbox (s : State) (p : Nat) (f : Port → Port) : (s.modPort p f).savedInbox = s.savedInbox := rfl
@[simp] theorem modPort_photonic (s : State) (p : Nat) (f : Port → Port) : (s.modPort p f).photonic = s.photonic := rfl
@[simp] theorem modPort_fabric (s : State) (p : Nat) (f : Port → Port) : (s.modPort p f).fabric = { s.fabric with ports := tabSet s.fabric.ports p (f (s.port p)) } := rfl
@[simp] theorem modPort_dev (s : State) (p : Nat) (f : Port → Port) : (s.modPort p f).dev = s.dev := rfl

@[simp] theorem modFam_sched (s : State) (k : Nat) (f : Fam → Fam) : (s.modFam k f).sched = s.sched := rfl
@[simp] theorem modFam_now (s : State) (k : Nat) (f : Fam → Fam) : (s.modFam k f).now = s.now := rfl
@[simp] theorem modFam_timeBase (s : State) (k : Nat) (f : Fam → Fam) : (s.modFam k f).timeBase = s.timeBase := rfl
@[simp] theorem modFam_pkgIdx (s : State) (k : Nat) (f : Fam → Fam) : (s.modFam k f).pkgIdx = s.pkgIdx := rfl
@[simp] theorem modFam_ctxs (s : State) (k : Nat) (f : Fam → Fam) : (s.modFam k f).ctxs = s.ctxs := rfl
@[simp] theorem modFam_cores (s : State) (k : Nat) (f : Fam → Fam) : (s.modFam k f).cores = s.cores := rfl
@[simp] theorem modFam_chans (s : State) (k : Nat) (f : Fam → Fam) : (s.modFam k f).chans = s.chans := rfl
@[simp] theorem modFam_regions (s : State) (k : Nat) (f : Fam → Fam) : (s.modFam k f).regions = s.regions := rfl
@[simp] theorem modFam_ops (s : State) (k : Nat) (f : Fam → Fam) : (s.modFam k f).ops = s.ops := rfl
@[simp] theorem modFam_barriers (s : State) (k : Nat) (f : Fam → Fam) : (s.modFam k f).barriers = s.barriers := rfl
@[simp] theorem modFam_groups (s : State) (k : Nat) (f : Fam → Fam) : (s.modFam k f).groups = s.groups := rfl
@[simp] theorem modFam_mail (s : State) (k : Nat) (f : Fam → Fam) : (s.modFam k f).mail = s.mail := rfl
@[simp] theorem modFam_flights (s : State) (k : Nat) (f : Fam → Fam) : (s.modFam k f).flights = s.flights := rfl
@[simp] theorem modFam_mem (s : State) (k : Nat) (f : Fam → Fam) : (s.modFam k f).mem = s.mem := rfl
@[simp] theorem modFam_sems (s : State) (k : Nat) (f : Fam → Fam) : (s.modFam k f).sems = s.sems := rfl
@[simp] theorem modFam_armed (s : State) (k : Nat) (f : Fam → Fam) : (s.modFam k f).armed = s.armed := rfl
@[simp] theorem modFam_jobs (s : State) (k : Nat) (f : Fam → Fam) : (s.modFam k f).jobs = s.jobs := rfl
@[simp] theorem modFam_deadTags (s : State) (k : Nat) (f : Fam → Fam) : (s.modFam k f).deadTags = s.deadTags := rfl
@[simp] theorem modFam_kills (s : State) (k : Nat) (f : Fam → Fam) : (s.modFam k f).kills = s.kills := rfl
@[simp] theorem modFam_switch (s : State) (k : Nat) (f : Fam → Fam) : (s.modFam k f).switch = s.switch := rfl
@[simp] theorem modFam_saved (s : State) (k : Nat) (f : Fam → Fam) : (s.modFam k f).saved = s.saved := rfl
@[simp] theorem modFam_savedInbox (s : State) (k : Nat) (f : Fam → Fam) : (s.modFam k f).savedInbox = s.savedInbox := rfl
@[simp] theorem modFam_photonic (s : State) (k : Nat) (f : Fam → Fam) : (s.modFam k f).photonic = s.photonic := rfl
@[simp] theorem modFam_fabric (s : State) (k : Nat) (f : Fam → Fam) : (s.modFam k f).fabric = { s.fabric with fam := tabSet s.fabric.fam k (f (s.fam k)) } := rfl
@[simp] theorem modFam_dev (s : State) (k : Nat) (f : Fam → Fam) : (s.modFam k f).dev = s.dev := rfl

@[simp] theorem bump_sched (s : State) : s.bump.sched = { s.sched with nextId := s.sched.nextId + 1 } := rfl
@[simp] theorem bump_now (s : State) : s.bump.now = s.now := rfl
@[simp] theorem bump_timeBase (s : State) : s.bump.timeBase = s.timeBase := rfl
@[simp] theorem bump_pkgIdx (s : State) : s.bump.pkgIdx = s.pkgIdx := rfl
@[simp] theorem bump_ctxs (s : State) : s.bump.ctxs = s.ctxs := rfl
@[simp] theorem bump_cores (s : State) : s.bump.cores = s.cores := rfl
@[simp] theorem bump_chans (s : State) : s.bump.chans = s.chans := rfl
@[simp] theorem bump_regions (s : State) : s.bump.regions = s.regions := rfl
@[simp] theorem bump_ops (s : State) : s.bump.ops = s.ops := rfl
@[simp] theorem bump_barriers (s : State) : s.bump.barriers = s.barriers := rfl
@[simp] theorem bump_groups (s : State) : s.bump.groups = s.groups := rfl
@[simp] theorem bump_mail (s : State) : s.bump.mail = s.mail := rfl
@[simp] theorem bump_flights (s : State) : s.bump.flights = s.flights := rfl
@[simp] theorem bump_mem (s : State) : s.bump.mem = s.mem := rfl
@[simp] theorem bump_sems (s : State) : s.bump.sems = s.sems := rfl
@[simp] theorem bump_armed (s : State) : s.bump.armed = s.armed := rfl
@[simp] theorem bump_jobs (s : State) : s.bump.jobs = s.jobs := rfl
@[simp] theorem bump_deadTags (s : State) : s.bump.deadTags = s.deadTags := rfl
@[simp] theorem bump_kills (s : State) : s.bump.kills = s.kills := rfl
@[simp] theorem bump_switch (s : State) : s.bump.switch = s.switch := rfl
@[simp] theorem bump_saved (s : State) : s.bump.saved = s.saved := rfl
@[simp] theorem bump_savedInbox (s : State) : s.bump.savedInbox = s.savedInbox := rfl
@[simp] theorem bump_photonic (s : State) : s.bump.photonic = s.photonic := rfl
@[simp] theorem bump_fabric (s : State) : s.bump.fabric = s.fabric := rfl
@[simp] theorem bump_dev (s : State) : s.bump.dev = s.dev := rfl

@[simp] theorem refresh_sched (s : State) : s.refresh.sched = { s.sched with fresh := s.sched.fresh + 1 } := rfl
@[simp] theorem refresh_now (s : State) : s.refresh.now = s.now := rfl
@[simp] theorem refresh_timeBase (s : State) : s.refresh.timeBase = s.timeBase := rfl
@[simp] theorem refresh_pkgIdx (s : State) : s.refresh.pkgIdx = s.pkgIdx := rfl
@[simp] theorem refresh_ctxs (s : State) : s.refresh.ctxs = s.ctxs := rfl
@[simp] theorem refresh_cores (s : State) : s.refresh.cores = s.cores := rfl
@[simp] theorem refresh_chans (s : State) : s.refresh.chans = s.chans := rfl
@[simp] theorem refresh_regions (s : State) : s.refresh.regions = s.regions := rfl
@[simp] theorem refresh_ops (s : State) : s.refresh.ops = s.ops := rfl
@[simp] theorem refresh_barriers (s : State) : s.refresh.barriers = s.barriers := rfl
@[simp] theorem refresh_groups (s : State) : s.refresh.groups = s.groups := rfl
@[simp] theorem refresh_mail (s : State) : s.refresh.mail = s.mail := rfl
@[simp] theorem refresh_flights (s : State) : s.refresh.flights = s.flights := rfl
@[simp] theorem refresh_mem (s : State) : s.refresh.mem = s.mem := rfl
@[simp] theorem refresh_sems (s : State) : s.refresh.sems = s.sems := rfl
@[simp] theorem refresh_armed (s : State) : s.refresh.armed = s.armed := rfl
@[simp] theorem refresh_jobs (s : State) : s.refresh.jobs = s.jobs := rfl
@[simp] theorem refresh_deadTags (s : State) : s.refresh.deadTags = s.deadTags := rfl
@[simp] theorem refresh_kills (s : State) : s.refresh.kills = s.kills := rfl
@[simp] theorem refresh_switch (s : State) : s.refresh.switch = s.switch := rfl
@[simp] theorem refresh_saved (s : State) : s.refresh.saved = s.saved := rfl
@[simp] theorem refresh_savedInbox (s : State) : s.refresh.savedInbox = s.savedInbox := rfl
@[simp] theorem refresh_photonic (s : State) : s.refresh.photonic = s.photonic := rfl
@[simp] theorem refresh_fabric (s : State) : s.refresh.fabric = s.fabric := rfl
@[simp] theorem refresh_dev (s : State) : s.refresh.dev = s.dev := rfl

@[simp] theorem refreshBy_sched (s : State) (n : Nat) : (s.refreshBy n).sched = { s.sched with fresh := s.sched.fresh + n } := rfl
@[simp] theorem refreshBy_now (s : State) (n : Nat) : (s.refreshBy n).now = s.now := rfl
@[simp] theorem refreshBy_timeBase (s : State) (n : Nat) : (s.refreshBy n).timeBase = s.timeBase := rfl
@[simp] theorem refreshBy_pkgIdx (s : State) (n : Nat) : (s.refreshBy n).pkgIdx = s.pkgIdx := rfl
@[simp] theorem refreshBy_ctxs (s : State) (n : Nat) : (s.refreshBy n).ctxs = s.ctxs := rfl
@[simp] theorem refreshBy_cores (s : State) (n : Nat) : (s.refreshBy n).cores = s.cores := rfl
@[simp] theorem refreshBy_chans (s : State) (n : Nat) : (s.refreshBy n).chans = s.chans := rfl
@[simp] theorem refreshBy_regions (s : State) (n : Nat) : (s.refreshBy n).regions = s.regions := rfl
@[simp] theorem refreshBy_ops (s : State) (n : Nat) : (s.refreshBy n).ops = s.ops := rfl
@[simp] theorem refreshBy_barriers (s : State) (n : Nat) : (s.refreshBy n).barriers = s.barriers := rfl
@[simp] theorem refreshBy_groups (s : State) (n : Nat) : (s.refreshBy n).groups = s.groups := rfl
@[simp] theorem refreshBy_mail (s : State) (n : Nat) : (s.refreshBy n).mail = s.mail := rfl
@[simp] theorem refreshBy_flights (s : State) (n : Nat) : (s.refreshBy n).flights = s.flights := rfl
@[simp] theorem refreshBy_mem (s : State) (n : Nat) : (s.refreshBy n).mem = s.mem := rfl
@[simp] theorem refreshBy_sems (s : State) (n : Nat) : (s.refreshBy n).sems = s.sems := rfl
@[simp] theorem refreshBy_armed (s : State) (n : Nat) : (s.refreshBy n).armed = s.armed := rfl
@[simp] theorem refreshBy_jobs (s : State) (n : Nat) : (s.refreshBy n).jobs = s.jobs := rfl
@[simp] theorem refreshBy_deadTags (s : State) (n : Nat) : (s.refreshBy n).deadTags = s.deadTags := rfl
@[simp] theorem refreshBy_kills (s : State) (n : Nat) : (s.refreshBy n).kills = s.kills := rfl
@[simp] theorem refreshBy_switch (s : State) (n : Nat) : (s.refreshBy n).switch = s.switch := rfl
@[simp] theorem refreshBy_saved (s : State) (n : Nat) : (s.refreshBy n).saved = s.saved := rfl
@[simp] theorem refreshBy_savedInbox (s : State) (n : Nat) : (s.refreshBy n).savedInbox = s.savedInbox := rfl
@[simp] theorem refreshBy_photonic (s : State) (n : Nat) : (s.refreshBy n).photonic = s.photonic := rfl
@[simp] theorem refreshBy_fabric (s : State) (n : Nat) : (s.refreshBy n).fabric = s.fabric := rfl
@[simp] theorem refreshBy_dev (s : State) (n : Nat) : (s.refreshBy n).dev = s.dev := rfl

end Sys2Proof.Laws
end

