-- ==== Sys2Proof/Laws/Table.lean ====
section
/-!
SUPPORT. Tables read after they are written, and what each named update leaves of each named read.
-/
namespace Sys2Proof.Laws

open Sys2Proof.Machine

/-- A table reads the value last set at a key, and every other key as before. -/
theorem tabGet_tabSet {α : Type} (t : Tab α) (k n : Nat) (a d : α) :
    tabGet (tabSet t k a) n d = if k = n then a else tabGet t n d := by
  induction t with
  | nil => simp [tabSet, tabGet]
  | cons p t ih => obtain ⟨k1, b⟩ := p; grind [tabSet, tabGet]

/-- An element put among others. -/
theorem mem_insertBy {α : Type} (le : α → α → Bool) (a x : α) (l : List α) : x ∈ insertBy le a l ↔ x = a ∨ x ∈ l := by
  induction l with
  | nil => simp [insertBy]
  | cons b t ih => grind [insertBy]
/-- Sorting keeps the elements of a list. -/
theorem mem_sortBy {α : Type} (le : α → α → Bool) (x : α) (l : List α) : x ∈ sortBy le l ↔ x ∈ l := by
  induction l with
  | nil => rfl
  | cons a t ih => rw [sortBy, mem_insertBy, ih, List.mem_cons]

/-- A context after any context is set. -/
@[simp] theorem ctx_setCtx (s : State) (k n : Nat) (c : Ctx) : (s.setCtx k c).ctx n = if k = n then c else s.ctx n := by
  simp [State.ctx, tabGet_tabSet]
/-- A context after any context is changed. -/
@[simp] theorem ctx_modCtx (s : State) (k n : Nat) (f : Ctx → Ctx) :
    (s.modCtx k f).ctx n = if k = n then f (s.ctx k) else s.ctx n := by simp [State.modCtx]
/-- A context after the one at work is changed. -/
@[simp] theorem ctx_modMe (s : State) (n : Nat) (f : Ctx → Ctx) :
    (s.modMe f).ctx n = if s.sched.cur = n then f s.me else s.ctx n := by simp [State.modMe, State.me]
/-- The context at work after it is changed. -/
@[simp] theorem me_modMe (s : State) (f : Ctx → Ctx) : (s.modMe f).me = f s.me := by simp [State.me]
/-- A core after any core is changed. -/
@[simp] theorem core_modCore (s : State) (k n : Nat) (f : Core → Core) :
    (s.modCore k f).core n = if k = n then f (s.core k) else s.core n := by simp [State.core, tabGet_tabSet]
/-- A handler-table entry after any is changed. -/
theorem chan_modChan (s : State) (k c n d : Nat) (f : Chan → Chan) :
    (s.modChan k c f).chan n d = if k * 64 + c = n * 64 + d then f (s.chan k c) else s.chan n d := by
  simp [State.chan, tabGet_tabSet]
/-- A region after any is set. -/
theorem region_setRegion (s : State) (k i n j : Nat) (r : Region) :
    (s.setRegion k i r).region n j = if k * 32 + i = n * 32 + j then r else s.region n j := by simp [State.region, tabGet_tabSet]
/-- A token slot after any is set. -/
theorem op_setOp (s : State) (k i n j : Nat) (o : Op) :
    (s.setOp k i o).op n j = if k * 128 + i = n * 128 + j then o else s.op n j := by simp [State.op, tabGet_tabSet]
/-- A token slot after any is changed. -/
theorem op_modOp (s : State) (k i n j : Nat) (f : Op → Op) :
    (s.modOp k i f).op n j = if k * 128 + i = n * 128 + j then f (s.op k i) else s.op n j := by simp [State.op, tabGet_tabSet]
/-- A barrier after any is set. -/
@[simp] theorem bar_setBar (s : State) (k n : Nat) (b : Barrier) : (s.setBar k b).bar n = if k = n then b else s.bar n := by
  simp [State.bar, tabGet_tabSet]
/-- A group after any is set. -/
@[simp] theorem group_setGroup (s : State) (k n : Nat) (x : Group) : (s.setGroup k x).group n = if k = n then x else s.group n := by
  simp [State.group, tabGet_tabSet]
/-- An engine after any is changed. -/
@[simp] theorem engine_modEngine (s : State) (k n : Nat) (f : Engine → Engine) :
    (s.modEngine k f).engine n = if k = n then f (s.engine k) else s.engine n := by simp [State.engine, tabGet_tabSet]
/-- A deck after any is changed. -/
@[simp] theorem deck_modDeck (s : State) (k n : Nat) (f : Deck → Deck) :
    (s.modDeck k f).deck n = if k = n then f (s.deck k) else s.deck n := by simp [State.deck, tabGet_tabSet]
/-- A port after any is changed. -/
@[simp] theorem port_modPort (s : State) (k n : Nat) (f : Port → Port) :
    (s.modPort k f).port n = if k = n then f (s.port k) else s.port n := by simp [State.port, tabGet_tabSet]
/-- A map entry after any is changed. -/
@[simp] theorem fam_modFam (s : State) (k n : Nat) (f : Fam → Fam) :
    (s.modFam k f).fam n = if k = n then f (s.fam k) else s.fam n := by simp [State.fam, tabGet_tabSet]

end Sys2Proof.Laws
end

