-- ==== Sys2Proof/Laws/Memory.lean ====
section
/-!
SUPPORT. One byte of memory read after one is written, and the canonical form, which every operation on cells keeps.
-/
namespace Sys2Proof.Laws

open Sys2Proof.Machine

/-- A byte taken off the list reads as an unlisted one, and every other as before. -/
theorem memGet_memErase (m : List Host.Cell) (a n : Nat) :
    memGet (memErase m a) n = if n = a then unlisted else memGet m n := by
  induction m with
  | nil => simp [memErase, memGet]
  | cons p t ih => obtain ⟨k, b⟩ := p; grind [memErase, memGet]
/-- A byte put on the list reads as it was put, and every other as before. -/
theorem memGet_memInsert (m : List Host.Cell) (a n : Nat) (b : Byte) :
    memGet (memInsert m a b) n = if n = a then b else memGet m n := by
  induction m with
  | nil => grind [memInsert, memGet]
  | cons p t ih => obtain ⟨k, c⟩ := p; grind [memInsert, memGet]
/-- A byte written reads as it was written, and every other as before. -/
theorem memGet_memSet (m : List Host.Cell) (a n : Nat) (b : Byte) :
    memGet (memSet m a b) n = if n = a then b else memGet m n := by
  unfold memSet; split
  · simp_all [memGet_memErase]
  · exact memGet_memInsert m a n b

/-- Every listed address is above a. -/
def Above (a : Nat) (m : List Host.Cell) : Prop := ∀ c ∈ m, a < c.1
/-- The canonical form of a list, from its head. -/
theorem memWf_cons (a : Nat) (b : Byte) (m : List Host.Cell) :
    memWf ((a, b) :: m) = true ↔ b ≠ unlisted ∧ Above a m ∧ memWf m = true := by
  induction m generalizing a b with
  | nil => simp [memWf, Above]
  | cons p t ih =>
    obtain ⟨k, c⟩ := p
    have := ih k c
    simp only [memWf, Bool.and_eq_true, bne_iff_ne, ne_eq, decide_eq_true_eq]
    constructor
    · rintro ⟨⟨h1, h2⟩, h3⟩
      refine ⟨h1, fun x hx => ?_, h3⟩
      rcases List.mem_cons.1 hx with rfl | hx
      · exact h2
      · exact Nat.lt_trans h2 ((this.1 h3).2.1 x hx)
    · rintro ⟨h1, h2, h3⟩
      exact ⟨⟨h1, h2 (k, c) (by simp)⟩, h3⟩
/-- What is left after a byte is taken off was there before. -/
theorem mem_memErase {m : List Host.Cell} {a : Nat} {c : Host.Cell} (h : c ∈ memErase m a) : c ∈ m := by
  induction m with
  | nil => exact h
  | cons p t ih => obtain ⟨k, b⟩ := p; grind [memErase]
/-- Taking a byte off keeps the form. -/
theorem memErase_wf {m : List Host.Cell} (a : Nat) (h : memWf m = true) : memWf (memErase m a) = true := by
  induction m with
  | nil => rfl
  | cons p t ih =>
    obtain ⟨k, b⟩ := p
    obtain ⟨h1, h2, h3⟩ := (memWf_cons k b t).1 h
    simp only [memErase]
    split
    · exact ih h3
    · exact (memWf_cons ..).2 ⟨h1, fun c hc => h2 c (mem_memErase hc), ih h3⟩
/-- What is listed after a byte is put on is that byte or was there before. -/
theorem mem_memInsert {m : List Host.Cell} {a : Nat} {b : Byte} {c : Host.Cell} (h : c ∈ memInsert m a b) : c = (a, b) ∨ c ∈ m := by
  induction m with
  | nil => simpa [memInsert] using h
  | cons p t ih => obtain ⟨k, x⟩ := p; grind [memInsert]
/-- Putting on a byte that does not read as an unlisted one keeps the form. -/
theorem memInsert_wf {m : List Host.Cell} (a : Nat) {b : Byte} (hb : b ≠ unlisted) (h : memWf m = true) :
    memWf (memInsert m a b) = true := by
  induction m with
  | nil => simpa [memInsert, memWf] using hb
  | cons p t ih =>
    obtain ⟨k, x⟩ := p
    obtain ⟨h1, h2, h3⟩ := (memWf_cons k x t).1 h
    simp only [memInsert]
    split
    · rename_i e; subst e; exact (memWf_cons ..).2 ⟨hb, h2, h3⟩
    · split
      · rename_i lt
        refine (memWf_cons ..).2 ⟨hb, fun c hc => ?_, h⟩
        rcases List.mem_cons.1 hc with rfl | hc
        · exact lt
        · exact Nat.lt_trans lt (h2 c hc)
      · refine (memWf_cons ..).2 ⟨h1, fun c hc => ?_, ih h3⟩
        rcases mem_memInsert hc with rfl | hc
        · show k < a; omega
        · exact h2 c hc
/-- A byte written keeps the form. -/
theorem memSet_wf {m : List Host.Cell} (a : Nat) (b : Byte) (h : memWf m = true) : memWf (memSet m a b) = true := by
  unfold memSet; split
  · exact memErase_wf a h
  · exact memInsert_wf a ‹_› h
/-- Cells written keep the form. -/
theorem memWrite_wf {m : List Host.Cell} (cs : List Host.Cell) (h : memWf m = true) : memWf (memWrite m cs) = true := by
  induction cs generalizing m with
  | nil => exact h
  | cons c t ih => exact ih (memSet_wf _ _ h)
/-- Cells kept by a test keep the form. -/
theorem filter_wf {m : List Host.Cell} (p : Host.Cell → Bool) (h : memWf m = true) : memWf (m.filter p) = true := by
  induction m with
  | nil => rfl
  | cons c t ih =>
    obtain ⟨k, b⟩ := c
    obtain ⟨h1, h2, h3⟩ := (memWf_cons k b t).1 h
    simp only [List.filter_cons]
    split
    · exact (memWf_cons ..).2 ⟨h1, fun c hc => h2 c ((List.mem_filter.1 hc).1), ih h3⟩
    · exact ih h3
/-- A range cleared keeps the form. -/
theorem memClear_wf {m : List Host.Cell} (lo len : Nat) (h : memWf m = true) : memWf (memClear m lo len) = true := filter_wf _ h
/-- A write to DRAM keeps the form. -/
theorem writeDram_wf {m : Mem} (cs : List Host.Cell) (h : m.wf = true) : (m.writeDram cs).wf = true := memWrite_wf cs h
/-- A write to scratchpads keeps the form. -/
theorem writeSp_wf {m : Mem} (cs : List Host.Cell) (h : m.wf = true) : (m.writeSp cs).wf = true := memWrite_wf cs h

end Sys2Proof.Laws
end

