-- ==== Sys2Proof/Laws/Canonical.lean ====
section
/-!
SUPPORT. The shared operations that may write memory keep its canonical form.
-/
namespace Sys2Proof.Laws

open Sys2Proof.Machine

/-- A NOTIFY leaves memory. -/
@[simp] theorem notifyFrom_mem (s : State) (src dest chan : Nat) (tag asid : BitVec 16) (ws : List Word) (acq : Bool)
    (r : Option (Nat × Nat)) : (s.notifyFrom src dest chan tag asid ws acq r).mem = s.mem := rfl
/-- A notice leaves memory. -/
@[simp] theorem notice_mem (s : State) (kind : BitVec 4) (dest chan : Nat) (asid : BitVec 16) (ws : List Word) :
    (s.notice kind dest chan asid ws).mem = s.mem := rfl
/-- An answer leaves memory. -/
@[simp] theorem answer_mem (s : State) (key id : Nat) (r : Reply) : (s.answer key id r).mem = s.mem := by
  unfold State.answer; grind [setCtx_mem, modCore_mem]

/-! ### Transactions on lines -/

/-- A packet of the fabric leaves memory. -/
@[simp] theorem fabSend_mem (s : State) (asid : BitVec 16) (entry : Nat) (ordered : Bool) (dest : Option Nat) (key op : Nat) (b : FabOut) :
    (s.fabSend asid entry ordered dest key op b).mem = s.mem := by
  unfold State.fabSend
  dsimp only
  split <;> rfl
/-- Packets to several packages leave memory. -/
theorem sends_mem (es : List Nat) (b : FabOut) (s : State) :
    (es.foldl (fun s e => s.fabSend 0 e true none 0 0 b) s).mem = s.mem := by
  induction es generalizing s with
  | nil => rfl
  | cons e t ih => exact (ih _).trans (fabSend_mem ..)
/-- A packet of the coherence protocol leaves memory. -/
@[simp] theorem cohSend_mem (s : State) (member : Nat) (b : FabOut) : (s.cohSend member b).mem = s.mem := sends_mem _ _ _
/-- The end of a transaction leaves the cells. -/
@[simp] theorem endTrans_cells (s : State) (pa : Nat) : (s.endTrans pa).mem.cells = s.mem.cells := rfl
/-- A transaction that starts leaves the cells. -/
@[simp] theorem startTrans_cells (s : State) (pa kind member : Nat) : (s.startTrans pa kind member).mem.cells = s.mem.cells := by
  unfold State.startTrans
  rw [sends_mem]; rfl
/-- A line's metadata leave the cells. -/
@[simp] theorem setLine_cells (s : State) (pa state : Nat) (mask : BitVec 4) (owner : Nat) :
    (s.setLine pa state mask owner).mem.cells = s.mem.cells := rfl
/-- A line's data keep the form. -/
theorem lineData_wf (s : State) (pa : Nat) (data : VWord) (h : s.mem.wf = true) : (s.lineData pa data).mem.wf = true := by
  unfold State.lineData
  rw [modMem_mem]
  exact writeDram_wf _ h
/-- A copy replaced leaves memory. -/
@[simp] theorem evicted_mem (s : State) (line : Nat) (x : RLine) : (s.evicted line x).mem = s.mem := by
  unfold State.evicted; split <;> simp
/-- A copy that enters the remote-line share leaves the cells. -/
@[simp] theorem copyPut_cells (s : State) (pa : Nat) (x : RLine) : (s.copyPut pa x).mem.cells = s.mem.cells := by
  unfold State.copyPut
  extract_lets t beside put
  have hp (kept : Tab RLine) : (put kept).mem.cells = s.mem.cells := by simp only [put, modMem_mem]
  clear_value put
  split
  · exact hp _
  · split
    · rw [evicted_mem, hp]
    · exact hp _
/-- A transaction that completes keeps the form. -/
theorem completeTrans_wf (s : State) (t : Trans) (written : Bool) (data : VWord) (h : s.mem.wf = true) :
    (s.completeTrans t written data).mem.wf = true := by
  have hl := lineData_wf (s.endTrans (t.line * 64)) (t.line * 64) data h
  unfold State.completeTrans
  grind [Mem.wf, endTrans_cells, setLine_cells, copyPut_cells, cohSend_mem, refresh_mem]
/-- A transaction ended for a later access keeps the form. -/
theorem settleTrans_wf (s : State) (t : Trans) (h : s.mem.wf = true) : (s.settleTrans t).mem.wf = true := by
  unfold State.settleTrans
  rw [refreshBy_mem]
  exact completeTrans_wf s t _ _ h
/-- A line without a transaction any more keeps the form. -/
theorem settleLine_wf (s : State) (line : Nat) (h : s.mem.wf = true) : (s.settleLine line).mem.wf = true := by
  unfold State.settleLine
  grind [settleTrans_wf]

/-! ### The Kamlan's own accesses -/

/-- A line that comes back keeps the form. -/
theorem returned_wf (s : State) (line : Nat) (h : s.mem.wf = true) : (s.returned line).mem.wf = true := by
  unfold State.returned
  grind [modMem_mem, refreshBy_mem, memWrite_wf, Mem.wf]
/-- A recall keeps the form. -/
theorem recallLine_wf (s : State) (line : Nat) (h : s.mem.wf = true) : (s.recallLine line).mem.wf = true := by
  have hs := settleLine_wf s line h
  unfold State.recallLine
  grind [modMem_mem, returned_wf, Mem.wf, Mem.setMeta]
/-- A line brought to SHARED keeps the form. -/
theorem shareLine_wf (s : State) (line : Nat) (h : s.mem.wf = true) : (s.shareLine line).mem.wf = true := by
  have hs := settleLine_wf s line h
  unfold State.shareLine
  grind [modMem_mem, returned_wf, Mem.wf, Mem.setMeta]
/-- Recalls one after another keep the form. -/
theorem recallLines_wf (ls : List Nat) (s : State) (h : s.mem.wf = true) : (ls.foldl (fun s l => s.recallLine l) s).mem.wf = true := by
  induction ls generalizing s with
  | nil => exact h
  | cons l t ih => exact ih _ (recallLine_wf s l h)
/-- The Kamlan's own write keeps the form. -/
theorem putLocal_wf (s t : State) (a : Nat) (bytes : List Byte) (h : s.mem.wf = true) (e : s.putLocal a bytes = some t) :
    t.mem.wf = true := by
  unfold State.putLocal at e
  simp only [Bool.or_eq_true, decide_eq_true_eq] at e
  split at e
  · cases e
  · cases e; exact writeDram_wf _ (recallLines_wf _ _ h)
/-- A RAS record keeps the form. -/
theorem rasPut_wf (s t : State) (rec : List Word) (h : s.mem.wf = true) (e : s.rasPut rec = some t) : t.mem.wf = true := by
  unfold State.rasPut at e
  dsimp only at e
  split at e
  · cases e
  · split at e
    · cases e
    · rename_i e1
      have h1 := putLocal_wf _ _ _ _ (shareLine_wf _ _ h) e1
      exact putLocal_wf _ _ _ _ h1 e
/-- A RAS report keeps the form. -/
theorem rasReport_wf (s : State) (r : RasInfo) (h : s.mem.wf = true) : (s.rasReport r).mem.wf = true := by
  unfold State.rasReport
  dsimp only
  simp only [notice_mem]
  split
  · simpa using rasPut_wf _ _ _ h ‹_›
  · simpa using h

/-! ### Lines obtained, translation and fetch -/

/-- The loss of a line keeps the form. -/
theorem lineLost_wf (s : State) (pa source : Nat) (detail : Word) (h : s.mem.wf = true) : (s.lineLost pa source detail).mem.wf = true := by
  unfold State.lineLost
  exact rasReport_wf _ _ (by simpa [Mem.wf, Mem.setMeta] using h)
/-- A fabric event leaves memory. -/
@[simp] theorem fabctl_mem (s : State) (event port : Nat) (far : Option Nat) : (s.fabctl event port far).mem = s.mem := by
  unfold State.fabctl
  dsimp only
  split <;> simp
/-- A STALL event leaves memory. -/
@[simp] theorem stalled_mem (s : State) (phys : Nat) : (s.stalled phys).mem = s.mem := by simp [State.stalled]
/-- A STALL event leaves memory. -/
@[simp] theorem stalledOf_mem (s : State) (es : List Nat) : (s.stalledOf es).mem = s.mem := by
  unfold State.stalledOf; split <;> simp
/-- A transaction whose line is lost keeps the form. -/
theorem transLost_wf (s : State) (t : Trans) (source : Nat) (detail : Word) (h : s.mem.wf = true) :
    (s.transLost t source detail).mem.wf = true := by
  have hl := lineLost_wf (s.endTrans (t.line * 64)) (t.line * 64) source detail h
  unfold State.transLost
  grind [cohSend_mem]
/-- A line without a transaction obtained keeps the form. -/
theorem obtainFree_wf (s : State) (pa : Nat) (write : Bool) (h : s.mem.wf = true) : (s.obtainFree pa write).mem.wf = true := by
  have hr : s.refresh.mem.wf = true := by simpa using h
  unfold State.obtainFree
  grind [lineLost_wf, recallLine_wf, shareLine_wf, stalledOf_mem]
/-- A line of this package obtained keeps the form. -/
theorem obtainLine_wf (s : State) (pa : Nat) (write : Bool) (h : s.mem.wf = true) : (s.obtainLine pa write).mem.wf = true := by
  have hr : s.refresh.mem.wf = true := by simpa using h
  unfold State.obtainLine
  grind [obtainFree_wf, settleTrans_wf, transLost_wf, stalledOf_mem]
/-- A transaction that fails keeps the form. -/
theorem transFails_wf (s : State) (pa member : Nat) (h : s.mem.wf = true) : (s.transFails pa member).mem.wf = true := by
  unfold State.transFails
  grind [transLost_wf, Mem.wf, refresh_mem, copyPut_cells, endTrans_cells]
/-- A copy obtained keeps the form. -/
theorem obtainCopyFree_wf (s : State) (pa : Nat) (write : Bool) (h : s.mem.wf = true) : (s.obtainCopyFree pa write).mem.wf = true := by
  unfold State.obtainCopyFree
  grind [Mem.wf, refresh_mem, refreshBy_mem, modMem_mem, copyPut_cells, stalledOf_mem]
/-- A copy obtained after a request in progress keeps the form. -/
theorem obtainCopy_wf (s : State) (pa : Nat) (write : Bool) (h : s.mem.wf = true) : (s.obtainCopy pa write).mem.wf = true := by
  unfold State.obtainCopy
  grind [obtainCopyFree_wf, settleTrans_wf, transFails_wf, stalledOf_mem]
/-- A line obtained keeps the form. -/
theorem obtain_wf (s : State) (asid : BitVec 16) (pa : Nat) (write : Bool) (h : s.mem.wf = true) : (s.obtain asid pa write).mem.wf = true := by
  unfold State.obtain
  grind [obtainLine_wf, obtainCopy_wf]
/-- A table line brought here keeps the form. -/
theorem readyTable_wf (s : State) (j : Job) (pa : Nat) (h : s.mem.wf = true) : (s.readyTable j pa).mem.wf = true := by
  unfold State.readyTable
  grind [obtainLine_wf]
/-- The tables of a walk brought here keep the form. -/
theorem readyWalk_wf (s : State) (asid : BitVec 16) (va : Nat) (h : s.mem.wf = true) : (s.readyWalk asid va).mem.wf = true := by
  unfold State.readyWalk
  grind [readyTable_wf]
/-- A translation keeps the form. -/
theorem translate_wf (s : State) (cluster : Nat) (asid : BitVec 16) (va : Nat) (need : Need) (svc : Bool) (h : s.mem.wf = true) :
    (s.translate cluster asid va need svc).1.mem.wf = true := by
  unfold State.translate
  grind [refresh_mem, modMem_mem, Mem.wf, Mem.tlbAdd, readyWalk_wf]
/-- A fetch keeps the form. -/
theorem fetch_wf (s : State) (key : Nat) (pc : BitVec 52) (h : s.mem.wf = true) : (s.fetch key pc).1.mem.wf = true := by
  unfold State.fetch
  grind [translate_wf, obtain_wf]
/-- A write at a PA keeps the form. -/
theorem writePa_wf (s : State) (asid : BitVec 16) (cells : List Host.Cell) (h : s.mem.wf = true) :
    (s.writePa asid cells).mem.wf = true := by
  unfold State.writePa
  grind [modMem_mem, writeDram_wf, Mem.wf]
/-- The Kamlan's own translation keeps the form. -/
theorem jobCells_wf (s : State) (core : Nat) (asid : BitVec 16) (svc : Bool) (va len : Nat) (need : Need) (h : s.mem.wf = true) :
    (s.jobCells core asid svc va len need).1.mem.wf = true := by
  unfold State.jobCells
  grind [translate_wf, obtain_wf]

/-! ### Traps -/

/-- The reservation of a record keeps the form. -/
theorem reserveRecord_wf (s : State) (asid : BitVec 16) (pa len : Nat) (h : s.mem.wf = true) :
    (s.reserveRecord asid pa len).1.mem.wf = true := by
  unfold State.reserveRecord
  grind [obtainLine_wf, writePa_wf, modMem_mem, refreshBy_mem, Mem.wf, stalledOf_mem]
/-- A record of the trap ring keeps the form. -/
theorem ringWrite_wf (s : State) (core : Nat) (j : Job) (rec : List Word) (h : s.mem.wf = true) :
    (s.ringWrite core j rec).1.mem.wf = true := by
  unfold State.ringWrite
  grind [jobCells_wf, reserveRecord_wf, writePa_wf, translate_wf]
/-- The report of a trap keeps the form. -/
theorem reportTrap_wf (s : State) (key : Nat) (rec : List Word) (h : s.mem.wf = true) : (s.reportTrap key rec).mem.wf = true := by
  unfold State.reportTrap
  grind [ringWrite_wf, notifyFrom_mem]
/-- Taking a trap keeps the form. -/
theorem takeTrap_wf (s : State) (key : Nat) (t : TrapInfo) (h : s.mem.wf = true) : (s.takeTrap key t).mem.wf = true := by
  unfold State.takeTrap
  grind [reportTrap_wf, modCore_mem, modChan_mem, modCtx_mem]

end Sys2Proof.Laws
end

