-- ==== Sys2Proof/Laws/Dispatch.lean ====
section
/-!
SUPPORT. What exec answers for each constructor: the meaning of that instruction. The provers cite these lines instead of
unfolding the dispatcher.
-/
namespace Sys2Proof.Laws

open Sys2Proof.Machine

@[simp] theorem exec_add (d : BitVec 5) (a : BitVec 5) (b : BitVec 5) (s : State) : exec (.add d a b) s = execAdd d a b s := rfl
@[simp] theorem exec_sub (d : BitVec 5) (a : BitVec 5) (b : BitVec 5) (s : State) : exec (.sub d a b) s = execSub d a b s := rfl
@[simp] theorem exec_and (d : BitVec 5) (a : BitVec 5) (b : BitVec 5) (s : State) : exec (.and d a b) s = execAnd d a b s := rfl
@[simp] theorem exec_or (d : BitVec 5) (a : BitVec 5) (b : BitVec 5) (s : State) : exec (.or d a b) s = execOr d a b s := rfl
@[simp] theorem exec_xor (d : BitVec 5) (a : BitVec 5) (b : BitVec 5) (s : State) : exec (.xor d a b) s = execXor d a b s := rfl
@[simp] theorem exec_andn (d : BitVec 5) (a : BitVec 5) (b : BitVec 5) (s : State) : exec (.andn d a b) s = execAndn d a b s := rfl
@[simp] theorem exec_nor (d : BitVec 5) (a : BitVec 5) (b : BitVec 5) (s : State) : exec (.nor d a b) s = execNor d a b s := rfl
@[simp] theorem exec_xnor (d : BitVec 5) (a : BitVec 5) (b : BitVec 5) (s : State) : exec (.xnor d a b) s = execXnor d a b s := rfl
@[simp] theorem exec_slt (d : BitVec 5) (a : BitVec 5) (b : BitVec 5) (s : State) : exec (.slt d a b) s = execSlt d a b s := rfl
@[simp] theorem exec_sltn (d : BitVec 5) (a : BitVec 5) (b : BitVec 5) (s : State) : exec (.sltn d a b) s = execSltn d a b s := rfl
@[simp] theorem exec_min (d : BitVec 5) (a : BitVec 5) (b : BitVec 5) (s : State) : exec (.min d a b) s = execMin d a b s := rfl
@[simp] theorem exec_max (d : BitVec 5) (a : BitVec 5) (b : BitVec 5) (s : State) : exec (.max d a b) s = execMax d a b s := rfl
@[simp] theorem exec_minn (d : BitVec 5) (a : BitVec 5) (b : BitVec 5) (s : State) : exec (.minn d a b) s = execMinn d a b s := rfl
@[simp] theorem exec_maxn (d : BitVec 5) (a : BitVec 5) (b : BitVec 5) (s : State) : exec (.maxn d a b) s = execMaxn d a b s := rfl
@[simp] theorem exec_sll (d : BitVec 5) (a : BitVec 5) (b : BitVec 5) (s : State) : exec (.sll d a b) s = execSll d a b s := rfl
@[simp] theorem exec_srl (d : BitVec 5) (a : BitVec 5) (b : BitVec 5) (s : State) : exec (.srl d a b) s = execSrl d a b s := rfl
@[simp] theorem exec_sra (d : BitVec 5) (a : BitVec 5) (b : BitVec 5) (s : State) : exec (.sra d a b) s = execSra d a b s := rfl
@[simp] theorem exec_ror (d : BitVec 5) (a : BitVec 5) (b : BitVec 5) (s : State) : exec (.ror d a b) s = execRor d a b s := rfl
@[simp] theorem exec_mul (d : BitVec 5) (a : BitVec 5) (b : BitVec 5) (s : State) : exec (.mul d a b) s = execMul d a b s := rfl
@[simp] theorem exec_mulh (d : BitVec 5) (a : BitVec 5) (b : BitVec 5) (s : State) : exec (.mulh d a b) s = execMulh d a b s := rfl
@[simp] theorem exec_mulhn (d : BitVec 5) (a : BitVec 5) (b : BitVec 5) (s : State) : exec (.mulhn d a b) s = execMulhn d a b s := rfl
@[simp] theorem exec_div (d : BitVec 5) (a : BitVec 5) (b : BitVec 5) (s : State) : exec (.div d a b) s = execDiv d a b s := rfl
@[simp] theorem exec_divn (d : BitVec 5) (a : BitVec 5) (b : BitVec 5) (s : State) : exec (.divn d a b) s = execDivn d a b s := rfl
@[simp] theorem exec_rem (d : BitVec 5) (a : BitVec 5) (b : BitVec 5) (s : State) : exec (.rem d a b) s = execRem d a b s := rfl
@[simp] theorem exec_remn (d : BitVec 5) (a : BitVec 5) (b : BitVec 5) (s : State) : exec (.remn d a b) s = execRemn d a b s := rfl
@[simp] theorem exec_clz (d : BitVec 5) (a : BitVec 5) (s : State) : exec (.clz d a) s = execClz d a s := rfl
@[simp] theorem exec_ctz (d : BitVec 5) (a : BitVec 5) (s : State) : exec (.ctz d a) s = execCtz d a s := rfl
@[simp] theorem exec_popc (d : BitVec 5) (a : BitVec 5) (s : State) : exec (.popc d a) s = execPopc d a s := rfl
@[simp] theorem exec_sxb (d : BitVec 5) (a : BitVec 5) (s : State) : exec (.sxb d a) s = execSxb d a s := rfl
@[simp] theorem exec_sxh (d : BitVec 5) (a : BitVec 5) (s : State) : exec (.sxh d a) s = execSxh d a s := rfl
@[simp] theorem exec_sxw (d : BitVec 5) (a : BitVec 5) (s : State) : exec (.sxw d a) s = execSxw d a s := rfl
@[simp] theorem exec_qrd (d : BitVec 5) (a : BitVec 3) (s : State) : exec (.qrd d a) s = execQrd d a s := rfl
@[simp] theorem exec_wwr (d : BitVec 3) (b : BitVec 5) (s : State) : exec (.wwr d b) s = execWwr d b s := rfl
@[simp] theorem exec_wclr (s : State) : exec .wclr s = execWclr s := rfl
@[simp] theorem exec_addi (d : BitVec 5) (a : BitVec 5) (im : BitVec 16) (s : State) : exec (.addi d a im) s = execAddi d a im s := rfl
@[simp] theorem exec_andi (d : BitVec 5) (a : BitVec 5) (im : BitVec 16) (s : State) : exec (.andi d a im) s = execAndi d a im s := rfl
@[simp] theorem exec_ori (d : BitVec 5) (a : BitVec 5) (im : BitVec 16) (s : State) : exec (.ori d a im) s = execOri d a im s := rfl
@[simp] theorem exec_xori (d : BitVec 5) (a : BitVec 5) (im : BitVec 16) (s : State) : exec (.xori d a im) s = execXori d a im s := rfl
@[simp] theorem exec_slti (d : BitVec 5) (a : BitVec 5) (im : BitVec 16) (s : State) : exec (.slti d a im) s = execSlti d a im s := rfl
@[simp] theorem exec_sltni (d : BitVec 5) (a : BitVec 5) (im : BitVec 16) (s : State) : exec (.sltni d a im) s = execSltni d a im s := rfl
@[simp] theorem exec_muli (d : BitVec 5) (a : BitVec 5) (im : BitVec 16) (s : State) : exec (.muli d a im) s = execMuli d a im s := rfl
@[simp] theorem exec_movi (d : BitVec 5) (im : BitVec 16) (s : State) : exec (.movi d im) s = execMovi d im s := rfl
@[simp] theorem exec_movh (d : BitVec 5) (a : BitVec 5) (im : BitVec 16) (s : State) : exec (.movh d a im) s = execMovh d a im s := rfl
@[simp] theorem exec_addpi (d : BitVec 5) (a : BitVec 5) (im : BitVec 16) (s : State) : exec (.addpi d a im) s = execAddpi d a im s := rfl
@[simp] theorem exec_slli (d : BitVec 5) (a : BitVec 5) (sh : BitVec 6) (s : State) : exec (.slli d a sh) s = execSlli d a sh s := rfl
@[simp] theorem exec_srli (d : BitVec 5) (a : BitVec 5) (sh : BitVec 6) (s : State) : exec (.srli d a sh) s = execSrli d a sh s := rfl
@[simp] theorem exec_srai (d : BitVec 5) (a : BitVec 5) (sh : BitVec 6) (s : State) : exec (.srai d a sh) s = execSrai d a sh s := rfl
@[simp] theorem exec_rori (d : BitVec 5) (a : BitVec 5) (sh : BitVec 6) (s : State) : exec (.rori d a sh) s = execRori d a sh s := rfl
@[simp] theorem exec_addp (d : BitVec 5) (a : BitVec 5) (b : BitVec 5) (s : State) : exec (.addp d a b) s = execAddp d a b s := rfl
@[simp] theorem exec_subp (d : BitVec 5) (a : BitVec 5) (b : BitVec 5) (s : State) : exec (.subp d a b) s = execSubp d a b s := rfl
@[simp] theorem exec_tagget (d : BitVec 5) (a : BitVec 5) (s : State) : exec (.tagget d a) s = execTagget d a s := rfl
@[simp] theorem exec_tagset (d : BitVec 5) (a : BitVec 5) (b : BitVec 5) (s : State) : exec (.tagset d a b) s = execTagset d a b s := rfl
@[simp] theorem exec_pclr (d : BitVec 5) (a : BitVec 5) (s : State) : exec (.pclr d a) s = execPclr d a s := rfl
@[simp] theorem exec_ldB (t : BitVec 5) (b : BitVec 5) (sh : BitVec 3) (o : BitVec 13) (s : State) : exec (.ldB t b sh o) s = execLdB t b sh o s := rfl
@[simp] theorem exec_ldBn (t : BitVec 5) (b : BitVec 5) (sh : BitVec 3) (o : BitVec 13) (s : State) : exec (.ldBn t b sh o) s = execLdBn t b sh o s := rfl
@[simp] theorem exec_ldH (t : BitVec 5) (b : BitVec 5) (sh : BitVec 3) (o : BitVec 13) (s : State) : exec (.ldH t b sh o) s = execLdH t b sh o s := rfl
@[simp] theorem exec_ldHn (t : BitVec 5) (b : BitVec 5) (sh : BitVec 3) (o : BitVec 13) (s : State) : exec (.ldHn t b sh o) s = execLdHn t b sh o s := rfl
@[simp] theorem exec_ldW (t : BitVec 5) (b : BitVec 5) (sh : BitVec 3) (o : BitVec 13) (s : State) : exec (.ldW t b sh o) s = execLdW t b sh o s := rfl
@[simp] theorem exec_ldWn (t : BitVec 5) (b : BitVec 5) (sh : BitVec 3) (o : BitVec 13) (s : State) : exec (.ldWn t b sh o) s = execLdWn t b sh o s := rfl
@[simp] theorem exec_ldD (t : BitVec 5) (b : BitVec 5) (sh : BitVec 3) (o : BitVec 13) (s : State) : exec (.ldD t b sh o) s = execLdD t b sh o s := rfl
@[simp] theorem exec_stB (t : BitVec 5) (b : BitVec 5) (sh : BitVec 3) (o : BitVec 13) (s : State) : exec (.stB t b sh o) s = execStB t b sh o s := rfl
@[simp] theorem exec_stH (t : BitVec 5) (b : BitVec 5) (sh : BitVec 3) (o : BitVec 13) (s : State) : exec (.stH t b sh o) s = execStH t b sh o s := rfl
@[simp] theorem exec_stW (t : BitVec 5) (b : BitVec 5) (sh : BitVec 3) (o : BitVec 13) (s : State) : exec (.stW t b sh o) s = execStW t b sh o s := rfl
@[simp] theorem exec_stD (t : BitVec 5) (b : BitVec 5) (sh : BitVec 3) (o : BitVec 13) (s : State) : exec (.stD t b sh o) s = execStD t b sh o s := rfl
@[simp] theorem exec_vld (t : BitVec 5) (b : BitVec 5) (sh : BitVec 3) (o : BitVec 13) (s : State) : exec (.vld t b sh o) s = execVld t b sh o s := rfl
@[simp] theorem exec_vst (t : BitVec 5) (b : BitVec 5) (sh : BitVec 3) (o : BitVec 13) (s : State) : exec (.vst t b sh o) s = execVst t b sh o s := rfl
@[simp] theorem exec_ldAcq (d : BitVec 5) (a : BitVec 5) (sh : BitVec 2) (n : BitVec 1) (z : BitVec 2) (s : State) : exec (.ldAcq d a sh n z) s = execLdAcq d a sh n z s := rfl
@[simp] theorem exec_stRel (a : BitVec 5) (b : BitVec 5) (sh : BitVec 2) (z : BitVec 2) (s : State) : exec (.stRel a b sh z) s = execStRel a b sh z s := rfl
@[simp] theorem exec_vldf (v : BitVec 5) (a : BitVec 5) (m : BitVec 3) (s : State) : exec (.vldf v a m) s = execVldf v a m s := rfl
@[simp] theorem exec_vstf (v : BitVec 5) (a : BitVec 5) (m : BitVec 3) (s : State) : exec (.vstf v a m) s = execVstf v a m s := rfl
@[simp] theorem exec_pref (a : BitVec 5) (l : BitVec 2) (s : State) : exec (.pref a l) s = execPref a l s := rfl
@[simp] theorem exec_prefResPin (a : BitVec 5) (b : BitVec 5) (l : BitVec 2) (s : State) : exec (.prefResPin a b l) s = execPrefResPin a b l s := rfl
@[simp] theorem exec_prefResUnpin (a : BitVec 5) (b : BitVec 5) (l : BitVec 2) (s : State) : exec (.prefResUnpin a b l) s = execPrefResUnpin a b l s := rfl
@[simp] theorem exec_fence (sh : BitVec 2) (k : BitVec 4) (s : State) : exec (.fence sh k) s = execFence sh k s := rfl
@[simp] theorem exec_l1inv (a : BitVec 5) (b : BitVec 5) (s : State) : exec (.l1inv a b) s = execL1inv a b s := rfl
@[simp] theorem exec_l1wb (a : BitVec 5) (b : BitVec 5) (s : State) : exec (.l1wb a b) s = execL1wb a b s := rfl
@[simp] theorem exec_atomAdd (d : BitVec 5) (a : BitVec 5) (b : BitVec 5) (z : BitVec 2) (r : BitVec 1) (s : State) : exec (.atomAdd d a b z r) s = execAtomAdd d a b z r s := rfl
@[simp] theorem exec_atomAnd (d : BitVec 5) (a : BitVec 5) (b : BitVec 5) (z : BitVec 2) (r : BitVec 1) (s : State) : exec (.atomAnd d a b z r) s = execAtomAnd d a b z r s := rfl
@[simp] theorem exec_atomOr (d : BitVec 5) (a : BitVec 5) (b : BitVec 5) (z : BitVec 2) (r : BitVec 1) (s : State) : exec (.atomOr d a b z r) s = execAtomOr d a b z r s := rfl
@[simp] theorem exec_atomXor (d : BitVec 5) (a : BitVec 5) (b : BitVec 5) (z : BitVec 2) (r : BitVec 1) (s : State) : exec (.atomXor d a b z r) s = execAtomXor d a b z r s := rfl
@[simp] theorem exec_atomSwap (d : BitVec 5) (a : BitVec 5) (b : BitVec 5) (z : BitVec 2) (r : BitVec 1) (s : State) : exec (.atomSwap d a b z r) s = execAtomSwap d a b z r s := rfl
@[simp] theorem exec_atomCas (d : BitVec 5) (a : BitVec 5) (b : BitVec 5) (z : BitVec 2) (s : State) : exec (.atomCas d a b z) s = execAtomCas d a b z s := rfl
@[simp] theorem exec_atomMin (d : BitVec 5) (a : BitVec 5) (b : BitVec 5) (z : BitVec 2) (r : BitVec 1) (s : State) : exec (.atomMin d a b z r) s = execAtomMin d a b z r s := rfl
@[simp] theorem exec_atomMax (d : BitVec 5) (a : BitVec 5) (b : BitVec 5) (z : BitVec 2) (r : BitVec 1) (s : State) : exec (.atomMax d a b z r) s = execAtomMax d a b z r s := rfl
@[simp] theorem exec_atomMinn (d : BitVec 5) (a : BitVec 5) (b : BitVec 5) (z : BitVec 2) (r : BitVec 1) (s : State) : exec (.atomMinn d a b z r) s = execAtomMinn d a b z r s := rfl
@[simp] theorem exec_atomMaxn (d : BitVec 5) (a : BitVec 5) (b : BitVec 5) (z : BitVec 2) (r : BitVec 1) (s : State) : exec (.atomMaxn d a b z r) s = execAtomMaxn d a b z r s := rfl
@[simp] theorem exec_atomFadd (d : BitVec 5) (a : BitVec 5) (b : BitVec 5) (z : BitVec 2) (r : BitVec 1) (s : State) : exec (.atomFadd d a b z r) s = execAtomFadd d a b z r s := rfl
@[simp] theorem exec_brEq (a : BitVec 5) (b : BitVec 5) (d : BitVec 13) (s : State) : exec (.brEq a b d) s = execBrEq a b d s := rfl
@[simp] theorem exec_brNe (a : BitVec 5) (b : BitVec 5) (d : BitVec 13) (s : State) : exec (.brNe a b d) s = execBrNe a b d s := rfl
@[simp] theorem exec_brLt (a : BitVec 5) (b : BitVec 5) (d : BitVec 13) (s : State) : exec (.brLt a b d) s = execBrLt a b d s := rfl
@[simp] theorem exec_brGe (a : BitVec 5) (b : BitVec 5) (d : BitVec 13) (s : State) : exec (.brGe a b d) s = execBrGe a b d s := rfl
@[simp] theorem exec_brLtn (a : BitVec 5) (b : BitVec 5) (d : BitVec 13) (s : State) : exec (.brLtn a b d) s = execBrLtn a b d s := rfl
@[simp] theorem exec_brGen (a : BitVec 5) (b : BitVec 5) (d : BitVec 13) (s : State) : exec (.brGen a b d) s = execBrGen a b d s := rfl
@[simp] theorem exec_j (d : BitVec 26) (s : State) : exec (.j d) s = execJ d s := rfl
@[simp] theorem exec_jl (d : BitVec 26) (s : State) : exec (.jl d) s = execJl d s := rfl
@[simp] theorem exec_jr (a : BitVec 5) (s : State) : exec (.jr a) s = execJr a s := rfl
@[simp] theorem exec_jlr (d : BitVec 5) (a : BitVec 5) (s : State) : exec (.jlr d a) s = execJlr d a s := rfl
@[simp] theorem exec_rpt (n : BitVec 4) (c : BitVec 8) (d : BitVec 3) (a : BitVec 3) (b : BitVec 3) (s : State) : exec (.rpt n c d a b) s = execRpt n c d a b s := rfl
@[simp] theorem exec_waitc (l : BitVec 6) (sh : BitVec 6) (c : BitVec 6) (t : BitVec 6) (s : State) : exec (.waitc l sh c t) s = execWaitc l sh c t s := rfl
@[simp] theorem exec_send (s : State) : exec .send s = execSend s := rfl
@[simp] theorem exec_sendC (s : State) : exec .sendC s = execSendC s := rfl
@[simp] theorem exec_start (a : BitVec 5) (b : BitVec 5) (s : State) : exec (.start a b) s = execStart a b s := rfl
@[simp] theorem exec_spawn (a : BitVec 5) (b : BitVec 5) (s : State) : exec (.spawn a b) s = execSpawn a b s := rfl
@[simp] theorem exec_endAct (s : State) : exec .endAct s = execEndAct s := rfl
@[simp] theorem exec_yield (s : State) : exec .yield s = execYield s := rfl
@[simp] theorem exec_migr (a : BitVec 5) (s : State) : exec (.migr a) s = execMigr a s := rfl
@[simp] theorem exec_align (s : State) : exec .align s = execAlign s := rfl
@[simp] theorem exec_chen (a : BitVec 5) (s : State) : exec (.chen a) s = execChen a s := rfl
@[simp] theorem exec_chdis (a : BitVec 5) (s : State) : exec (.chdis a) s = execChdis a s := rfl
@[simp] theorem exec_chpri (a : BitVec 5) (b : BitVec 5) (s : State) : exec (.chpri a b) s = execChpri a b s := rfl
@[simp] theorem exec_ralloc (d : BitVec 5) (a : BitVec 5) (b : BitVec 5) (s : State) : exec (.ralloc d a b) s = execRalloc d a b s := rfl
@[simp] theorem exec_rfree (a : BitVec 5) (s : State) : exec (.rfree a) s = execRfree a s := rfl
@[simp] theorem exec_tkill (a : BitVec 5) (s : State) : exec (.tkill a) s = execTkill a s := rfl
@[simp] theorem exec_sysrd (d : BitVec 5) (sh : BitVec 12) (s : State) : exec (.sysrd d sh) s = execSysrd d sh s := rfl
@[simp] theorem exec_syswr (a : BitVec 5) (sh : BitVec 12) (s : State) : exec (.syswr a sh) s = execSyswr a sh s := rfl
@[simp] theorem exec_trap (c : BitVec 12) (s : State) : exec (.trap c) s = execTrap c s := rfl
@[simp] theorem exec_irq (a : BitVec 5) (s : State) : exec (.irq a) s = execIrq a s := rfl
@[simp] theorem exec_vadd (d : BitVec 5) (a : BitVec 5) (b : BitVec 5) (m : BitVec 3) (t : BitVec 3) (s : State) : exec (.vadd d a b m t) s = execVadd d a b m t s := rfl
@[simp] theorem exec_vsub (d : BitVec 5) (a : BitVec 5) (b : BitVec 5) (m : BitVec 3) (t : BitVec 3) (s : State) : exec (.vsub d a b m t) s = execVsub d a b m t s := rfl
@[simp] theorem exec_vmul (d : BitVec 5) (a : BitVec 5) (b : BitVec 5) (m : BitVec 3) (t : BitVec 3) (s : State) : exec (.vmul d a b m t) s = execVmul d a b m t s := rfl
@[simp] theorem exec_vmin (d : BitVec 5) (a : BitVec 5) (b : BitVec 5) (m : BitVec 3) (t : BitVec 3) (s : State) : exec (.vmin d a b m t) s = execVmin d a b m t s := rfl
@[simp] theorem exec_vmax (d : BitVec 5) (a : BitVec 5) (b : BitVec 5) (m : BitVec 3) (t : BitVec 3) (s : State) : exec (.vmax d a b m t) s = execVmax d a b m t s := rfl
@[simp] theorem exec_vabs (d : BitVec 5) (a : BitVec 5) (m : BitVec 3) (t : BitVec 3) (s : State) : exec (.vabs d a m t) s = execVabs d a m t s := rfl
@[simp] theorem exec_vneg (d : BitVec 5) (a : BitVec 5) (m : BitVec 3) (t : BitVec 3) (s : State) : exec (.vneg d a m t) s = execVneg d a m t s := rfl
@[simp] theorem exec_vdiv (d : BitVec 5) (a : BitVec 5) (b : BitVec 5) (m : BitVec 3) (t : BitVec 3) (s : State) : exec (.vdiv d a b m t) s = execVdiv d a b m t s := rfl
@[simp] theorem exec_vsqrt (d : BitVec 5) (a : BitVec 5) (m : BitVec 3) (t : BitVec 3) (s : State) : exec (.vsqrt d a m t) s = execVsqrt d a m t s := rfl
@[simp] theorem exec_vminn (d : BitVec 5) (a : BitVec 5) (b : BitVec 5) (m : BitVec 3) (t : BitVec 3) (s : State) : exec (.vminn d a b m t) s = execVminn d a b m t s := rfl
@[simp] theorem exec_vmaxn (d : BitVec 5) (a : BitVec 5) (b : BitVec 5) (m : BitVec 3) (t : BitVec 3) (s : State) : exec (.vmaxn d a b m t) s = execVmaxn d a b m t s := rfl
@[simp] theorem exec_vadds (d : BitVec 5) (a : BitVec 5) (b : BitVec 5) (m : BitVec 3) (t : BitVec 3) (s : State) : exec (.vadds d a b m t) s = execVadds d a b m t s := rfl
@[simp] theorem exec_vsubs (d : BitVec 5) (a : BitVec 5) (b : BitVec 5) (m : BitVec 3) (t : BitVec 3) (s : State) : exec (.vsubs d a b m t) s = execVsubs d a b m t s := rfl
@[simp] theorem exec_vaddsn (d : BitVec 5) (a : BitVec 5) (b : BitVec 5) (m : BitVec 3) (t : BitVec 3) (s : State) : exec (.vaddsn d a b m t) s = execVaddsn d a b m t s := rfl
@[simp] theorem exec_vsubsn (d : BitVec 5) (a : BitVec 5) (b : BitVec 5) (m : BitVec 3) (t : BitVec 3) (s : State) : exec (.vsubsn d a b m t) s = execVsubsn d a b m t s := rfl
@[simp] theorem exec_vand (d : BitVec 5) (a : BitVec 5) (b : BitVec 5) (m : BitVec 3) (t : BitVec 3) (s : State) : exec (.vand d a b m t) s = execVand d a b m t s := rfl
@[simp] theorem exec_vor (d : BitVec 5) (a : BitVec 5) (b : BitVec 5) (m : BitVec 3) (t : BitVec 3) (s : State) : exec (.vor d a b m t) s = execVor d a b m t s := rfl
@[simp] theorem exec_vxor (d : BitVec 5) (a : BitVec 5) (b : BitVec 5) (m : BitVec 3) (t : BitVec 3) (s : State) : exec (.vxor d a b m t) s = execVxor d a b m t s := rfl
@[simp] theorem exec_vsll (d : BitVec 5) (a : BitVec 5) (b : BitVec 5) (m : BitVec 3) (t : BitVec 3) (s : State) : exec (.vsll d a b m t) s = execVsll d a b m t s := rfl
@[simp] theorem exec_vsrl (d : BitVec 5) (a : BitVec 5) (b : BitVec 5) (m : BitVec 3) (t : BitVec 3) (s : State) : exec (.vsrl d a b m t) s = execVsrl d a b m t s := rfl
@[simp] theorem exec_vsra (d : BitVec 5) (a : BitVec 5) (b : BitVec 5) (m : BitVec 3) (t : BitVec 3) (s : State) : exec (.vsra d a b m t) s = execVsra d a b m t s := rfl
@[simp] theorem exec_vmov (d : BitVec 5) (a : BitVec 5) (m : BitVec 3) (t : BitVec 3) (s : State) : exec (.vmov d a m t) s = execVmov d a m t s := rfl
@[simp] theorem exec_vsplat (d : BitVec 5) (a : BitVec 5) (m : BitVec 3) (t : BitVec 3) (s : State) : exec (.vsplat d a m t) s = execVsplat d a m t s := rfl
@[simp] theorem exec_vfma (d : BitVec 5) (a : BitVec 5) (b : BitVec 5) (m : BitVec 3) (t : BitVec 3) (s : State) : exec (.vfma d a b m t) s = execVfma d a b m t s := rfl
@[simp] theorem exec_vfms (d : BitVec 5) (a : BitVec 5) (b : BitVec 5) (m : BitVec 3) (t : BitVec 3) (s : State) : exec (.vfms d a b m t) s = execVfms d a b m t s := rfl
@[simp] theorem exec_vfnma (d : BitVec 5) (a : BitVec 5) (b : BitVec 5) (m : BitVec 3) (t : BitVec 3) (s : State) : exec (.vfnma d a b m t) s = execVfnma d a b m t s := rfl
@[simp] theorem exec_vfnms (d : BitVec 5) (a : BitVec 5) (b : BitVec 5) (m : BitVec 3) (t : BitVec 3) (s : State) : exec (.vfnms d a b m t) s = execVfnms d a b m t s := rfl
@[simp] theorem exec_vmac (d : BitVec 5) (a : BitVec 5) (b : BitVec 5) (m : BitVec 3) (t : BitVec 3) (s : State) : exec (.vmac d a b m t) s = execVmac d a b m t s := rfl
@[simp] theorem exec_vceq (d : BitVec 3) (a : BitVec 5) (b : BitVec 5) (m : BitVec 3) (t : BitVec 3) (s : State) : exec (.vceq d a b m t) s = execVceq d a b m t s := rfl
@[simp] theorem exec_vcne (d : BitVec 3) (a : BitVec 5) (b : BitVec 5) (m : BitVec 3) (t : BitVec 3) (s : State) : exec (.vcne d a b m t) s = execVcne d a b m t s := rfl
@[simp] theorem exec_vclt (d : BitVec 3) (a : BitVec 5) (b : BitVec 5) (m : BitVec 3) (t : BitVec 3) (s : State) : exec (.vclt d a b m t) s = execVclt d a b m t s := rfl
@[simp] theorem exec_vcle (d : BitVec 3) (a : BitVec 5) (b : BitVec 5) (m : BitVec 3) (t : BitVec 3) (s : State) : exec (.vcle d a b m t) s = execVcle d a b m t s := rfl
@[simp] theorem exec_vcltn (d : BitVec 3) (a : BitVec 5) (b : BitVec 5) (m : BitVec 3) (t : BitVec 3) (s : State) : exec (.vcltn d a b m t) s = execVcltn d a b m t s := rfl
@[simp] theorem exec_vclen (d : BitVec 3) (a : BitVec 5) (b : BitVec 5) (m : BitVec 3) (t : BitVec 3) (s : State) : exec (.vclen d a b m t) s = execVclen d a b m t s := rfl
@[simp] theorem exec_vcun (d : BitVec 3) (a : BitVec 5) (b : BitVec 5) (m : BitVec 3) (t : BitVec 3) (s : State) : exec (.vcun d a b m t) s = execVcun d a b m t s := rfl
@[simp] theorem exec_vsel (d : BitVec 5) (a : BitVec 5) (b : BitVec 5) (m : BitVec 3) (t : BitVec 3) (s : State) : exec (.vsel d a b m t) s = execVsel d a b m t s := rfl
@[simp] theorem exec_mand (d : BitVec 3) (a : BitVec 3) (b : BitVec 3) (s : State) : exec (.mand d a b) s = execMand d a b s := rfl
@[simp] theorem exec_mor (d : BitVec 3) (a : BitVec 3) (b : BitVec 3) (s : State) : exec (.mor d a b) s = execMor d a b s := rfl
@[simp] theorem exec_mxor (d : BitVec 3) (a : BitVec 3) (b : BitVec 3) (s : State) : exec (.mxor d a b) s = execMxor d a b s := rfl
@[simp] theorem exec_mandn (d : BitVec 3) (a : BitVec 3) (b : BitVec 3) (s : State) : exec (.mandn d a b) s = execMandn d a b s := rfl
@[simp] theorem exec_mnot (d : BitVec 3) (a : BitVec 3) (s : State) : exec (.mnot d a) s = execMnot d a s := rfl
@[simp] theorem exec_mset (d : BitVec 3) (a : BitVec 5) (s : State) : exec (.mset d a) s = execMset d a s := rfl
@[simp] theorem exec_mget (d : BitVec 5) (a : BitVec 3) (s : State) : exec (.mget d a) s = execMget d a s := rfl
@[simp] theorem exec_mpopc (d : BitVec 5) (a : BitVec 3) (s : State) : exec (.mpopc d a) s = execMpopc d a s := rfl
@[simp] theorem exec_vperm (d : BitVec 5) (a : BitVec 5) (b : BitVec 5) (m : BitVec 3) (t : BitVec 3) (s : State) : exec (.vperm d a b m t) s = execVperm d a b m t s := rfl
@[simp] theorem exec_vzip (d : BitVec 5) (a : BitVec 5) (b : BitVec 5) (m : BitVec 3) (t : BitVec 3) (s : State) : exec (.vzip d a b m t) s = execVzip d a b m t s := rfl
@[simp] theorem exec_vunzip (d : BitVec 5) (a : BitVec 5) (b : BitVec 5) (m : BitVec 3) (t : BitVec 3) (s : State) : exec (.vunzip d a b m t) s = execVunzip d a b m t s := rfl
@[simp] theorem exec_vrotl (d : BitVec 5) (a : BitVec 5) (b : BitVec 5) (m : BitVec 3) (t : BitVec 3) (s : State) : exec (.vrotl d a b m t) s = execVrotl d a b m t s := rfl
@[simp] theorem exec_vext (d : BitVec 5) (a : BitVec 5) (b : BitVec 5) (t : BitVec 3) (s : State) : exec (.vext d a b t) s = execVext d a b t s := rfl
@[simp] theorem exec_vins (d : BitVec 5) (a : BitVec 5) (b : BitVec 5) (t : BitVec 3) (s : State) : exec (.vins d a b t) s = execVins d a b t s := rfl
@[simp] theorem exec_vrsum (d : BitVec 5) (a : BitVec 5) (m : BitVec 3) (t : BitVec 3) (s : State) : exec (.vrsum d a m t) s = execVrsum d a m t s := rfl
@[simp] theorem exec_vrmin (d : BitVec 5) (a : BitVec 5) (m : BitVec 3) (t : BitVec 3) (s : State) : exec (.vrmin d a m t) s = execVrmin d a m t s := rfl
@[simp] theorem exec_vrmax (d : BitVec 5) (a : BitVec 5) (m : BitVec 3) (t : BitVec 3) (s : State) : exec (.vrmax d a m t) s = execVrmax d a m t s := rfl
@[simp] theorem exec_vrand (d : BitVec 5) (a : BitVec 5) (m : BitVec 3) (t : BitVec 3) (s : State) : exec (.vrand d a m t) s = execVrand d a m t s := rfl
@[simp] theorem exec_vror (d : BitVec 5) (a : BitVec 5) (m : BitVec 3) (t : BitVec 3) (s : State) : exec (.vror d a m t) s = execVror d a m t s := rfl
@[simp] theorem exec_vrxor (d : BitVec 5) (a : BitVec 5) (m : BitVec 3) (t : BitVec 3) (s : State) : exec (.vrxor d a m t) s = execVrxor d a m t s := rfl
@[simp] theorem exec_vcvt (d : BitVec 5) (a : BitVec 5) (sh : BitVec 3) (m : BitVec 3) (t : BitVec 3) (r : BitVec 3) (s : State) : exec (.vcvt d a sh m t r) s = execVcvt d a sh m t r s := rfl
@[simp] theorem exec_vcvts (d : BitVec 5) (a : BitVec 5) (sh : BitVec 3) (m : BitVec 3) (t : BitVec 3) (r : BitVec 3) (s : State) : exec (.vcvts d a sh m t r) s = execVcvts d a sh m t r s := rfl
@[simp] theorem exec_vqnt (d : BitVec 5) (a : BitVec 5) (x : BitVec 4) (m : BitVec 3) (t : BitVec 3) (r : BitVec 3) (s : State) : exec (.vqnt d a x m t r) s = execVqnt d a x m t r s := rfl
@[simp] theorem exec_vdqnt (d : BitVec 5) (a : BitVec 5) (x : BitVec 4) (m : BitVec 3) (t : BitVec 3) (r : BitVec 3) (s : State) : exec (.vdqnt d a x m t r) s = execVdqnt d a x m t r s := rfl
@[simp] theorem exec_vdot (d : BitVec 5) (a : BitVec 5) (b : BitVec 5) (m : BitVec 3) (t : BitVec 3) (s : State) : exec (.vdot d a b m t) s = execVdot d a b m t s := rfl
@[simp] theorem exec_vdotSp (d : BitVec 5) (a : BitVec 5) (b : BitVec 5) (m : BitVec 3) (t : BitVec 3) (s : State) : exec (.vdotSp d a b m t) s = execVdotSp d a b m t s := rfl
@[simp] theorem exec_fadd (d : BitVec 5) (a : BitVec 5) (b : BitVec 5) (t : BitVec 3) (r : BitVec 3) (s : State) : exec (.fadd d a b t r) s = execFadd d a b t r s := rfl
@[simp] theorem exec_fsub (d : BitVec 5) (a : BitVec 5) (b : BitVec 5) (t : BitVec 3) (r : BitVec 3) (s : State) : exec (.fsub d a b t r) s = execFsub d a b t r s := rfl
@[simp] theorem exec_fmul (d : BitVec 5) (a : BitVec 5) (b : BitVec 5) (t : BitVec 3) (r : BitVec 3) (s : State) : exec (.fmul d a b t r) s = execFmul d a b t r s := rfl
@[simp] theorem exec_fdiv (d : BitVec 5) (a : BitVec 5) (b : BitVec 5) (t : BitVec 3) (r : BitVec 3) (s : State) : exec (.fdiv d a b t r) s = execFdiv d a b t r s := rfl
@[simp] theorem exec_fsqrt (d : BitVec 5) (a : BitVec 5) (t : BitVec 3) (r : BitVec 3) (s : State) : exec (.fsqrt d a t r) s = execFsqrt d a t r s := rfl
@[simp] theorem exec_fma (d : BitVec 5) (a : BitVec 5) (b : BitVec 5) (t : BitVec 3) (r : BitVec 3) (s : State) : exec (.fma d a b t r) s = execFma d a b t r s := rfl
@[simp] theorem exec_fmin (d : BitVec 5) (a : BitVec 5) (b : BitVec 5) (t : BitVec 3) (s : State) : exec (.fmin d a b t) s = execFmin d a b t s := rfl
@[simp] theorem exec_fmax (d : BitVec 5) (a : BitVec 5) (b : BitVec 5) (t : BitVec 3) (s : State) : exec (.fmax d a b t) s = execFmax d a b t s := rfl
@[simp] theorem exec_fceq (d : BitVec 5) (a : BitVec 5) (b : BitVec 5) (t : BitVec 3) (s : State) : exec (.fceq d a b t) s = execFceq d a b t s := rfl
@[simp] theorem exec_fclt (d : BitVec 5) (a : BitVec 5) (b : BitVec 5) (t : BitVec 3) (s : State) : exec (.fclt d a b t) s = execFclt d a b t s := rfl
@[simp] theorem exec_fcle (d : BitVec 5) (a : BitVec 5) (b : BitVec 5) (t : BitVec 3) (s : State) : exec (.fcle d a b t) s = execFcle d a b t s := rfl
@[simp] theorem exec_fabs (d : BitVec 5) (a : BitVec 5) (t : BitVec 3) (s : State) : exec (.fabs d a t) s = execFabs d a t s := rfl
@[simp] theorem exec_fneg (d : BitVec 5) (a : BitVec 5) (t : BitVec 3) (s : State) : exec (.fneg d a t) s = execFneg d a t s := rfl
@[simp] theorem exec_fclass (d : BitVec 5) (a : BitVec 5) (t : BitVec 3) (s : State) : exec (.fclass d a t) s = execFclass d a t s := rfl
@[simp] theorem exec_ftoi (d : BitVec 5) (a : BitVec 5) (t : BitVec 3) (r : BitVec 3) (s : State) : exec (.ftoi d a t r) s = execFtoi d a t r s := rfl
@[simp] theorem exec_fton (d : BitVec 5) (a : BitVec 5) (t : BitVec 3) (r : BitVec 3) (s : State) : exec (.fton d a t r) s = execFton d a t r s := rfl
@[simp] theorem exec_itof (d : BitVec 5) (a : BitVec 5) (t : BitVec 3) (r : BitVec 3) (s : State) : exec (.itof d a t r) s = execItof d a t r s := rfl
@[simp] theorem exec_ntof (d : BitVec 5) (a : BitVec 5) (t : BitVec 3) (r : BitVec 3) (s : State) : exec (.ntof d a t r) s = execNtof d a t r s := rfl
@[simp] theorem exec_fcvt (d : BitVec 5) (a : BitVec 5) (sh : BitVec 3) (t : BitVec 3) (r : BitVec 3) (s : State) : exec (.fcvt d a sh t r) s = execFcvt d a sh t r s := rfl
@[simp] theorem exec_dtwr (a : BitVec 5) (b : BitVec 5) (s : State) : exec (.dtwr a b) s = execDtwr a b s := rfl
@[simp] theorem exec_dtrd (d : BitVec 5) (a : BitVec 5) (s : State) : exec (.dtrd d a) s = execDtrd d a s := rfl
@[simp] theorem exec_ftwr (a : BitVec 5) (b : BitVec 5) (s : State) : exec (.ftwr a b) s = execFtwr a b s := rfl
@[simp] theorem exec_ftrd (a : BitVec 5) (b : BitVec 5) (s : State) : exec (.ftrd a b) s = execFtrd a b s := rfl
@[simp] theorem exec_dtmode (a : BitVec 5) (s : State) : exec (.dtmode a) s = execDtmode a s := rfl
@[simp] theorem exec_twait (d : BitVec 5) (a : BitVec 5) (s : State) : exec (.twait d a) s = execTwait d a s := rfl
@[simp] theorem exec_tstat (d : BitVec 5) (a : BitVec 5) (s : State) : exec (.tstat d a) s = execTstat d a s := rfl
@[simp] theorem exec_tstatR (d : BitVec 5) (a : BitVec 5) (s : State) : exec (.tstatR d a) s = execTstatR d a s := rfl
@[simp] theorem exec_tcancel (a : BitVec 5) (s : State) : exec (.tcancel a) s = execTcancel a s := rfl
@[simp] theorem exec_tfence (c : BitVec 4) (s : State) : exec (.tfence c) s = execTfence c s := rfl
@[simp] theorem exec_tresume (a : BitVec 5) (s : State) : exec (.tresume a) s = execTresume a s := rfl
@[simp] theorem exec_trec (a : BitVec 5) (b : BitVec 5) (s : State) : exec (.trec a b) s = execTrec a b s := rfl
@[simp] theorem exec_tdet (a : BitVec 5) (s : State) : exec (.tdet a) s = execTdet a s := rfl
@[simp] theorem exec_cpy (d : BitVec 5) (a : BitVec 5) (b : BitVec 5) (x : BitVec 1) (p : BitVec 2) (n : BitVec 1) (k : BitVec 1) (s : State) : exec (.cpy d a b x p n k) s = execCpy d a b x p n k s := rfl
@[simp] theorem exec_cpyX (d : BitVec 5) (a : BitVec 5) (b : BitVec 5) (x : BitVec 1) (p : BitVec 2) (n : BitVec 1) (k : BitVec 1) (s : State) : exec (.cpyX d a b x p n k) s = execCpyX d a b x p n k s := rfl
@[simp] theorem exec_cpySp (d : BitVec 5) (a : BitVec 5) (b : BitVec 5) (x : BitVec 1) (p : BitVec 2) (n : BitVec 1) (k : BitVec 1) (s : State) : exec (.cpySp d a b x p n k) s = execCpySp d a b x p n k s := rfl
@[simp] theorem exec_cpyR (d : BitVec 5) (a : BitVec 5) (b : BitVec 5) (x : BitVec 1) (p : BitVec 2) (n : BitVec 1) (k : BitVec 1) (s : State) : exec (.cpyR d a b x p n k) s = execCpyR d a b x p n k s := rfl
@[simp] theorem exec_cpyF (d : BitVec 5) (a : BitVec 5) (b : BitVec 5) (x : BitVec 1) (p : BitVec 2) (n : BitVec 1) (k : BitVec 1) (s : State) : exec (.cpyF d a b x p n k) s = execCpyF d a b x p n k s := rfl
@[simp] theorem exec_mmx (d : BitVec 5) (a : BitVec 5) (b : BitVec 5) (x : BitVec 1) (p : BitVec 2) (n : BitVec 1) (k : BitVec 1) (s : State) : exec (.mmx d a b x p n k) s = execMmx d a b x p n k s := rfl
@[simp] theorem exec_mmxA (d : BitVec 5) (a : BitVec 5) (b : BitVec 5) (x : BitVec 1) (p : BitVec 2) (n : BitVec 1) (k : BitVec 1) (s : State) : exec (.mmxA d a b x p n k) s = execMmxA d a b x p n k s := rfl
@[simp] theorem exec_phld (d : BitVec 5) (a : BitVec 5) (b : BitVec 5) (x : BitVec 1) (p : BitVec 2) (n : BitVec 1) (k : BitVec 1) (s : State) : exec (.phld d a b x p n k) s = execPhld d a b x p n k s := rfl
@[simp] theorem exec_phdec (d : BitVec 5) (a : BitVec 5) (b : BitVec 5) (x : BitVec 1) (p : BitVec 2) (n : BitVec 1) (k : BitVec 1) (s : State) : exec (.phdec d a b x p n k) s = execPhdec d a b x p n k s := rfl
@[simp] theorem exec_phswp (d : BitVec 5) (a : BitVec 5) (b : BitVec 5) (x : BitVec 1) (p : BitVec 2) (n : BitVec 1) (k : BitVec 1) (s : State) : exec (.phswp d a b x p n k) s = execPhswp d a b x p n k s := rfl
@[simp] theorem exec_phres (d : BitVec 5) (a : BitVec 5) (b : BitVec 5) (x : BitVec 1) (p : BitVec 2) (n : BitVec 1) (k : BitVec 1) (s : State) : exec (.phres d a b x p n k) s = execPhres d a b x p n k s := rfl
@[simp] theorem exec_phdrop (d : BitVec 5) (a : BitVec 5) (b : BitVec 5) (x : BitVec 1) (p : BitVec 2) (n : BitVec 1) (k : BitVec 1) (s : State) : exec (.phdrop d a b x p n k) s = execPhdrop d a b x p n k s := rfl
@[simp] theorem exec_tcopy (d : BitVec 5) (a : BitVec 5) (b : BitVec 5) (x : BitVec 1) (p : BitVec 2) (n : BitVec 1) (k : BitVec 1) (s : State) : exec (.tcopy d a b x p n k) s = execTcopy d a b x p n k s := rfl
@[simp] theorem exec_tcopyBp (d : BitVec 5) (a : BitVec 5) (b : BitVec 5) (x : BitVec 1) (p : BitVec 2) (n : BitVec 1) (k : BitVec 1) (s : State) : exec (.tcopyBp d a b x p n k) s = execTcopyBp d a b x p n k s := rfl
@[simp] theorem exec_tcopyAcc (d : BitVec 5) (a : BitVec 5) (b : BitVec 5) (x : BitVec 1) (p : BitVec 2) (n : BitVec 1) (k : BitVec 1) (s : State) : exec (.tcopyAcc d a b x p n k) s = execTcopyAcc d a b x p n k s := rfl
@[simp] theorem exec_binit (a : BitVec 5) (b : BitVec 5) (s : State) : exec (.binit a b) s = execBinit a b s := rfl
@[simp] theorem exec_barr (a : BitVec 5) (b : BitVec 5) (s : State) : exec (.barr a b) s = execBarr a b s := rfl
@[simp] theorem exec_bwait (d : BitVec 5) (a : BitVec 5) (s : State) : exec (.bwait d a) s = execBwait d a s := rfl
@[simp] theorem exec_bnote (a : BitVec 5) (b : BitVec 5) (s : State) : exec (.bnote a b) s = execBnote a b s := rfl
@[simp] theorem exec_bwdraw (a : BitVec 5) (s : State) : exec (.bwdraw a) s = execBwdraw a s := rfl
@[simp] theorem exec_bstat (d : BitVec 5) (a : BitVec 5) (s : State) : exec (.bstat d a) s = execBstat d a s := rfl
@[simp] theorem exec_bbytes (a : BitVec 5) (b : BitVec 5) (s : State) : exec (.bbytes a b) s = execBbytes a b s := rfl
@[simp] theorem exec_blink (a : BitVec 5) (b : BitVec 5) (s : State) : exec (.blink a b) s = execBlink a b s := rfl
@[simp] theorem exec_bbind (a : BitVec 5) (b : BitVec 5) (s : State) : exec (.bbind a b) s = execBbind a b s := rfl
@[simp] theorem exec_gjoin (d : BitVec 5) (a : BitVec 5) (b : BitVec 5) (x : BitVec 1) (p : BitVec 2) (n : BitVec 1) (k : BitVec 1) (s : State) : exec (.gjoin d a b x p n k) s = execGjoin d a b x p n k s := rfl
@[simp] theorem exec_gleave (d : BitVec 5) (a : BitVec 5) (b : BitVec 5) (x : BitVec 1) (p : BitVec 2) (n : BitVec 1) (k : BitVec 1) (s : State) : exec (.gleave d a b x p n k) s = execGleave d a b x p n k s := rfl
@[simp] theorem exec_cred (d : BitVec 5) (a : BitVec 5) (b : BitVec 5) (x : BitVec 1) (p : BitVec 2) (n : BitVec 1) (k : BitVec 1) (s : State) : exec (.cred d a b x p n k) s = execCred d a b x p n k s := rfl
@[simp] theorem exec_cbcast (d : BitVec 5) (a : BitVec 5) (b : BitVec 5) (x : BitVec 1) (p : BitVec 2) (n : BitVec 1) (k : BitVec 1) (s : State) : exec (.cbcast d a b x p n k) s = execCbcast d a b x p n k s := rfl
@[simp] theorem exec_cgath (d : BitVec 5) (a : BitVec 5) (b : BitVec 5) (x : BitVec 1) (p : BitVec 2) (n : BitVec 1) (k : BitVec 1) (s : State) : exec (.cgath d a b x p n k) s = execCgath d a b x p n k s := rfl
@[simp] theorem exec_crscat (d : BitVec 5) (a : BitVec 5) (b : BitVec 5) (x : BitVec 1) (p : BitVec 2) (n : BitVec 1) (k : BitVec 1) (s : State) : exec (.crscat d a b x p n k) s = execCrscat d a b x p n k s := rfl
@[simp] theorem exec_ca2a (d : BitVec 5) (a : BitVec 5) (b : BitVec 5) (x : BitVec 1) (p : BitVec 2) (n : BitVec 1) (k : BitVec 1) (s : State) : exec (.ca2a d a b x p n k) s = execCa2a d a b x p n k s := rfl
@[simp] theorem exec_semadd (a : BitVec 5) (b : BitVec 5) (s : State) : exec (.semadd a b) s = execSemadd a b s := rfl
@[simp] theorem exec_semset (a : BitVec 5) (b : BitVec 5) (s : State) : exec (.semset a b) s = execSemset a b s := rfl
@[simp] theorem exec_semrd (d : BitVec 5) (a : BitVec 5) (s : State) : exec (.semrd d a) s = execSemrd d a s := rfl
@[simp] theorem exec_semwait (a : BitVec 5) (b : BitVec 5) (s : State) : exec (.semwait a b) s = execSemwait a b s := rfl
@[simp] theorem exec_semwaitN (a : BitVec 5) (b : BitVec 5) (c : BitVec 6) (s : State) : exec (.semwaitN a b c) s = execSemwaitN a b c s := rfl
@[simp] theorem exec_circ (d : BitVec 5) (a : BitVec 5) (b : BitVec 5) (x : BitVec 1) (p : BitVec 2) (n : BitVec 1) (k : BitVec 1) (s : State) : exec (.circ d a b x p n k) s = execCirc d a b x p n k s := rfl
@[simp] theorem exec_circT (d : BitVec 5) (a : BitVec 5) (b : BitVec 5) (x : BitVec 1) (p : BitVec 2) (n : BitVec 1) (k : BitVec 1) (s : State) : exec (.circT d a b x p n k) s = execCircT d a b x p n k s := rfl
@[simp] theorem exec_famwr (d : BitVec 5) (a : BitVec 5) (b : BitVec 5) (x : BitVec 1) (p : BitVec 2) (n : BitVec 1) (k : BitVec 1) (s : State) : exec (.famwr d a b x p n k) s = execFamwr d a b x p n k s := rfl
@[simp] theorem exec_pgate (d : BitVec 5) (a : BitVec 5) (b : BitVec 5) (x : BitVec 1) (p : BitVec 2) (n : BitVec 1) (k : BitVec 1) (s : State) : exec (.pgate d a b x p n k) s = execPgate d a b x p n k s := rfl
@[simp] theorem exec_pwake (d : BitVec 5) (a : BitVec 5) (b : BitVec 5) (x : BitVec 1) (p : BitVec 2) (n : BitVec 1) (k : BitVec 1) (s : State) : exec (.pwake d a b x p n k) s = execPwake d a b x p n k s := rfl
@[simp] theorem exec_ext (im : BitVec 26) (s : State) : exec (.ext im) s = execExt im s := rfl
@[simp] theorem exec_lateStoreFault (key : Nat) (id : Nat) (s : State) : exec (.lateStoreFault key id) s = execLateStoreFault key id s := rfl
@[simp] theorem exec_deferredFault (key : Nat) (s : State) : exec (.deferredFault key) s = execDeferredFault key s := rfl
@[simp] theorem exec_budgetExpiry (key : Nat) (s : State) : exec (.budgetExpiry key) s = execBudgetExpiry key s := rfl
@[simp] theorem exec_waittimeExpiry (key : Nat) (s : State) : exec (.waittimeExpiry key) s = execWaittimeExpiry key s := rfl
@[simp] theorem exec_messageArrival (id : Nat) (s : State) : exec (.messageArrival id) s = execMessageArrival id s := rfl
@[simp] theorem exec_channelSelection (core : Nat) (s : State) : exec (.channelSelection core) s = execChannelSelection core s := rfl
@[simp] theorem exec_spillActivation (core : Nat) (s : State) : exec (.spillActivation core) s = execSpillActivation core s := rfl
@[simp] theorem exec_replayActivation (core : Nat) (s : State) : exec (.replayActivation core) s = execReplayActivation core s := rfl
@[simp] theorem exec_atomicHandlerActivation (core : Nat) (s : State) : exec (.atomicHandlerActivation core) s = execAtomicHandlerActivation core s := rfl
@[simp] theorem exec_loadReply (key : Nat) (id : Nat) (s : State) : exec (.loadReply key id) s = execLoadReply key id s := rfl
@[simp] theorem exec_storeAck (key : Nat) (id : Nat) (s : State) : exec (.storeAck key id) s = execStoreAck key id s := rfl
@[simp] theorem exec_forwardingEntryExpiry (core : Nat) (n : Nat) (s : State) : exec (.forwardingEntryExpiry core n) s = execForwardingEntryExpiry core n s := rfl
@[simp] theorem exec_alignRelease (key : Nat) (s : State) : exec (.alignRelease key) s = execAlignRelease key s := rfl
@[simp] theorem exec_channelControlPacket (id : Nat) (s : State) : exec (.channelControlPacket id) s = execChannelControlPacket id s := rfl
@[simp] theorem exec_remoteLoad (id : Nat) (s : State) : exec (.remoteLoad id) s = execRemoteLoad id s := rfl
@[simp] theorem exec_remoteStore (id : Nat) (s : State) : exec (.remoteStore id) s = execRemoteStore id s := rfl
@[simp] theorem exec_storeBufferDrain (core : Nat) (n : Nat) (s : State) : exec (.storeBufferDrain core n) s = execStoreBufferDrain core n s := rfl
@[simp] theorem exec_l2StoreAccept (id : Nat) (s : State) : exec (.l2StoreAccept id) s = execL2StoreAccept id s := rfl
@[simp] theorem exec_translationWalk (cluster : Nat) (asid : BitVec 16) (va : BitVec 52) (s : State) : exec (.translationWalk cluster asid va) s = execTranslationWalk cluster asid va s := rfl
@[simp] theorem exec_regionReclaim (core : Nat) (n : Nat) (s : State) : exec (.regionReclaim core n) s = execRegionReclaim core n s := rfl
@[simp] theorem exec_builtinAtomic (id : Nat) (s : State) : exec (.builtinAtomic id) s = execBuiltinAtomic id s := rfl
@[simp] theorem exec_atomicReply (key : Nat) (id : Nat) (s : State) : exec (.atomicReply key id) s = execAtomicReply key id s := rfl
@[simp] theorem exec_cohLocalRead (pa : Nat) (s : State) : exec (.cohLocalRead pa) s = execCohLocalRead pa s := rfl
@[simp] theorem exec_cohLocalWrite (pa : Nat) (s : State) : exec (.cohLocalWrite pa) s = execCohLocalWrite pa s := rfl
@[simp] theorem exec_cohGets (pa : Nat) (member : Nat) (s : State) : exec (.cohGets pa member) s = execCohGets pa member s := rfl
@[simp] theorem exec_cohGetx (pa : Nat) (member : Nat) (s : State) : exec (.cohGetx pa member) s = execCohGetx pa member s := rfl
@[simp] theorem exec_cohEviction (pa : Nat) (member : Nat) (kind : Nat) (data : VWord) (s : State) : exec (.cohEviction pa member kind data) s = execCohEviction pa member kind data s := rfl
@[simp] theorem exec_cohProbe (pa : Nat) (kind : Nat) (s : State) : exec (.cohProbe pa kind) s = execCohProbe pa kind s := rfl
@[simp] theorem exec_cohTransactionComplete (pa : Nat) (written : Bool) (data : VWord) (s : State) : exec (.cohTransactionComplete pa written data) s = execCohTransactionComplete pa written data s := rfl
@[simp] theorem exec_probeTimeout (pa : Nat) (member : Nat) (s : State) : exec (.probeTimeout pa member) s = execProbeTimeout pa member s := rfl
@[simp] theorem exec_xinv (lo : Word) (hi : Word) (s : State) : exec (.xinv lo hi) s = execXinv lo hi s := rfl
@[simp] theorem exec_xinvComplete (s : State) : exec .xinvComplete s = execXinvComplete s := rfl
@[simp] theorem exec_pageMove (pa : Nat) (s : State) : exec (.pageMove pa) s = execPageMove pa s := rfl
@[simp] theorem exec_pageMoveCheck (s : State) : exec .pageMoveCheck s = execPageMoveCheck s := rfl
@[simp] theorem exec_transientDeadline (k : Nat) (s : State) : exec (.transientDeadline k) s = execTransientDeadline k s := rfl
@[simp] theorem exec_transientRearm (k : Nat) (s : State) : exec (.transientRearm k) s = execTransientRearm k s := rfl
@[simp] theorem exec_deadlineWrite (k : Nat) (v : Word) (s : State) : exec (.deadlineWrite k v) s = execDeadlineWrite k v s := rfl
@[simp] theorem exec_remapError (tower : Nat) (both : Bool) (base : Nat) (extent : Nat) (s : State) : exec (.remapError tower both base extent) s = execRemapError tower both base extent s := rfl
@[simp] theorem exec_refreshPreemption (tower : Nat) (s : State) : exec (.refreshPreemption tower) s = execRefreshPreemption tower s := rfl
@[simp] theorem exec_memoryEccError (source : Nat) (unit : Nat) (addr : Nat) (s : State) : exec (.memoryEccError source unit addr) s = execMemoryEccError source unit addr s := rfl
@[simp] theorem exec_rasFoldExpiry (source : Nat) (unit : Nat) (s : State) : exec (.rasFoldExpiry source unit) s = execRasFoldExpiry source unit s := rfl
@[simp] theorem exec_copySchedule (cluster : Nat) (s : State) : exec (.copySchedule cluster) s = execCopySchedule cluster s := rfl
@[simp] theorem exec_copyChunk (core : Nat) (slot : Nat) (s : State) : exec (.copyChunk core slot) s = execCopyChunk core slot s := rfl
@[simp] theorem exec_copyBeat (core : Nat) (slot : Nat) (n : Nat) (s : State) : exec (.copyBeat core slot n) s = execCopyBeat core slot n s := rfl
@[simp] theorem exec_cancelAtEngine (core : Nat) (slot : Nat) (s : State) : exec (.cancelAtEngine core slot) s = execCancelAtEngine core slot s := rfl
@[simp] theorem exec_opTerminal (core : Nat) (slot : Nat) (s : State) : exec (.opTerminal core slot) s = execOpTerminal core slot s := rfl
@[simp] theorem exec_engineInboxEntry (core : Nat) (slot : Nat) (s : State) : exec (.engineInboxEntry core slot) s = execEngineInboxEntry core slot s := rfl
@[simp] theorem exec_laneDispatch (engine : Nat) (lane : Nat) (s : State) : exec (.laneDispatch engine lane) s = execLaneDispatch engine lane s := rfl
@[simp] theorem exec_migration (engine : Nat) (core : Nat) (slot : Nat) (s : State) : exec (.migration engine core slot) s = execMigration engine core slot s := rfl
@[simp] theorem exec_mmxCompletion (engine : Nat) (s : State) : exec (.mmxCompletion engine) s = execMmxCompletion engine s := rfl
@[simp] theorem exec_phldExecution (engine : Nat) (s : State) : exec (.phldExecution engine) s = execPhldExecution engine s := rfl
@[simp] theorem exec_phdecExecution (engine : Nat) (s : State) : exec (.phdecExecution engine) s = execPhdecExecution engine s := rfl
@[simp] theorem exec_backBankLoad (engine : Nat) (s : State) : exec (.backBankLoad engine) s = execBackBankLoad engine s := rfl
@[simp] theorem exec_phresExecution (engine : Nat) (s : State) : exec (.phresExecution engine) s = execPhresExecution engine s := rfl
@[simp] theorem exec_phswpExecution (engine : Nat) (s : State) : exec (.phswpExecution engine) s = execPhswpExecution engine s := rfl
@[simp] theorem exec_phdropExecution (engine : Nat) (s : State) : exec (.phdropExecution engine) s = execPhdropExecution engine s := rfl
@[simp] theorem exec_tcopyBpExecution (engine : Nat) (s : State) : exec (.tcopyBpExecution engine) s = execTcopyBpExecution engine s := rfl
@[simp] theorem exec_tcopyAccExecution (engine : Nat) (s : State) : exec (.tcopyAccExecution engine) s = execTcopyAccExecution engine s := rfl
@[simp] theorem exec_trimApply (engine : Nat) (s : State) : exec (.trimApply engine) s = execTrimApply engine s := rfl
@[simp] theorem exec_deckStateApply (engine : Nat) (deck : Nat) (s : State) : exec (.deckStateApply engine deck) s = execDeckStateApply engine deck s := rfl
@[simp] theorem exec_probeCalibration (engine : Nat) (deck : Nat) (mebc : BitVec 4) (nprobe : BitVec 16) (s : State) : exec (.probeCalibration engine deck mebc nprobe) s = execProbeCalibration engine deck mebc nprobe s := rfl
@[simp] theorem exec_matSwitchTimeout (engine : Nat) (lane : Nat) (s : State) : exec (.matSwitchTimeout engine lane) s = execMatSwitchTimeout engine lane s := rfl
@[simp] theorem exec_barrierEvent (id : Nat) (s : State) : exec (.barrierEvent id) s = execBarrierEvent id s := rfl
@[simp] theorem exec_parentFlip (id : Nat) (s : State) : exec (.parentFlip id) s = execParentFlip id s := rfl
@[simp] theorem exec_groupExchangeRound (group : Nat) (rank : Nat) (pay : Word) (err : Bool) (wdn : Nat) (far : Option (Nat × Nat × FarWord)) (s : State) : exec (.groupExchangeRound group rank pay err wdn far) s = execGroupExchangeRound group rank pay err wdn far s := rfl
@[simp] theorem exec_groupWithdrawal (group : Nat) (core : Nat) (s : State) : exec (.groupWithdrawal group core) s = execGroupWithdrawal group core s := rfl
@[simp] theorem exec_collectiveStart (group : Nat) (s : State) : exec (.collectiveStart group) s = execCollectiveStart group s := rfl
@[simp] theorem exec_collectiveComplete (group : Nat) (far : List (Nat × Nat × List Byte)) (s : State) : exec (.collectiveComplete group far) s = execCollectiveComplete group far s := rfl
@[simp] theorem exec_collectiveDrainTimeout (group : Nat) (core : Nat) (s : State) : exec (.collectiveDrainTimeout group core) s = execCollectiveDrainTimeout group core s := rfl
@[simp] theorem exec_packetArrival (src : Nat) (seq : Nat) (body : FabIn) (s : State) : exec (.packetArrival src seq body) s = execPacketArrival src seq body s := rfl
@[simp] theorem exec_packetAck (id : Nat) (answer : FabAns) (s : State) : exec (.packetAck id answer) s = execPacketAck id answer s := rfl
@[simp] theorem exec_packetRetry (id : Nat) (s : State) : exec (.packetRetry id) s = execPacketRetry id s := rfl
@[simp] theorem exec_packetLifetimeExpiry (id : Nat) (s : State) : exec (.packetLifetimeExpiry id) s = execPacketLifetimeExpiry id s := rfl
@[simp] theorem exec_deadTagExpiry (n : Nat) (s : State) : exec (.deadTagExpiry n) s = execDeadTagExpiry n s := rfl
@[simp] theorem exec_circExecution (core : Nat) (slot : Nat) (s : State) : exec (.circExecution core slot) s = execCircExecution core slot s := rfl
@[simp] theorem exec_setupRequest (port : Nat) (phys : Nat) (farPort : Nat) (asid : BitVec 16) (s : State) : exec (.setupRequest port phys farPort asid) s = execSetupRequest port phys farPort asid s := rfl
@[simp] theorem exec_setupAnswer (port : Nat) (ack : Bool) (far : Bool) (s : State) : exec (.setupAnswer port ack far) s = execSetupAnswer port ack far s := rfl
@[simp] theorem exec_setupBackoffExpiry (port : Nat) (s : State) : exec (.setupBackoffExpiry port) s = execSetupBackoffExpiry port s := rfl
@[simp] theorem exec_circuitTrained (port : Nat) (skew : Nat) (s : State) : exec (.circuitTrained port skew) s = execCircuitTrained port skew s := rfl
@[simp] theorem exec_teardownReceived (port : Nat) (s : State) : exec (.teardownReceived port) s = execTeardownReceived port s := rfl
@[simp] theorem exec_circTExecution (core : Nat) (slot : Nat) (s : State) : exec (.circTExecution core slot) s = execCircTExecution core slot s := rfl
@[simp] theorem exec_famwrExecution (core : Nat) (slot : Nat) (s : State) : exec (.famwrExecution core slot) s = execFamwrExecution core slot s := rfl
@[simp] theorem exec_drainMarkerAck (core : Nat) (slot : Nat) (s : State) : exec (.drainMarkerAck core slot) s = execDrainMarkerAck core slot s := rfl
@[simp] theorem exec_pgateExecution (core : Nat) (slot : Nat) (s : State) : exec (.pgateExecution core slot) s = execPgateExecution core slot s := rfl
@[simp] theorem exec_pwakeExecution (core : Nat) (slot : Nat) (s : State) : exec (.pwakeExecution core slot) s = execPwakeExecution core slot s := rfl
@[simp] theorem exec_laserLoss (m : Nat) (s : State) : exec (.laserLoss m) s = execLaserLoss m s := rfl
@[simp] theorem exec_laserRelight (m : Nat) (s : State) : exec (.laserRelight m) s = execLaserRelight m s := rfl
@[simp] theorem exec_tkillPurge (n : Nat) (core : Nat) (s : State) : exec (.tkillPurge n core) s = execTkillPurge n core s := rfl
@[simp] theorem exec_tkillComplete (n : Nat) (s : State) : exec (.tkillComplete n) s = execTkillComplete n s := rfl
@[simp] theorem exec_jobSwitch (v : Word) (s : State) : exec (.jobSwitch v) s = execJobSwitch v s := rfl
@[simp] theorem exec_jobSwitchComplete (s : State) : exec .jobSwitchComplete s = execJobSwitchComplete s := rfl
@[simp] theorem exec_launch (v : Word) (s : State) : exec (.launch v) s = execLaunch v s := rfl
@[simp] theorem exec_jobend (v : Word) (s : State) : exec (.jobend v) s = execJobend v s := rfl
@[simp] theorem exec_activeMessageBlock (page : Nat) (whole : Bool) (ep : Bool) (blocks : List (Vector Word 8)) (s : State) : exec (.activeMessageBlock page whole ep blocks) s = execActiveMessageBlock page whole ep blocks s := rfl
@[simp] theorem exec_memoryWindowWrite (off : Nat) (ep : Bool) (bytes : List Byte) (s : State) : exec (.memoryWindowWrite off ep bytes) s = execMemoryWindowWrite off ep bytes s := rfl
@[simp] theorem exec_memoryWindowRead (off : Nat) (len : Nat) (s : State) : exec (.memoryWindowRead off len) s = execMemoryWindowRead off len s := rfl
@[simp] theorem exec_semUnitOp (id : Nat) (s : State) : exec (.semUnitOp id) s = execSemUnitOp id s := rfl
@[simp] theorem exec_semvalWrite (n : Nat) (v : Word) (s : State) : exec (.semvalWrite n v) s = execSemvalWrite n v s := rfl
@[simp] theorem exec_semincWrite (n : Nat) (v : Word) (s : State) : exec (.semincWrite n v) s = execSemincWrite n v s := rfl
@[simp] theorem exec_msixUnmask (vec : Nat) (s : State) : exec (.msixUnmask vec) s = execMsixUnmask vec s := rfl
@[simp] theorem exec_checkpoint (v : Word) (s : State) : exec (.checkpoint v) s = execCheckpoint v s := rfl
@[simp] theorem exec_checkpointComplete (ok : Bool) (s : State) : exec (.checkpointComplete ok) s = execCheckpointComplete ok s := rfl
@[simp] theorem exec_packageReset (s : State) : exec .packageReset s = execPackageReset s := rfl
@[simp] theorem exec_pcieLinkTraining (rate : Nat) (width : Nat) (s : State) : exec (.pcieLinkTraining rate width) s = execPcieLinkTraining rate width s := rfl
@[simp] theorem exec_monitorSample (deck : Nat) (temp : BitVec 16) (samples : List (Nat × BitVec 12 × List Int)) (s : State) : exec (.monitorSample deck temp samples) s = execMonitorSample deck temp samples s := rfl
@[simp] theorem exec_tempRecordTimer (deck : Nat) (s : State) : exec (.tempRecordTimer deck) s = execTempRecordTimer deck s := rfl
@[simp] theorem exec_ringWrite (deck : Nat) (bank : Nat) (ring : Nat) (v : Word) (s : State) : exec (.ringWrite deck bank ring v) s = execRingWrite deck bank ring v s := rfl
@[simp] theorem exec_ringmoveWrite (deck : Nat) (bank : Nat) (v : Word) (s : State) : exec (.ringmoveWrite deck bank v) s = execRingmoveWrite deck bank v s := rfl
@[simp] theorem exec_ringMoveApply (deck : Nat) (bank : Nat) (s : State) : exec (.ringMoveApply deck bank) s = execRingMoveApply deck bank s := rfl
@[simp] theorem exec_wearMove (deck : Nat) (bank : Nat) (spare : Nat) (heater : BitVec 12) (s : State) : exec (.wearMove deck bank spare heater) s = execWearMove deck bank spare heater s := rfl
@[simp] theorem exec_deckctlWrite (deck : Nat) (v : Word) (s : State) : exec (.deckctlWrite deck v) s = execDeckctlWrite deck v s := rfl
@[simp] theorem exec_powerAlert (watts : BitVec 32) (s : State) : exec (.powerAlert watts) s = execPowerAlert watts s := rfl
@[simp] theorem exec_thringWrite (v : Word) (s : State) : exec (.thringWrite v) s = execThringWrite v s := rfl
@[simp] theorem exec_scrub (deck : Nat) (code : Nat) (bad : Bool) (s : State) : exec (.scrub deck code bad) s = execScrub deck code bad s := rfl
@[simp] theorem exec_bootgo (v : Word) (s : State) : exec (.bootgo v) s = execBootgo v s := rfl
@[simp] theorem exec_firmwareReady (s : State) : exec .firmwareReady s = execFirmwareReady s := rfl
@[simp] theorem exec_svnburn (v : Word) (s : State) : exec (.svnburn v) s = execSvnburn v s := rfl
@[simp] theorem exec_attestationGo (v : Word) (s : State) : exec (.attestationGo v) s = execAttestationGo v s := rfl
@[simp] theorem exec_attestationDone (s : State) : exec .attestationDone s = execAttestationDone s := rfl
@[simp] theorem exec_readClear (off : Nat) (s : State) : exec (.readClear off) s = execReadClear off s := rfl
@[simp] theorem exec_registerWrite (off : Nat) (ep : Bool) (v : Word) (s : State) : exec (.registerWrite off ep v) s = execRegisterWrite off ep v s := rfl
@[simp] theorem exec_illegalInstruction (key : Nat) (s : State) : exec (.illegalInstruction key) s = execIllegalInstruction key s := rfl
@[simp] theorem exec_instructionFetchFault (key : Nat) (s : State) : exec (.instructionFetchFault key) s = execInstructionFetchFault key s := rfl
@[simp] theorem exec_laserModuleRelit (m : Nat) (s : State) : exec (.laserModuleRelit m) s = execLaserModuleRelit m s := rfl

end Sys2Proof.Laws
end

