-- ==== Sys2Proof/Laws/Going.lean ====
section
/-!
SUPPORT. Registers read after they are written, and what an instruction that ends, waits or answers does to the state.
-/
namespace Sys2Proof.Laws

open Sys2Proof.Machine

/-- A general register after one is written: g0 reads zero. -/
theorem rdG_wrG (c : Ctx) (d r : Reg) (x : Word) : rdG (wrG c d x) r = if r = d ∧ d ≠ 0 then x else rdG c r := by
  unfold rdG wrG
  by_cases hr : r = 0
  · subst hr
    by_cases hd : d = 0
    · simp [hd]
    · have : ¬(0 = d) := fun e => hd e.symm
      simp_all
  · by_cases hd : d = 0
    · simp [hd]
    · simp only [hr, hd, if_false, ne_eq, not_false_eq_true, and_true]
      by_cases h : r = d
      · subst h; simp
      · have : d.toNat ≠ r.toNat := fun e => h (BitVec.eq_of_toNat_eq e.symm)
        simp [h, this]
/-- A vector register after one is written. -/
theorem rdV_wrV (c : Ctx) (d r : Reg) (x : VWord) : rdV (wrV c d x) r = if r = d then x else rdV c r := by
  unfold rdV wrV
  by_cases h : r = d
  · subst h; simp
  · have : d.toNat ≠ r.toNat := fun e => h (BitVec.eq_of_toNat_eq e.symm)
    simp [h, this]
/-- A mask register after one is written: m0 reads all ones. -/
theorem rdM_wrM (c : Ctx) (d r : Fld3) (x : Word) : rdM (wrM c d x) r = if r = d ∧ d ≠ 0 then x else rdM c r := by
  unfold rdM wrM
  by_cases hr : r = 0
  · subst hr
    by_cases hd : d = 0
    · simp [hd]
    · have : ¬(0 = d) := fun e => hd e.symm
      simp_all
  · by_cases hd : d = 0
    · simp [hd]
    · simp only [hr, hd, if_false, ne_eq, not_false_eq_true, and_true]
      by_cases h : r = d
      · subst h; simp
      · have : d.toNat ≠ r.toNat := fun e => h (BitVec.eq_of_toNat_eq e.symm)
        simp [h, this]

/-- Going on to the next place changes the place alone: the PC, the delay slots and the replay. -/
theorem advance_frame (c : Ctx) : advance c = { c with pc := (advance c).pc, delay := (advance c).delay, rpt := (advance c).rpt } := by
  unfold advance; grind
/-- An instruction that ends leaves every register of its context. -/
theorem ended_registers (c : Ctx) : (advance (settled c)).g = c.g ∧ (advance (settled c)).v = c.v ∧ (advance (settled c)).m = c.m ∧
    (advance (settled c)).q = c.q ∧ (advance (settled c)).w = c.w ∧ (advance (settled c)).fflags = c.fflags ∧
    (advance (settled c)).phase = c.phase := by
  rw [advance_frame]; exact ⟨rfl, rfl, rfl, rfl, rfl, rfl, rfl⟩
/-- An instruction that ends with a change of its context changes that context alone. -/
theorem retireWith_frame (s : State) (f : Ctx → Ctx) : retireWith s f = { s with ctxs := (retireWith s f).ctxs } := rfl
/-- The context at work after an instruction ends with a change of it. -/
@[simp] theorem retireWith_me (s : State) (f : Ctx → Ctx) : (retireWith s f).me = advance (settled (f s.me)) := by
  simp [retireWith]
/-- Another context after an instruction ends. -/
theorem retireWith_ctx (s : State) (f : Ctx → Ctx) (k : Nat) (h : k ≠ s.sched.cur) : (retireWith s f).ctx k = s.ctx k := by
  simp [retireWith, Ne.symm h]
/-- Memory after an instruction ends. -/
@[simp] theorem retireWith_mem (s : State) (f : Ctx → Ctx) : (retireWith s f).mem = s.mem := rfl
/-- The context at work after an instruction ends. -/
@[simp] theorem retire_me (s : State) : (retire s).me = advance (settled s.me) := by simp [retire]
/-- Another context after an instruction ends. -/
theorem retire_ctx (s : State) (k : Nat) (h : k ≠ s.sched.cur) : (retire s).ctx k = s.ctx k := by simp [retire, Ne.symm h]
/-- Memory after an instruction ends. -/
@[simp] theorem retire_mem (s : State) : (retire s).mem = s.mem := rfl
/-- An instruction that ends with a value for a general register answers a next state, in which that register holds it, g0 apart,
and nothing else of the context but its place and its wait has changed. -/
theorem setG_next (s : State) (d : Reg) (x : Word) : ∃ t, setG s d x = .next t ∧ t = { s with ctxs := t.ctxs } ∧
    (∀ k, k ≠ s.sched.cur → t.ctx k = s.ctx k) ∧ (∀ r, rdG t.me r = if r = d ∧ d ≠ 0 then x else rdG s.me r) ∧
    t.me = { advance (settled s.me) with g := t.me.g } := by
  refine ⟨_, rfl, rfl, fun k h => retireWith_ctx s _ k h, fun r => ?_, ?_⟩
  · rw [retireWith_me, ← rdG_wrG]
    unfold rdG; rw [(ended_registers _).1]
  · rw [retireWith_me]
    unfold wrG; split
    · rfl
    · unfold advance settled; grind
/-- A wait that only the budget bounds changes the context at work alone. -/
theorem holdBack_me (s : State) : (holdBack s).me =
    { s.me with waiting := true, blocking := false, waited := if s.me.waiting && !s.me.blocking then s.me.waited else 0 } := by simp [holdBack]

end Sys2Proof.Laws
end

