-- ==== Sys2Proof/Laws/Optic.lean ====
section
/-!
SUPPORT. What a free value held within a condition keeps.
-/
namespace Sys2Proof.Laws

open Sys2Proof.Machine

/-- The least number below a bound that meets a condition meets it. -/
theorem firstBelow_ok (ok : Nat → Bool) (n k : Nat) (h : firstBelow ok n = some k) : ok k = true := by
  induction n with
  | zero => cases h
  | succ n ih =>
    unfold firstBelow at h
    grind
/-- Where some number below the bound meets a condition, the search finds one. -/
theorem firstBelow_isSome (ok : Nat → Bool) (n k : Nat) (hk : k < n) (h : ok k = true) : (firstBelow ok n).isSome = true := by
  induction n with
  | zero => omega
  | succ n ih =>
    unfold firstBelow
    grind
/-- A free value is within its condition wherever some number below the bound is. -/
theorem freeWithin_ok (ok : Nat → Bool) (n free k : Nat) (hk : k < n) (h : ok k = true) : ok (freeWithin ok n free) = true := by
  unfold freeWithin
  split
  · assumption
  · obtain ⟨j, hj⟩ := Option.isSome_iff_exists.mp (firstBelow_isSome ok n k hk h)
    rw [hj]; exact firstBelow_ok ok n j hj

end Sys2Proof.Laws
end

