-- ==== Sys2Proof/Tests/Slice0.lean ====
section
/-!
SUPPORT. The model's own tests: every row's word, written from the encodings of R47 to R70, reads as its instruction; words that break a
row's limits are refused; single steps on small states; and states that meet the hypotheses of the obligations.
-/
namespace Sys2Proof.Tests

open Sys2Proof.Machine Sys2Proof.Claims

section
set_option Elab.async false

/-! ### Words (R30, R47 to R70) -/

/-- Every word of the list decodes to the instruction beside it. -/
def ReadsAs (l : List (IWord × Instr)) : Prop := l.map (fun p => decode p.1) = l.map (fun p => .ok p.2)

theorem test_decode_integer_1 : ReadsAs [
  (0x06CDC800, .add 22 13 25),
  (0x06CDC801, .sub 22 13 25),
  (0x06CDC802, .and 22 13 25),
  (0x06CDC803, .or 22 13 25),
  (0x06CDC804, .xor 22 13 25),
  (0x06CDC805, .andn 22 13 25),
  (0x06CDC806, .nor 22 13 25),
  (0x06CDC807, .xnor 22 13 25),
  (0x06CDC808, .slt 22 13 25),
  (0x06CDC809, .sltn 22 13 25),
  (0x06CDC80A, .min 22 13 25),
  (0x06CDC80B, .max 22 13 25),
  (0x06CDC80C, .minn 22 13 25),
  (0x06CDC80D, .maxn 22 13 25),
  (0x06CDC810, .sll 22 13 25),
  (0x06CDC811, .srl 22 13 25)] := rfl
theorem test_decode_integer_2 : ReadsAs [
  (0x06CDC812, .sra 22 13 25),
  (0x06CDC813, .ror 22 13 25),
  (0x06CDC818, .mul 22 13 25),
  (0x06CDC819, .mulh 22 13 25),
  (0x06CDC81A, .mulhn 22 13 25),
  (0x06CDC81C, .div 22 13 25),
  (0x06CDC81D, .divn 22 13 25),
  (0x06CDC81E, .rem 22 13 25),
  (0x06CDC81F, .remn 22 13 25),
  (0x06CD0020, .clz 22 13),
  (0x06CD0021, .ctz 22 13),
  (0x06CD0022, .popc 22 13),
  (0x06CD0024, .sxb 22 13),
  (0x06CD0025, .sxh 22 13),
  (0x06CD0026, .sxw 22 13),
  (0x06C50028, .qrd 22 5)] := rfl
theorem test_decode_integer_3 : ReadsAs [
  (0x04C0C829, .wwr 6 25),
  (0x0400002A, .wclr)] := rfl
theorem test_decode_immediate : ReadsAs [
  (0x0ACDA35C, .addi 22 13 41820),
  (0x0ECDA35C, .andi 22 13 41820),
  (0x12CDA35C, .ori 22 13 41820),
  (0x16CDA35C, .xori 22 13 41820),
  (0x1ACDA35C, .slti 22 13 41820),
  (0x1ECDA35C, .sltni 22 13 41820),
  (0x26CDA35C, .muli 22 13 41820),
  (0x2AC0A35C, .movi 22 41820),
  (0x2ECDA35C, .movh 22 13 41820),
  (0x22CD0002, .slli 22 13 2),
  (0x22CD0102, .srli 22 13 2),
  (0x22CD0202, .srai 22 13 2),
  (0x22CD0302, .rori 22 13 2)] := rfl
theorem test_decode_memory : ReadsAs [
  (0x36CDA35C, .addpi 22 13 41820),
  (0x40B941A5, .ldB 5 25 2 421),
  (0x44B941A5, .ldBn 5 25 2 421),
  (0x48B941A5, .ldH 5 25 2 421),
  (0x4CB941A5, .ldHn 5 25 2 421),
  (0x50B941A5, .ldW 5 25 2 421),
  (0x54B941A5, .ldWn 5 25 2 421),
  (0x58B941A5, .ldD 5 25 2 421),
  (0x5CB941A5, .stB 5 25 2 421),
  (0x60B941A5, .stH 5 25 2 421),
  (0x64B941A5, .stW 5 25 2 421),
  (0x68B941A5, .stD 5 25 2 421),
  (0x6CB941A5, .vld 5 25 2 421),
  (0x70B941A5, .vst 5 25 2 421)] := rfl
theorem test_decode_pointer : ReadsAs [
  (0x32CDC800, .addp 22 13 25),
  (0x32CDC801, .subp 22 13 25),
  (0x32CD0002, .tagget 22 13),
  (0x32CDC803, .tagset 22 13 25),
  (0x32CD0004, .pclr 22 13)] := rfl
theorem test_decode_memory_extra : ReadsAs [
  (0x76CD0025, .ldAcq 22 13 2 1 1),
  (0x740DC861, .stRel 13 25 2 1),
  (0x752D0083, .vldf 9 13 3),
  (0x752D00C3, .vstf 9 13 3),
  (0x740D0110, .pref 13 1),
  (0x740DC951, .prefResPin 13 25 1),
  (0x740DC950, .prefResUnpin 13 25 1),
  (0x740001A1, .fence 2 1),
  (0x740DC9C0, .l1inv 13 25),
  (0x740DCA00, .l1wb 13 25)] := rfl
theorem test_decode_atomic : ReadsAs [
  (0x7ACDC818, .atomAdd 22 13 25 1 1),
  (0x7ACDC858, .atomAnd 22 13 25 1 1),
  (0x7ACDC898, .atomOr 22 13 25 1 1),
  (0x7ACDC8D8, .atomXor 22 13 25 1 1),
  (0x7ACDC918, .atomSwap 22 13 25 1 1),
  (0x7ACDC958, .atomCas 22 13 25 1),
  (0x7ACDC998, .atomMin 22 13 25 1 1),
  (0x7ACDC9D8, .atomMax 22 13 25 1 1),
  (0x7ACDCA18, .atomMinn 22 13 25 1 1),
  (0x7ACDCA58, .atomMaxn 22 13 25 1 1),
  (0x7ACDCA88, .atomFadd 22 13 25 0 1)] := rfl
theorem test_decode_control : ReadsAs [
  (0x81B90016, .brEq 13 25 22),
  (0x81B92016, .brNe 13 25 22),
  (0x81B94016, .brLt 13 25 22),
  (0x81B96016, .brGe 13 25 22),
  (0x81B98016, .brLtn 13 25 22),
  (0x81B9A016, .brGen 13 25 22),
  (0x84000016, .j 22),
  (0x88000016, .jl 22),
  (0x914AF520, .rpt 5 43 6 5 1),
  (0x9410AB14, .waitc 1 2 43 5),
  (0xF800A35C, .ext 41820)] := rfl
theorem test_decode_jump_register : ReadsAs [
  (0x8C0D0000, .jr 13),
  (0x8ECD0001, .jlr 22 13)] := rfl
theorem test_decode_message : ReadsAs [
  (0x98000000, .send),
  (0x98000040, .sendC),
  (0x980DC880, .start 13 25),
  (0x980DC8C0, .spawn 13 25),
  (0x98000100, .endAct),
  (0x98000140, .yield),
  (0x980D0180, .migr 13),
  (0x980001C0, .align),
  (0x980D0200, .chen 13),
  (0x980D0240, .chdis 13),
  (0x980DCA80, .chpri 13 25),
  (0x9ACDCAC0, .ralloc 22 13 25),
  (0x980D0300, .rfree 13),
  (0x980D0340, .tkill 13)] := rfl
theorem test_decode_system : ReadsAs [
  (0x9EC00020, .sysrd 22 2),
  (0x9C0D0021, .syswr 13 2),
  (0x9C0002B2, .trap 43),
  (0x9C0D0003, .irq 13)] := rfl
theorem test_decode_vector_arithmetic_1 : ReadsAs [
  (0xA2CDCBA0, .vadd 22 13 25 3 5),
  (0xA2CDCBA1, .vsub 22 13 25 3 5),
  (0xA2CDCBA2, .vmul 22 13 25 3 5),
  (0xA2CDCBA3, .vmin 22 13 25 3 5),
  (0xA2CDCBA4, .vmax 22 13 25 3 5),
  (0xA2CD03A5, .vabs 22 13 3 5),
  (0xA2CD03A6, .vneg 22 13 3 5),
  (0xA2CDCB47, .vdiv 22 13 25 3 2),
  (0xA2CD0348, .vsqrt 22 13 3 2),
  (0xA2CDCBA9, .vminn 22 13 25 3 5),
  (0xA2CDCBAA, .vmaxn 22 13 25 3 5),
  (0xA2CDCBAB, .vadds 22 13 25 3 5),
  (0xA2CDCBAC, .vsubs 22 13 25 3 5),
  (0xA2CDCBAD, .vaddsn 22 13 25 3 5),
  (0xA2CDCBAE, .vsubsn 22 13 25 3 5),
  (0xA2CDCBB0, .vand 22 13 25 3 5)] := rfl
theorem test_decode_vector_arithmetic_2 : ReadsAs [
  (0xA2CDCBB1, .vor 22 13 25 3 5),
  (0xA2CDCBB2, .vxor 22 13 25 3 5),
  (0xA2CDCBB3, .vsll 22 13 25 3 5),
  (0xA2CDCBB4, .vsrl 22 13 25 3 5),
  (0xA2CDCBB5, .vsra 22 13 25 3 5),
  (0xA2CD03B8, .vmov 22 13 3 5),
  (0xA2CD03B9, .vsplat 22 13 3 5)] := rfl
theorem test_decode_vector_fused : ReadsAs [
  (0xA6CDCB40, .vfma 22 13 25 3 2),
  (0xA6CDCB41, .vfms 22 13 25 3 2),
  (0xA6CDCB42, .vfnma 22 13 25 3 2),
  (0xA6CDCB43, .vfnms 22 13 25 3 2),
  (0xA6CDCBA4, .vmac 22 13 25 3 5)] := rfl
theorem test_decode_vector_compare : ReadsAs [
  (0xA8CDCBA0, .vceq 6 13 25 3 5),
  (0xA8CDCBA1, .vcne 6 13 25 3 5),
  (0xA8CDCBA2, .vclt 6 13 25 3 5),
  (0xA8CDCBA3, .vcle 6 13 25 3 5),
  (0xA8CDCBA4, .vcltn 6 13 25 3 5),
  (0xA8CDCBA5, .vclen 6 13 25 3 5),
  (0xA8CDCB46, .vcun 6 13 25 3 2),
  (0xAACDCBA8, .vsel 22 13 25 3 5),
  (0xA8C50810, .mand 6 5 1),
  (0xA8C50811, .mor 6 5 1),
  (0xA8C50812, .mxor 6 5 1),
  (0xA8C50813, .mandn 6 5 1),
  (0xA8C50014, .mnot 6 5),
  (0xA8CD0015, .mset 6 13),
  (0xAAC50016, .mget 22 5),
  (0xAAC50017, .mpopc 22 5)] := rfl
theorem test_decode_vector_permute : ReadsAs [
  (0xAECDCBA0, .vperm 22 13 25 3 5),
  (0xAECDCBA1, .vzip 22 13 25 3 5),
  (0xAECDCBA2, .vunzip 22 13 25 3 5),
  (0xAECDCBA3, .vrotl 22 13 25 3 5),
  (0xAECDC8A4, .vext 22 13 25 5),
  (0xAECDC8A5, .vins 22 13 25 5),
  (0xAECD03B0, .vrsum 22 13 3 5),
  (0xAECD03B1, .vrmin 22 13 3 5),
  (0xAECD03B2, .vrmax 22 13 3 5),
  (0xAECD03B3, .vrand 22 13 3 5),
  (0xAECD03B4, .vror 22 13 3 5),
  (0xAECD03B5, .vrxor 22 13 3 5)] := rfl
theorem test_decode_vector_convert : ReadsAs [
  (0xB2CD13A3, .vcvt 22 13 2 3 5 3),
  (0xB2CD13AB, .vcvts 22 13 2 3 5 3),
  (0xB2CD0B53, .vqnt 22 13 1 3 2 3),
  (0xB2CD0B5B, .vdqnt 22 13 1 3 2 3)] := rfl
theorem test_decode_vector_dot : ReadsAs [
  (0xB6CDCBA0, .vdot 22 13 25 3 5),
  (0xB6CDCB41, .vdotSp 22 13 25 3 2)] := rfl
theorem test_decode_scalar_float_1 : ReadsAs [
  (0xBACDCA60, .fadd 22 13 25 2 3),
  (0xBACDCA61, .fsub 22 13 25 2 3),
  (0xBACDCA62, .fmul 22 13 25 2 3),
  (0xBACDCA63, .fdiv 22 13 25 2 3),
  (0xBACD0264, .fsqrt 22 13 2 3),
  (0xBACDCA65, .fma 22 13 25 2 3),
  (0xBACDCA06, .fmin 22 13 25 2),
  (0xBACDCA07, .fmax 22 13 25 2),
  (0xBACDCA08, .fceq 22 13 25 2),
  (0xBACDCA09, .fclt 22 13 25 2),
  (0xBACDCA0A, .fcle 22 13 25 2),
  (0xBACD020B, .fabs 22 13 2),
  (0xBACD020C, .fneg 22 13 2),
  (0xBACD020D, .fclass 22 13 2),
  (0xBACD0270, .ftoi 22 13 2 3),
  (0xBACD0271, .fton 22 13 2 3)] := rfl
theorem test_decode_scalar_float_2 : ReadsAs [
  (0xBACD0272, .itof 22 13 2 3),
  (0xBACD0273, .ntof 22 13 2 3),
  (0xBACD1174, .fcvt 22 13 2 1 3)] := rfl
theorem test_decode_table : ReadsAs [
  (0xBC0DC800, .dtwr 13 25),
  (0xBECD0001, .dtrd 22 13),
  (0xBC0DC802, .ftwr 13 25),
  (0xBC0DC803, .ftrd 13 25),
  (0xBC0D0004, .dtmode 13)] := rfl
theorem test_decode_token : ReadsAs [
  (0xC2CD0000, .twait 22 13),
  (0xC2CD0040, .tstat 22 13),
  (0xC2CD0041, .tstatR 22 13),
  (0xC00D0080, .tcancel 13),
  (0xC00000CB, .tfence 11),
  (0xC00D0100, .tresume 13),
  (0xC00DC940, .trec 13 25),
  (0xC00D0180, .tdet 13)] := rfl
theorem test_decode_copy : ReadsAs [
  (0xC6CDC86C, .cpy 22 13 25 1 2 1 1),
  (0xC6CDC8EC, .cpyX 22 13 25 1 2 1 1),
  (0xC6CDC96C, .cpySp 22 13 25 1 2 1 1),
  (0xC6CDC9EC, .cpyR 22 13 25 1 2 1 1),
  (0xC6CDCA6C, .cpyF 22 13 25 1 2 1 1)] := rfl
theorem test_decode_matrix : ReadsAs [
  (0xCACDC86C, .mmx 22 13 25 1 2 1 1),
  (0xCACDC8EC, .mmxA 22 13 25 1 2 1 1)] := rfl
theorem test_decode_phase : ReadsAs [
  (0xCECDC86C, .phld 22 13 25 1 2 1 1),
  (0xCECDC8EC, .phdec 22 13 25 1 2 1 1),
  (0xCECDC96C, .phswp 22 13 25 1 2 1 1),
  (0xCECDC9EC, .phres 22 13 25 1 2 1 1),
  (0xCECDCA6C, .phdrop 22 13 25 1 2 1 1)] := rfl
theorem test_decode_tile_copy : ReadsAs [
  (0xD2CDC86C, .tcopy 22 13 25 1 2 1 1),
  (0xD2CDC8EC, .tcopyBp 22 13 25 1 2 1 1),
  (0xD2CDC96C, .tcopyAcc 22 13 25 1 2 1 1)] := rfl
theorem test_decode_barrier : ReadsAs [
  (0xD40DC800, .binit 13 25),
  (0xD40DC840, .barr 13 25),
  (0xD6CD0080, .bwait 22 13),
  (0xD40DC8C0, .bnote 13 25),
  (0xD40D0100, .bwdraw 13),
  (0xD6CD0140, .bstat 22 13),
  (0xD40DC980, .bbytes 13 25),
  (0xD40DC9C0, .blink 13 25),
  (0xD40DCA00, .bbind 13 25)] := rfl
theorem test_decode_collective : ReadsAs [
  (0xDACDC86C, .gjoin 22 13 25 1 2 1 1),
  (0xDACDC8EC, .gleave 22 13 25 1 2 1 1),
  (0xDACDC96C, .cred 22 13 25 1 2 1 1),
  (0xDACDC9EC, .cbcast 22 13 25 1 2 1 1),
  (0xDACDCA6C, .cgath 22 13 25 1 2 1 1),
  (0xDACDCAEC, .crscat 22 13 25 1 2 1 1),
  (0xDACDCB6C, .ca2a 22 13 25 1 2 1 1)] := rfl
theorem test_decode_semaphore : ReadsAs [
  (0xDC0DC800, .semadd 13 25),
  (0xDC0DC840, .semset 13 25),
  (0xDECD0080, .semrd 22 13),
  (0xDC0DC8C0, .semwait 13 25),
  (0xDC0DC92B, .semwaitN 13 25 43)] := rfl
theorem test_decode_fabric : ReadsAs [
  (0xE2CDC86C, .circ 22 13 25 1 2 1 1),
  (0xE2CDC8EC, .circT 22 13 25 1 2 1 1),
  (0xE2CDC96C, .famwr 22 13 25 1 2 1 1),
  (0xE2CDC9EC, .pgate 22 13 25 1 2 1 1),
  (0xE2CDCA6C, .pwake 22 13 25 1 2 1 1)] := rfl

/-! ### Words that a row's limits refuse (R72) -/

/-- Every word of the list is of the row beside it, breaks its limits, and is refused. -/
def Malformed (l : List (IWord × Instr)) : Prop :=
  l.map (fun p => (decode p.1, p.2.wellFormed)) = l.map (fun p => (.error (.malformed p.2), false))

/-- R52, R53: LD.ACQ of a signed doubleword, level 3, FENCE of nothing, sizes and a destination that ATOM does not have. -/
theorem test_malformed_memory : Malformed [
  (0x74220007, .ldAcq 1 2 0 1 3),
  (0x74010130, .pref 1 3),
  (0x74011171, .prefResPin 1 2 3),
  (0x74011170, .prefResUnpin 1 2 3),
  (0x74000180, .fence 0 0),
  (0x78221828, .atomAdd 1 2 3 2 1),
  (0x78221900, .atomSwap 1 2 3 0 0),
  (0x78221968, .atomCas 1 2 3 2),
  (0x78021A90, .atomFadd 0 2 3 1 0),
  (0x78221AA0, .atomFadd 1 2 3 2 0)] := rfl
/-- R53, R143: a system register of no name, and TFENCE of nothing. -/
theorem test_malformed_system : Malformed [
  (0x9C200040, .sysrd 1 4),
  (0x9C018031, .syswr 1 2051),
  (0x9C20C220, .sysrd 1 3106),
  (0xC00000C0, .tfence 0)] := rfl
/-- R57 to R63: types that the lane operations do not take. -/
theorem test_malformed_vector_types : Malformed [
  (0xA02218E0, .vadd 1 2 3 0 7),
  (0xA0221887, .vdiv 1 2 3 0 4),
  (0xA0221870, .vand 1 2 3 0 3),
  (0xA4221880, .vfma 1 2 3 0 4),
  (0xA4221864, .vmac 1 2 3 0 3),
  (0xA82218E0, .vceq 1 2 3 0 7),
  (0xA8221804, .vcltn 1 2 3 0 0),
  (0xA8221886, .vcun 1 2 3 0 4),
  (0xAC2200F0, .vrsum 1 2 0 7),
  (0xAC220053, .vrand 1 2 0 2),
  (0xB4221800, .vdot 1 2 3 0 0),
  (0xB42218A1, .vdotSp 1 2 3 0 5)] := rfl
/-- R62: rounding 6, source and destination equal, a rounding between integers, a float destination of VCVTS, entry 0. -/
theorem test_malformed_conversions : Malformed [
  (0xB0220806, .vcvt 1 2 1 0 0 6),
  (0xB0220820, .vcvt 1 2 1 0 1 0),
  (0xB02220A1, .vcvt 1 2 4 0 5 1),
  (0xB0222008, .vcvts 1 2 4 0 0 0),
  (0xB02220AB, .vcvts 1 2 4 0 5 3),
  (0xB0220010, .vqnt 1 2 0 0 0 0),
  (0xB0220870, .vqnt 1 2 1 0 3 0),
  (0xB0220018, .vdqnt 1 2 0 0 0 0),
  (0xB0220898, .vdqnt 1 2 1 0 4 0)] := rfl
/-- R64: type 4, rounding 6, a conversion of a type to itself or from type 4. -/
theorem test_malformed_scalar_float : Malformed [
  (0xB8221C00, .fadd 1 2 3 4 0),
  (0xB82218C0, .fadd 1 2 3 0 6),
  (0xB8221D06, .fmin 1 2 3 5),
  (0xB822040B, .fabs 1 2 4),
  (0xB82200F0, .ftoi 1 2 0 7),
  (0xB8220914, .fcvt 1 2 1 1 0),
  (0xB8222114, .fcvt 1 2 4 1 0)] := rfl
/-- R47, R71, R72: a major of no group, the all-zero word, a sub-operation of no row. -/
theorem test_unassigned : [0x00000000, 0xFFFFFFFF, 0x98000800, 0x06CDC82F].map decode = List.replicate 4 (.error .unassigned) := rfl

/-! ### States for the tests -/

/-- The state that an answer gives, or the given one where it is a stop. -/
def after (o : Host.Outcome State Fault Refusal) (s : State) : State := match o with
  | .next t => t
  | _ => s
/-- A context that runs at an address with a budget and a limit on waits. -/
def runningAt (pc : Nat) : Ctx := { Ctx.initial with phase := .run, pc := BitVec.ofNat 52 pc, budget := 100, budgetLeft := 100, waitLimit := 100 }
/-- Service core 0.0.0 runs context 0 at the start of its own scratchpad, where the words stand; it is the context at work. -/
def withWords (ws : List IWord) : State :=
  { State.reset with
    ctxs := [(0, runningAt (spAddr 0 0))]
    mem := { State.reset.mem with cells := memWrite [] (cellsAt (spAddr 0 0) (ws.flatMap bytesOfWord)) } }
/-- The same with registers g1 to g3. -/
def withRegs (ws : List IWord) (x y z : Word) : State :=
  (withWords ws).modCtx 0 (fun c => { c with g := ((c.g.set 1 x).set 2 y).set 3 z })
/-- A word of no effect: ADD g0, g0, g0. -/
def nop : IWord := 0x04000000

/-! ### Single steps -/

/-- R73, R98 and R29: the word at the PC runs first after reset, ADDI g5, g0, 7. -/
theorem test_first_step : (after (step (State.reset.withFetchWord 32 0x08A00007)) State.reset).me.g[5] = 7 := by rfl
/-- R29: and the PC is four further. -/
theorem test_first_step_pc : (after (step (State.reset.withFetchWord 32 0x08A00007)) State.reset).me.pc = BitVec.ofNat 52 (spAddr 0 4) := by rfl
/-- R147: the sum wraps. -/
theorem test_add_wraps : (after (exec (.add 3 1 2) (withRegs [] (BitVec.allOnes 64) 2 9)) State.reset).me.g[3] = 1 := by rfl
/-- R10, R139: a write to g0 is discarded. -/
theorem test_g0_stays_zero : rdG (after (exec (.addi 0 0 5) (withWords [])) State.reset).me 0 = 0 := by rfl
/-- R148: the remainder of the most negative number by -1 is 0, and a division by zero is all ones. -/
theorem test_rem_overflow : (after (exec (.rem 3 1 2) (withRegs [] 0x8000000000000000 (BitVec.allOnes 64) 9)) State.reset).me.g[3] = 0 := by rfl
/-- R148: division by zero. -/
theorem test_div_zero : (after (exec (.div 3 1 2) (withRegs [] 5 0 9)) State.reset).me.g[3] = BitVec.allOnes 64 := by rfl
/-- R39: the target comes after two slots. -/
theorem test_branch_slots : (after (exec (.brEq 1 1 4) (withWords [0x80000004, nop, nop])) State.reset).me.delay =
    some { left := 2, dest := BitVec.ofNat 52 (spAddr 0 16) } := by rfl
/-- R40: a jump in a delay slot traps DELAYSLOT (0x02), and the activation is over. -/
theorem test_delay_slot_trap : ((after (exec (.j 4) (withWords [0x84000004, nop, 0x84000004])) State.reset).ctx 0).phase = .free := by rfl
/-- R155, R156: 1.0 + 1.0 = 2.0 in F32, without a flag. -/
theorem test_fadd : (after (exec (.fadd 3 1 2 0 0) (withRegs [] 0x3F800000 0x3F800000 0)) State.reset).me.g[3] = 0x40000000 := by rfl
/-- R156: the sum of opposite zeros is -0 under RDN alone. -/
theorem test_fadd_zero_rdn : (after (exec (.fadd 3 1 2 0 2) (withRegs [] 0x80000000 0 0)) State.reset).me.g[3] = 0x80000000 := by rfl
/-- R41: the frame of RPT comes again, one word long, for its count. -/
theorem test_rpt_frame : (after (exec (.rpt 0 3 1 0 0) (withWords [0x90000000, nop])) State.reset).me.rpt =
    some { base := BitVec.ofNat 52 (spAddr 0 0), frame := [nop], count := 4, sd := 1, sa := 0, sb := 0, iter := 0, slot := 0 } := by rfl

/-! ### States that meet the hypotheses of the obligations -/

/-- The words after a place are fetched one after another in a state whose fetches leave it as it is. -/
theorem fetched_words : FetchedFrom (withWords [0x80000004, nop, nop]) (ownAddr (withWords [0x80000004, nop, nop]).me + 4) [nop, nop] (withWords [0x80000004, nop, nop]) :=
  ⟨_, rfl, _, rfl, rfl⟩
theorem witness_IntegerInstructionsWriteTheirResult : intResult (.add 3 1 2) (withRegs [] 5 6 0).me = some (3, 11) := by rfl
theorem witness_BranchesAndJumpsTransferAfterTwoSlots :
    controlForm (.brEq 1 1 4) (withWords [0x80000004, nop, nop]).me = some (true, BitVec.ofNat 52 (spAddr 0 16), none) ∧
    controlForm (.jlr 31 1) (withRegs [] 8 0 0).me = some (true, 8, some 31) ∧ slotBanned nop = false := ⟨rfl, rfl, rfl⟩
theorem witness_ForbiddenDelaySlotTraps : isControl (.j 4) = true ∧ slotBanned 0x84000004 = true ∧
    FetchedFrom (withWords [0x84000004, nop, 0x84000004]) (ownAddr (withWords [0x84000004, nop, 0x84000004]).me + 4) [nop, 0x84000004]
      (withWords [0x84000004, nop, 0x84000004]) := ⟨rfl, rfl, _, rfl, _, rfl, rfl⟩
theorem witness_MisalignedJumpTargetTraps : (rdG (withRegs [] 6 0 0).me 1).toNat % 4 ≠ 0 ∧ slotBanned nop = false ∧
    FetchedFrom (withRegs [0x84000004, nop, nop] 6 0 0) (ownAddr (withRegs [0x84000004, nop, nop] 6 0 0).me + 4) [nop, nop]
      (withRegs [0x84000004, nop, nop] 6 0 0) := ⟨by decide, rfl, _, rfl, _, rfl, rfl⟩
/-- A frame of one arithmetic word, and one whose first word is a jump. -/
theorem witness_RptCapturesArithmeticFrame :
    FetchedFrom (withWords [0x90000000, nop]) ((withWords [0x90000000, nop]).me.pc + 4) [nop] (withWords [0x90000000, nop]) ∧ arithClass nop = true ∧
    FetchedFrom (withWords [0x90000000, 0x84000004]) ((withWords [0x90000000, 0x84000004]).me.pc + 4) [0x84000004] (withWords [0x90000000, 0x84000004]) ∧
    arithClass 0x84000004 = false := ⟨⟨_, rfl, rfl⟩, rfl, ⟨_, rfl, rfl⟩, rfl⟩
/-- A place in a frame with a further word, at the end of an iteration, at the end of the last, and in the first and the second slot. -/
theorem witness_PlaceAfterInstruction :
    (let r : Rpt := { base := 0, frame := [nop, nop], count := 2, sd := 0, sa := 0, sb := 0, iter := 0, slot := 0 }
     r.slot + 1 < r.frame.length ∧ ({ r with slot := 1 } : Rpt).frame.length ≤ 1 + 1 ∧ r.iter + 1 < r.count ∧ r.count ≤ 1 + 1) ∧
    (1 < ({ left := 2, dest := 0 } : Delay).left ∧ ({ left := 1, dest := 0 } : Delay).left ≤ 1) := by decide
/-- Limits that are met with no counter and at their edge; a limit that is not met, with and without a limit on the wait. -/
theorem witness_WaitcWaitsForItsLimits :
    let c := { runningAt 0 with ld := 1, st := 63 }
    ((1 : BitVec 6) = 63 ∨ c.ld ≤ (1 : BitVec 6).toNat) ∧ ((63 : BitVec 6) = 63 ∨ c.st ≤ (63 : BitVec 6).toNat) ∧
    ¬((0 : BitVec 6) = 63 ∨ c.ld ≤ (0 : BitVec 6).toNat) ∧ c.waitLimit ≠ 0 ∧ Ctx.initial.waitLimit = 0 := by decide
/-- EXT and ADDI, EXT and a word that takes no composite, EXT and a word that cannot be fetched. -/
theorem witness_ExtExecutesCompositeImmediate :
    (withWords [0xF8000001, 0x08A00007]).me.ext = none ∧
    (withWords [0xF8000001, 0x08A00007]).fetch 0 ((withWords [0xF8000001, 0x08A00007]).me.pc + 4) = (withWords [0xF8000001, 0x08A00007], .ok 0x08A00007) ∧
    extResult 0x08A00007 ((1 : BitVec 26) ++ fImm 0x08A00007) (withWords []).me = some (5, 0x10007) := ⟨rfl, rfl, rfl⟩
theorem witness_ExtTraps : extEligible nop = false ∧
    (withWords [0xF8000001, nop]).fetch 0 ((withWords [0xF8000001, nop]).me.pc + 4) = (withWords [0xF8000001, nop], .ok nop) ∧
    (let s : State := { State.reset with ctxs := [(0, runningAt (spAddr 0 0xBFFFC))] }
     s.fetch 0 (s.me.pc + 4) = (s, .error cXLATE)) := ⟨rfl, rfl, rfl⟩
theorem witness_ScalarFloatingWritesResultAndFlags :
    sfpResult (.fadd 3 1 2 0 0) (withRegs [] 0x3F800000 0x3F800000 0).me = some (3, 0x40000000, 0, 0) := rfl

/-! ### A job -/

/-- Words of a launch record at their places. -/
def recordOf (ws : List (Nat × Word)) : List Word := (List.range 160).map (fun k => tabGet ws k 0)
/-- A job of ASID 7 that holds partition 1, engine 0 with tiles 0 to 7, 16 semaphores, 64 vectors, groups 0 to 3, two map entries, channels 1 and 2, and a root
for region 0. Its traps and its fabric notices go to core 8, channel 1. -/
def testJob : Job :=
  { asid := 7, active := true
    record := recordOf [(0, 0x01010007), (1, 0x2), (2, 0x10000001), (3, 0x4000004000), (4, 0xF), (8, 0), (9, 0x40000000100000), (10, 0x40201008),
      (11, 0x2000), (14, 0x200000), (32, 0x10020), (33, 0x40000186A0), (34, 1), (36, 0x10020), (37, 0x40000186A0), (38, 1), (65, 0x80000000001000),
      (66, 0x80000000002000), (128, 192)] }
/-- Core 0.0.8 runs the job, with one region over its whole scratchpad and a page of 1 GiB, READ, WRITE and EXEC, at address 0; context 0 of it is at work. -/
def jobState : State :=
  { State.reset with
    sched := { State.reset.sched with cur := 64 }
    ctxs := [(64, { runningAt 0x1000 with chan := 1, taskTag := 3 })]
    cores := [(8, { Core.initial with asid := 7, hasJob := true, nb := 64 })]
    chans := [(8 * 64 + 1, { Chan.initial with entry := 0x400, enable := true, allot := true }), (8 * 64 + 2, { Chan.initial with entry := 0x800, enable := true, allot := true })]
    regions := [(8 * 32, { Region.initial with nbank := 192, asid := 7 })]
    jobs := [testJob]
    mem := { State.reset.mem with cells := memWrite [] (cellsAt 0x200000 (leBytes 8 0x4000001F)) } }
/-- The same with registers g1 to g3. -/
def jobRegs (x y z : Word) : State := jobState.modCtx 64 (fun c => { c with g := ((c.g.set 1 x).set 2 y).set 3 z })
/-- With an empty translation cache a translation is a walk. -/
theorem translate_empty (s : State) (cl : Nat) (asid : BitVec 16) (va : Nat) (n : Need) (svc : Bool) (h : s.mem.tlb = []) :
    s.translate cl asid va n svc = match (s.readyWalk asid va).walk asid va with
      | .error c => ((s.readyWalk asid va).refresh, .error c)
      | .ok (leaf, level, _) =>
        (((s.readyWalk asid va).refresh).modMem (fun m => m.tlbAdd (s.readyWalk asid va).sched.fresh { cluster := cl, asid := asid, page := va / 2 ^ levelBits level, size := level, leaf := leaf }),
          match s.leafPa asid leaf level va with
          | .error c => .error c
          | .ok pa => if permits leaf n svc then .ok (pa, leaf) else .error cPROT) := by
  unfold State.translate
  cases hw : (s.readyWalk asid va).walk asid va <;> simp only [State.tlbFind, h, hw, List.find?_nil, Option.filter_none] <;> rfl
/-- R196 to R198: the page maps address 0x1234 to PA 0x4000_1234. -/
theorem test_walk : (match (jobState.translate 0 7 0x1234 .wr false).2 with | .ok p => p.1 | .error _ => 0) = 0x40001234 := by
  rw [translate_empty _ _ _ _ _ _ rfl]; decide +kernel

/-! ### Vectors -/

/-- A context with v1 and v2 of one word in every lane of 32 bits, mask m1 of the even lanes. -/
def withLanes (x y : Nat) : State :=
  (withWords []).modCtx 0 (fun c => { c with
    v := (c.v.set 1 (ofLanes 32 (List.replicate 16 x))).set 2 (ofLanes 32 (List.replicate 16 y)), m := c.m.set 1 0x5555555555555555 })
/-- R160, R141: lanes of I32 add where the mask has a bit, and stay where it has none. -/
theorem test_vadd_masked : ((List.range 4).map (lane (rdV (after (exec (.vadd 3 1 2 1 4) (withLanes 7 5)) State.reset).me 3) 32)) = [12, 0, 12, 0] := by decide +kernel
/-- R160: 1.5 x 2 + 0 = 3 in F32. -/
theorem test_vfma : lane (rdV (after (exec (.vfma 3 1 2 0 0) (withLanes 0x3FC00000 0x40000000)) State.reset).me 3) 32 15 = 0x40400000 := by decide +kernel
/-- R162: equal lanes set their bits, the mask's inactive lanes and the bits above the lanes none. -/
theorem test_vceq : rdM (after (exec (.vceq 2 1 2 1 4) (withLanes 7 7)) State.reset).me 2 = 0x5555 := by decide +kernel
/-- R164: eight active lanes of 3 sum to 24 in lane 0. -/
theorem test_vrsum : rdV (after (exec (.vrsum 3 1 1 4) (withLanes 3 0)) State.reset).me 3 = 24 := by decide +kernel
/-- R167, the example of its text: 1 + 1.5 x 0.25 + 2 x (-3) = -4.625. -/
theorem test_vdot_f16 : lane (rdV (after (exec (.vdot 3 1 2 0 1)
    ((withLanes 0x40003E00 0xC2003400).modCtx 0 (fun c => { c with v := c.v.set 3 0x3F800000 }))) State.reset).me 3) 32 0 = 0xC0940000 := by decide +kernel
/-- R168: a mask word of 0xFFFF traps FMT (0x0D), and the activation is over. -/
theorem test_vdot_sp_m0 : ((after (exec (.vdotSp 3 1 2 0 6) (withLanes 1 1)) State.reset).ctx 0).phase = .free := by decide +kernel

theorem witness_VectorIntegerLanesWritten :
    (vectorLanes (.vadd 3 1 2 1 4) (withLanes 7 5).me).map (fun p => (p.1, p.2.2.1, p.2.2.2 0)) = some (3, 4, 12) := by decide +kernel
theorem witness_VectorFloatingLanesRounded :
    (roundedLanes (.vfma 3 1 2 0 0) (withLanes 0x3FC00000 0x40000000).me ((withLanes 0 0).core 0)).map (fun p => (p.1, p.2.2.1, (p.2.2.2 15).1)) =
      some (3, 0, 0x40400000) := by decide +kernel
theorem witness_MaskInstructionsWriteEveryBit :
    (maskResult (.vceq 2 1 2 1 4) (withLanes 7 7).me).map (fun p => (p.1, p.2.1 0, p.2.1 1)) = some (2, true, false) := by decide +kernel
theorem witness_ScalarsReadFromVectors : scalarFromVector (.mget 3 1) (withLanes 0 0).me = some (3, 0x5555555555555555) := rfl
theorem witness_IntegerReductionsCombineActiveLanes : reduced (.vrsum 3 1 1 4) (withLanes 3 0).me = some (3, 24) := by decide +kernel
/-- A mask word that keeps positions 0 to 3, and one that keeps all sixteen. -/
theorem witness_SparseDotProduct :
    let kept (w : Nat) : List Nat := (List.range 12).filter (fun k => w.testBit k)
    (0xF < 2 ^ 12 ∧ 1 ≤ (kept 0xF).length ∧ (kept 0xF).length ≤ 8) ∧ ¬(0xFFFF < 2 ^ 12) ∧ laneBits (6 : Fld3).toNat = 8 := by decide +kernel
/-- The core of the context at work with one format entry. -/
def withEntry (e : Nat) : State := (withLanes 0x3F800000 0).modCore 0 (fun c => { c with ft := [(1, BitVec.ofNat 256 e)] })
/-- An entry of 4-bit signed integers; one that is not valid; one of T8 in blocks of two, with a decode table out of order. -/
theorem witness_UnscaledQuantiseWritesCodes :
    let e := ((withEntry 0x8046).core (withEntry 0x8046).myCore).ftEntry (1 : BitVec 4).toNat
    ftValid e = true ∧ ftSmen e = false ∧ ftBlog e = 0 ∧ ftKind e = 6 ∧ 1 ≤ ftWidth e ∧ ftWidth e ≤ 8 := by decide +kernel
/-- Entry 1 of 4-bit signed integers without and with divisors at offset 0x100 of the own scratchpad; mask words that keep four positions. -/
theorem witness_QuantiseAndSparseDotEnd :
    (∀ x ∈ [0x8046, 0x800FC046 + spAddr 0 0x100 * 2 ^ 128], let s := withEntry x
     let e := (s.core s.myCore).ftEntry (1 : BitVec 4).toNat
     ¬(ftValid e = false ∨ (ftBlog e ≠ 0 ∧ laneCount 0 < 2 ^ ftBlog e) ∨ (ftKind e = 5 ∧ ftBlog e = 0) ∨
       (ftKind e = 5 ∧ dtOrdered (s.core s.myCore).dt (s.core s.myCore).dmode = false))) ∧
    (let s := withEntry (0x800FC046 + spAddr 0 0x100 * 2 ^ 128)
     let e := (s.core s.myCore).ftEntry 1
     ftSmen e = true ∧ (regionsCheck (divisorAddrs e 16)).toOption = some () ∧ (s.spCheck s.sched.cur (divisorAddrs e 16)).toOption = some () ∧
     acqHeld s.me = false ∧ s.guardHit s.myCore (divisorAddrs e 16) = false) ∧
    (∀ j, j < 4 → let w := (0x000F000F000F000F : Word).toNat / 2 ^ (16 * j) % 2 ^ 16
      w < 2 ^ 12 ∧ ((List.range 12).filter (fun k => w.testBit k)).length = 4) := by decide +kernel
theorem witness_ConversionTraps :
    ftValid (((withEntry 0x0046).core 0).ftEntry 1) = false ∧ ftKind (((withEntry 0x9105).core 0).ftEntry 1) = 5 ∧ ftValid (((withEntry 0x9105).core 0).ftEntry 1) = true ∧
    ftBlog (((withEntry 0x9105).core 0).ftEntry 1) = 1 ∧ dtOrdered ((7 : BitVec 19) :: List.replicate 255 0) false = false := by decide +kernel

/-! ### Accesses -/

/-- The fault of a check. -/
def faultOf (e : Except (BitVec 8) Unit) : Option (BitVec 8) := match e with
  | .ok _ => none
  | .error c => some c
/-- A check without a fault passes. -/
theorem passes {e : Except (BitVec 8) Unit} (h : faultOf e = none) : e = .ok () := by
  cases e with
  | ok => rfl
  | error => cases h
/-- A pointer to offset 0x100 of the own scratchpad. -/
def spBase : Word := BitVec.ofNat 64 (spAddr 0 0x100)
/-- R180: a load rises LD and changes no register yet. -/
theorem test_load_counts : (after (exec (.ldD 3 1 0 0) (withRegs [] spBase 0 9)) State.reset).me.ld = 1 := by rfl
/-- R186: and its register is as it was. -/
theorem test_load_waits : (after (exec (.ldD 3 1 0 0) (withRegs [] spBase 0 9)) State.reset).me.g[3] = 9 := by rfl
/-- R180: the reply's two steps, the read and the write of the register. -/
theorem test_load_reply :
    (let s := withRegs [] spBase 0 9
     let s1 := { s with mem := { s.mem with cells := memWrite [] (cellsAt (spAddr 0 0x100) [1, 2, 3, 4, 5, 6, 7, 8]) } }
     let s2 := after (exec (.ldW 3 1 0 1) s1) s
     let id := s1.sched.nextId
     let s3 := after (exec (.loadReply 0 id) (after (exec (.loadReply 0 id) s2) s)) s
     (s3.me.g[3], s3.me.ld)) = (0x08070605, 0) := by decide +kernel
/-- R229: ATOM.ADD with RET counts in LD and sends an ATOMIC message (KIND 4) to the owner. -/
theorem test_atomic_message :
    (let t := after (exec (.atomAdd 3 1 2 1 1) (withRegs [] spBase 5 0)) State.reset
     (t.me.ld, t.mail.map (fun m => (m.msg.kind, m.dest)))) = (1, [(4, 0)]) := by decide +kernel

theorem witness_BadAddressesTrapInOrder :
    let ea (x : Word) (o : BitVec 13) : Option Nat := (accessOf (.ldD 3 1 0 o) (withRegs [] x 0 0).me).map (·.ea)
    (ea 0xD000000000000 0 = some 0xD000000000000 ∧ ea 0xF000000000000 0 = some 0xF000000000000 ∧ ea 0xE000000000000 0 = some 0xE000000000000) ∧
    ea 0x1004 0 = some 0x1004 ∧ 0x1004 % 8 ≠ 0 ∧
    (accessOf (.ldD 3 1 1 0) (withRegs [] 0x1000 0 0).me).map (fun x => (x.swz, x.ea / 2 ^ 48 % 16)) = some (1, 0) ∧
    (accessOf (.ldD 3 1 5 0) (withRegs [] spBase 0 0).me).map (fun x => (x.swz, x.vec, x.size)) = some (5, false, 8) ∧
    faultOf ((withRegs [] 0 0 0).spCheck 0 [spAddr 0 0xC0000]) = some cREGION := by decide +kernel
theorem witness_LoadsAreIssued : ∃ x, accessOf (.ldD 3 1 0 0) (withRegs [] spBase 0 0).me = some x ∧ x.move = .inl (.g 3 false, 0) ∧
    (withRegs [] spBase 0 0).accessCheck 0 x.ea x.size x.swz x.vec = .ok () ∧ (∀ p ∈ (withRegs [] spBase 0 0).me.pend, p.acq = 0) ∧
    (withRegs [] spBase 0 0).guardHit 0 x.addrs = false ∧ (withRegs [] spBase 0 0).me.ld < 63 :=
  ⟨_, rfl, rfl, passes (by decide +kernel), by decide +kernel, by decide +kernel, by decide +kernel⟩
theorem witness_StoresAreIssued : ∃ x b, accessOf (.stRel 1 2 0 2) (withRegs [] spBase 0 0).me = some x ∧ x.move = .inr b ∧
    ReleaseClear (withRegs [] spBase 0 0) 0 ∧ (withRegs [] spBase 0 0).accessCheck 0 x.ea x.size x.swz x.vec = .ok () ∧
    StoreReady (withRegs [] spBase 0 0) (withRegs [] spBase 0 0) (x.addrs.zip b) := by
  refine ⟨_, _, rfl, rfl, ⟨?_, ?_, ?_, ?_, ?_⟩, ?_, ?_, ?_, ?_, ?_, ?_, ?_⟩ <;> first | exact passes (by decide +kernel) | decide +kernel | rfl | (intro n h; cases h)
/-- The same with an acquire outstanding, with a scoreboard entry over the bytes, and with both counters at 63. -/
theorem witness_AccessesWaitAtTheirPlace :
    (withRegs [] spBase 0 0).me.waitLimit ≠ 0 ∧ (∀ a b sc z, (.ldD 3 1 0 0 : Instr) ≠ .stRel a b sc z) ∧
    (withRegs [] spBase 0 0).accessCheck 0 (spAddr 0 0x100) 8 0 false = .ok () ∧
    ((withRegs [] spBase 0 0).modCore 0 (fun c => { c with guards := [{ slot := 0, lo := spAddr 0 0x100, hi := spAddr 0 0x108 }] })).guardHit 0
      ((List.range 8).map (spAddr 0 0x100 + ·)) = true := by
  refine ⟨by decide +kernel, fun _ _ _ _ h => (by cases h), passes (by decide +kernel), by decide +kernel⟩
theorem witness_FenceEndsWhenEarlierAccessesAreOver : loadsOut (withWords []).me = false ∧ storesOut (withWords []).me 2 = false := ⟨rfl, rfl⟩
/-- A hint at a mapped address and one at an address of the scratchpad, which is dropped. -/
theorem witness_HintsEndWithoutATrap_taken : ∃ s1 pa, hintLine jobState.refresh 0x1234 = (s1, some pa) := by
  have h : (hintLine jobState.refresh 0x1234).2 = some 0x40001234 := by
    simp only [hintLine]; rw [translate_empty jobState.refresh _ _ _ _ _ rfl]; decide +kernel
  exact ⟨_, _, Prod.ext rfl h⟩
theorem witness_HintsEndWithoutATrap_dropped : (hintLine (withRegs [] spBase 0 0).refresh (tagVa spBase)).2 = none := by decide +kernel
/-- Nothing of this package's DRAM is held elsewhere or asked for at reset and on the tests' machines. -/
theorem lines_here (s : State) (h : s.mem.lmeta = []) (h2 : s.mem.trans = []) : LinesHere s := by
  intro l
  refine ⟨?_, by unfold State.homeTrans; rw [h2]; rfl⟩
  rw [show s.lmeta l = LMeta.initial by unfold State.lmeta; rw [h]; rfl]; exact Nat.zero_le 1
theorem witness_LinesHere : LinesHere jobState ∧ LinesHere (withRegs [] 0x1000 5 0) := ⟨lines_here _ rfl rfl, lines_here _ rfl rfl⟩
theorem witness_ScratchpadAtomicsAreIssued : atomicOf (.atomCas 3 1 2 1) (withRegs [] spBase 5 6).me = some (5, 8, true, spAddr 0 0x100, 5, 6) ∧
    regionOf (spAddr 0 0x100) = 0xC ∧ spOwner (spAddr 0 0x100) = 0 ∧ (withRegs [] spBase 5 6).svc 0 = true ∧
    (∀ a ∈ (List.range 8).map (fun k => (spAddr 0 0x100 + k) % 2 ^ 52), spMalformed a = false) ∧
    faultOf ((withRegs [] spBase 5 6).spCheck 0 ((List.range 8).map (fun k => (spAddr 0 0x100 + k) % 2 ^ 52))) = none ∧
    (withRegs [] spBase 5 6).corePends 0 = [] := by decide +kernel
theorem witness_DramAtomicsAreIssued : atomicOf (.atomAdd 0 1 2 0 0) (withRegs [] 0x1000 5 0).me = some (0, 4, false, 0x1000, 5, 0) ∧
    regionOf 0x1000 < 0xC ∧ 0x1000 % 4 = 0 ∧
    ((withRegs [] 0x1000 5 0).settleLoads ((List.range 4).map (fun k => (0x1000 + k) % 2 ^ 52)) ((withRegs [] 0x1000 5 0).corePends 0)).isSome = true := by
  decide +kernel
theorem witness_AtomicArithmetic : (2 : Nat) = 2 ∧ 0xFFFF < 2 ^ (8 * 2) ∧ 2 ^ 64 - 1 < 2 ^ (8 * 8) := by decide +kernel

/-! ### Tables, system registers, traps -/

/-- A tagged pointer of kind k at format index x and block exponent g, offset 0x100 of the own scratchpad. -/
def tagPtr (k g x : Nat) : Word := spBase + BitVec.ofNat 64 (k * 2 ^ 60 + g * 2 ^ 56 + x * 2 ^ 52)
/-- The fault of a check that names an address. -/
def faultOf2 (e : Except (BitVec 8 × Nat) Unit) : Option (BitVec 8 × Nat) := match e with
  | .ok _ => none
  | .error c => some c
theorem passes2 {e : Except (BitVec 8 × Nat) Unit} (h : faultOf2 e = none) : e = .ok () := by
  cases e with
  | ok => rfl
  | error => cases h
/-- With nothing outstanding in the core no load is settled. -/
theorem settles (s : State) (xs : List Nat) (h : s.corePends s.myCore = []) : s.settleLoads xs (s.corePends s.myCore) = some s := by rw [h]; rfl
/-- R189: VLDF of T8 without an entry is issued as sixteen codes. -/
theorem test_vldf_issue : ((after (exec (.vldf 3 1 0) (withRegs [] (tagPtr 5 0 0) 0 0)) State.reset).me.pend.map (fun p => p.addrs.length)) = [16] := by decide +kernel
/-- R137: DTWR of code 200 in the mirrored mode makes it decode to the value written. -/
theorem test_dtwr_mirrored : dtPattern ((after (exec (.dtwr 1 2) ((withRegs [] 200 0x123 0).modCore 0 (fun c => { c with dmode := true }))) State.reset).core 0).dt true 200 = 0x123 := by decide +kernel
/-- R144: SYSRD of CORE on core 8 gives 8. -/
theorem test_sysrd_core : rdG (after (exec (.sysrd 3 1) jobState) State.reset).me 3 = 8 := by decide +kernel
/-- R143: a zero SEED becomes 2^63. -/
theorem test_syswr_seed : (after (exec (.syswr 1 0x1A) (jobRegs 0 0 0)) State.reset).me.seed = 0x8000000000000000 := by decide +kernel

theorem witness_FormattedTagTraps : ¬TagOk ((withRegs [] (tagPtr 9 0 0) 0 0).core 0) (rdG (withRegs [] (tagPtr 9 0 0) 0 0).me 1) 0 false := by
  intro h; exact absurd h.1 (by decide +kernel)
theorem witness_FormattedLoadIsIssued : let s := withRegs [] (tagPtr 5 0 0) 0 0
    TagOk (s.core s.myCore) (rdG s.me 1) 0 false ∧ FormattedOk s (rdG s.me 1) 0 ∧ (∀ q ∈ s.me.pend, q.acq = 0) ∧
    s.guardHit s.myCore (formattedAddrs s.me (s.core s.myCore) (rdG s.me 1) 0) = false ∧ s.me.ld < 63 ∧ s.me.frm.toNat ≠ 4 := by
  refine ⟨⟨?_, ?_, ?_, ?_⟩, ⟨?_, ?_, passes2 ?_⟩, ?_⟩ <;> decide +kernel
/-- A floating kind and a narrow one. -/
theorem witness_FormattedStoreIsIssued_floating : let s := withRegs [] (tagPtr 1 0 0) 0 0
    TagOk (s.core s.myCore) (rdG s.me 1) 0 true ∧ FormattedOk s (rdG s.me 1) 0 ∧
    StoreReady s s ((formattedAddrs s.me (s.core s.myCore) (rdG s.me 1) 0).zip (List.replicate 64 0)) := by
  refine ⟨⟨?_, ?_, ?_, ?_⟩, ⟨?_, ?_, passes2 ?_⟩, ?_, ?_, ?_, ?_, ?_, settles _ _ ?_⟩ <;> decide +kernel
theorem witness_FormattedStoreIsIssued_narrow : let s := withRegs [] (tagPtr 5 0 0) 0 0
    TagOk (s.core s.myCore) (rdG s.me 1) 0 true ∧ FormattedOk s (rdG s.me 1) 0 ∧
    dtOrdered (s.core s.myCore).dt (s.core s.myCore).dmode = true ∧ ftSmen ((s.core s.myCore).ftEntry (tagFmt (rdG s.me 1))) = false ∧ s.me.frm.toNat ≠ 4 ∧
    StoreReady s s ((formattedAddrs s.me (s.core s.myCore) (rdG s.me 1) 0).zip (List.replicate 16 0)) := by
  refine ⟨⟨?_, ?_, ?_, ?_⟩, ⟨?_, ?_, passes2 ?_⟩, ?_, ?_, ?_, ?_, ?_, ?_, ?_, ?_, settles _ _ ?_⟩ <;> decide +kernel
theorem witness_DecodeTableInstructions : ((withRegs [] 200 0x123 0).core 0).dt.length = 256 := by decide +kernel
/-- Entry 1; a record that FTWR takes, one that it does not (KIND 0), entry 0, and a record off its multiple. -/
theorem witness_FormatTableWritten :
    let s := withRegs [] 1 spBase 0
    let p := (rdG s.me 2).toNat % 2 ^ 52
    ((rdG s.me 1).toNat % 16 ≠ 0 ∧ p % 32 = 0 ∧ regionOf p < 0xD ∧ faultOf (s.spCheck s.sched.cur (runAt p 32)) = none ∧ (∀ q ∈ s.me.pend, q.acq = 0) ∧
      s.guardHit s.myCore (runAt p 32) = false) ∧
    (s.readBytes s.sched.cur s.sched.nextId false (runAt p 32)).isSome = true ∧ ftRecordOk (BitVec.ofNat 256 (leNat (List.replicate 32 0))) = false ∧
    ftRecordOk 0x46 = true ∧ (rdG (withRegs [] 16 0 0).me 1).toNat % 16 = 0 ∧ (rdG (withRegs [] 1 (spBase + 1) 0).me 2).toNat % 2 ^ 52 % 32 ≠ 0 := by decide +kernel
theorem witness_FormatTableRead : let s := withRegs [] 1 spBase 0
    (rdG s.me 2).toNat % 2 ^ 52 % 32 = 0 ∧ faultOf (s.accessCheck s.sched.cur ((rdG s.me 2).toNat % 2 ^ 52) 32 0 true) = none ∧
    StoreReady s s ((accessAddrs ((rdG s.me 2).toNat % 2 ^ 52) 32 0).zip (List.replicate 32 0)) ∧
    (rdG (withRegs [] 1 (spBase + 16) 0).me 2).toNat % 2 ^ 52 % 32 ≠ 0 := by
  refine ⟨?_, ?_, ⟨?_, ?_, ?_, ?_, ?_, settles _ _ ?_⟩, ?_⟩ <;> decide +kernel
/-- The first and the last of the job-level registers. -/
theorem witness_SystemRegistersRead : jobRegister jobState 0 = some 0 ∧ jobRegister jobState 0x030 = some 0 := by decide +kernel
theorem witness_SystemRegistersWritten : jobRegister jobState 0x01A = some 0 ∧ jobRegister jobState 0x012 = some 100 := by decide +kernel
/-- The ends of the ranges, at service level and at job level. -/
theorem witness_ServiceRegistersArePrivileged : serviceNumber 0x400 ∧ serviceNumber 0x47F ∧ serviceNumber 0x800 ∧ serviceNumber 0x802 ∧ serviceNumber 0xFFF ∧
    (withWords []).svc (withWords []).sched.cur = true ∧ jobState.svc jobState.sched.cur = false := by
  refine ⟨?_, ?_, ?_, ?_, ?_, ?_, ?_⟩ <;> first | (unfold serviceNumber; omega) | decide +kernel
/-- A number that is no service register at job level, and one at service level. -/
theorem witness_SystemRegisterAccessesComplete : ¬serviceNumber 0x01A ∧ serviceNumber 0x400 ∧ (withWords []).svc (withWords []).sched.cur = true := by
  refine ⟨?_, ?_, ?_⟩ <;> first | (unfold serviceNumber; omega) | decide +kernel
/-- The last of the job's 64 vectors and the first beyond; MSI-X as reset leaves it, and enabled with the vector unmasked. -/
theorem witness_IrqRaisesItsVector : jobState.jobOn jobState.myCore = some testJob ∧ testJob.fld 3 32 12 ≤ 64 ∧ 63 < testJob.fld 3 32 12 ∧
    ReleaseClear jobState 2 ∧ jobState.me.st < 63 ∧ jobState.me.pend = [] ∧ jobState.dev.msixLets 63 = false ∧ ({ Device.initial with msixEnable := true, msixOpen := [63] } : Device).msixLets 63 = true := by
  refine ⟨?_, ?_, ?_, ⟨?_, ?_, ?_, ?_, ?_⟩, ?_, ?_, ?_, ?_⟩ <;> first | decide +kernel | (intro n h; cases h)
/-- An activation with its message in slot 5 and one store outstanding, and the same without a store. -/
theorem witness_TrapEndsTheActivation :
    let m : Msg := { words := #v[0, 0, 0, 0, 0, 0, 0, 0], asid := 7, pkg := 0, ackKey := 0, ackId := 0, acq := false, newTask := false }
    let s := (jobState.modCtx 64 (fun c => { c with slot := some 5, st := 1 })).modCore 8 (fun c => { c with
      inbox := [{ id := 5, msg := m, chan := 1, msgid := 0, busy := true }] })
    (s.ctx 64).slot = some 5 ∧ (∃ x ∈ (s.core 8).inbox, x.id = 5) ∧ s.svc 64 = false ∧ (s.ctx 64).st ≠ 0 ∧ (jobState.ctx 64).st = 0 := by decide +kernel
/-- A word of major 0x00, a fetch outside the image, a spent budget, a wait past its limit, a deferred fault. -/
theorem witness_BoundaryTraps :
    ((runningAt 0).phase = .run ∧ (fMajor 0).toNat < 0x20) ∧
    ((withWords []).fetch 0 (BitVec.ofNat 52 (spAddr 0 0xC0000)) = (withWords [], .error cXLATE)) ∧
    ({ runningAt 0 with budgetLeft := 0 } : Ctx).budgetLeft = 0 ∧
    (let c : Ctx := { runningAt 0 with waiting := true, blocking := true, waited := 101 }
     c.waiting = true ∧ c.blocking = true ∧ c.waitLimit.toNat < c.waited ∧ c.budgetLeft ≠ 0) := by
  refine ⟨?_, ?_, ?_, ?_⟩ <;> first | rfl | decide +kernel
/-- A store that a fault answers, of an activation that a trap ended. -/
theorem witness_LateStoreFaultIsReported :
    let p : Pend := { id := 3, load := false, route := .dram, dst := .none, addrs := [0x1000], cells := [], parts := 0, reply := some (.fault cPOISON 0x1000)
                      acq := 0, counted := true, pc := 0, word := 0, ea := 0x1000, serial := 0 }
    let s := jobState.modCtx 64 (fun c => { c with phase := .drain, st := 1, pend := [p], trapRec := 1 })
    (s.ctx 64).phase = .drain ∧ (s.ctx 64).pend.find? (fun q => q.id == 3) = some p ∧ p.reply = some (.fault cPOISON 0x1000) ∧ (s.ctx 64).trapRec ≠ 0 ∧
    (s.ctx 64).st = 1 := by decide +kernel

/-! ### How accesses end -/

/-- The result of an operation that may fault. -/
def resultOf {α : Type} (e : Except (BitVec 8) α) : Option α := match e with
  | .ok x => some x
  | .error _ => none
/-- One that has a result succeeds. -/
theorem succeeds {p : State × Except (BitVec 8) (Nat × Word)} (h : (resultOf p.2).isSome = true) : ∃ s1 pa leaf, p = (s1, .ok (pa, leaf)) := by
  obtain ⟨s1, x | ⟨pa, leaf⟩⟩ := p
  · cases h
  · exact ⟨s1, pa, leaf, rfl⟩
/-- An operation outstanding with its answer. -/
def pendOf (load : Bool) (route : Route) (dst : Dst) (cells : List Host.Cell) (parts : Nat) (r : Option Reply) : Pend :=
  { id := 3, load := load, route := route, dst := dst, addrs := cells.map (·.1), cells := cells, parts := parts, reply := r, acq := 0, counted := true
    pc := 0, word := 0, ea := 0, serial := 0 }
/-- The job's context with one operation outstanding. -/
def withPend (p : Pend) : State := jobState.modCtx 64 (fun c => { c with ld := 1, st := 1, pend := [p] })
/-- A byte of core 8's own scratchpad. -/
def ownCell : List Host.Cell := [(spAddr 8 0x40, 0xAB)]
/-- R51: a byte 0xFF of a signed load is -1. -/
theorem test_load_sign : ((after (exec (.loadReply 64 3) (withPend (pendOf true .bank (.g 5 true) [] 0 (some (.bytes [0xFF]))))) State.reset).ctx 64).g[5] = BitVec.allOnes 64 := by
  decide +kernel
/-- R186: a store's byte reaches its bank when it is acknowledged. -/
theorem test_store_bank : memGet (after (exec (.storeAck 64 3) (withPend (pendOf false .bank .none ownCell 1 none))) State.reset).mem.cells (spAddr 8 0x40) = 0xAB := by
  decide +kernel

/-- A load with its bytes, for a register and for a vector, and one with a fault. -/
theorem witness_LoadReplyWritesItsRegister : ∀ d r, (d = .g 5 true ∧ r = some (.bytes [0xFF])) ∨ (d = .v 31 ∧ r = some (.bytes [1])) ∨ (d = .g 0 false ∧ r = some (.fault cPOISON 0)) →
    ((withPend (pendOf true .bank d [] 0 r)).ctx 64).pend.find? (fun q => q.id == 3 && q.load) = some (pendOf true .bank d [] 0 r) ∧
    (pendOf true .bank d [] 0 r).route ≠ .atomic ∧ (pendOf true .bank d [] 0 r).parts = 0 := by
  rintro d r (⟨rfl, rfl⟩ | ⟨rfl, rfl⟩ | ⟨rfl, rfl⟩) <;> decide +kernel
/-- A store with a byte to write, one that is done, and one that failed. -/
theorem witness_StoreAckWritesTheBanks :
    (let p := pendOf false .bank .none ownCell 1 none
     let s := withPend p
     (s.ctx 64).pend.find? (fun q => q.id == 3 && !q.load && q.counted) = some p ∧ p.route ≠ .atomic ∧ p.cells ≠ [] ∧
     s.sourceBlocked 64 3 true (p.cells.map (·.1)) = false ∧ s.spRefused (s.core (coreOf 64)).asid (s.svc 64) (p.cells.map (·.1)) = false ∧
     s.spWriteRefused p.cells = false) ∧
    (∀ r, r = some Reply.done ∨ r = some (Reply.fault cPOISON 0) →
      let p := pendOf false .bank .none [] 0 r
      ((withPend p).ctx 64).pend.find? (fun q => q.id == 3 && !q.load && q.counted) = some p ∧ p.cells = [] ∧ p.parts = 0 ∧ ((withPend p).ctx 64).phase = .run) := by
  refine ⟨by decide +kernel, ?_⟩
  rintro r (rfl | rfl) <;> decide +kernel
/-- A packet of core 8 to core 9, from a task that is alive. -/
def withFlight (p : Pend) (b : Pkt) : State := { withPend p with flights := [{ id := 9, src := 8, tag := 3, key := 64, op := 3, body := b }] }
/-- A load and a store at another core: inside the job's region there, and outside it. -/
theorem witness_RemoteAccessesAreServedAtTheOwner :
    let inside : List Nat := [spAddr 9 0x40]
    let outside : List Nat := [spAddr 9 0xBFFFF]
    let p := pendOf true .remote (.g 5 false) [] 1 none
    let s := (withFlight p (.rload 9 inside 7 false)).setRegion 9 0 { Region.initial with nbank := 1, asid := 7 }
    s.flights.find? (fun g => g.id == 9) = some { id := 9, src := 8, tag := 3, key := 64, op := 3, body := .rload 9 inside 7 false } ∧ s.deadTag 7 3 = false ∧
    p ∈ (s.ctx 64).pend ∧ s.sourceBlocked 64 3 false inside = false ∧ s.sourceBlocked 64 3 true outside = false ∧
    s.spRefused 7 false inside = false ∧ inside.any s.spPoisoned = false ∧ s.spWriteRefused [(spAddr 9 0x40, 1)] = false ∧ s.spRefused 7 false outside = true := by
  decide +kernel
/-- An entry of the store buffer at a mapped line, and a store on its way to a line that is HOME. -/
theorem witness_BufferedStoresReachMemory :
    (let e : SbEntry := { line := 0x48, asid := 7, cells := [(0x1234, 1)], stores := [(64, 3)], born := 0, svc := false }
     let s := jobState.modCore 8 (fun c => { c with sb := [e] })
     (s.core 8).sb[0]? = some e ∧ ∃ s1 pa leaf,
      (s.modCore 8 (fun c => { c with sb := c.sb.filter (fun x => !(x.asid == e.asid && x.line == e.line && x.svc == e.svc)) })).translate (clusterOf 8) 7 (0x48 * 64) .wr false =
        (s1, .ok (pa, leaf))) ∧
    (let e : L2Store := { id := 4, core := 8, cells := [(0x40001234, 1)], stores := [(64, 3)], vline := 0x48, asid := 7 }
     let s := jobState.modMem (fun m => { m with l2q := [e] })
     s.mem.l2q.find? (fun x => x.id == 4) = some e ∧ s.acceptReady e = true ∧ s.homed 7 0x40001234 = true ∧ s.paWriteRefused 7 e.cells = false) := by
  refine ⟨⟨by decide +kernel, ?_⟩, by decide +kernel⟩
  rw [translate_empty _ _ _ _ _ _ rfl]
  exact succeeds (by decide +kernel)
/-- A slot that holds an ATOMIC message. -/
def slotOfAtomic (chan : Nat) : Slot :=
  { id := 6, msg := { words := #v[header 4 0 3 8 8 0, BitVec.ofNat 64 (spAddr 8 0x40), 1, 0, 0xA0, 0, 0, 0], asid := 7, pkg := 0, ackKey := 64, ackId := 3
                      acq := false, newTask := false }, chan := chan, msgid := 0, busy := false }
/-- A walk at the last cluster, and a region in each of the two states of its reclaim. -/
theorem witness_WalksAndReclaims : jobState.tlbFind 255 7 0x1234 = none ∧ (∃ x, (jobState.readyWalk 7 0x1234).walk 7 0x1234 = .ok x) ∧
    (let s := jobState.setRegion 8 31 { Region.initial with nbank := 2, asid := 7, reclaim := 1 }
     (s.region 8 31).reclaim = 1 ∧ (s.core 8).guards = []) ∧ ((jobState.setRegion 8 31 { Region.initial with reclaim := 2 }).region 8 31).reclaim = 2 := by
  refine ⟨by decide +kernel, ?_, by decide +kernel, by decide +kernel⟩
  have h : (match (jobState.readyWalk 7 0x1234).walk 7 0x1234 with | .ok _ => true | .error _ => false) = true := by decide +kernel
  split at h
  · exact ⟨_, ‹_›⟩
  · cases h
/-- A message of an atomic that waits at core 8 behind a store of the core to the same byte, and one with nothing before it. -/
theorem witness_AtomicsWaitAtTheirSource :
    (let s := withFlight (pendOf false .bank .none ownCell 1 none) (.held (slotOfAtomic 0).msg [spAddr 8 0x40])
     s.flights.find? (fun g => g.id == 9) = some { id := 9, src := 8, tag := 3, key := 64, op := 3, body := .held (slotOfAtomic 0).msg [spAddr 8 0x40] } ∧
     s.sourceBlocked 64 4 true [spAddr 8 0x40] = true ∧ s.sourceBlocked 64 3 true [spAddr 8 0x40] = false) := by decide +kernel
/-- An ATOM.ADD of 8 bytes with RET at core 8's own scratchpad, and its reply; one without RET that is acknowledged. -/
theorem witness_AtomicsAreServedAndAnswered :
    (let p := pendOf true .atomic (.old 5 8) [] 1 none
     let x : Slot := slotOfAtomic 0
     let s := (withPend p).modCore 8 (fun c => { c with inbox := [x] })
     s.flights = [] ∧ (s.cores.find? (fun p => p.2.inbox.any (fun y => y.id == 6))).map (·.1) = some 8 ∧
     s.nextAtomic 8 = some x ∧ (s.chan 8 0).atomh = false ∧
     s.sourceBlocked 64 3 true (runAt (spAddr 8 0x40) 8) = false ∧ s.spRefused 7 false (runAt (spAddr 8 0x40) 8) = false ∧ (runAt (spAddr 8 0x40) 8).any s.spPoisoned = false) ∧
    (let p := pendOf true .atomic (.old 5 8) [] 0 (some (.old 7 0))
     ((withPend p).ctx 64).pend.find? (fun q => q.id == 3 && decide (q.route = .atomic) && q.ready) = some p ∧ (7 : Word).toNat < 2 ^ (8 * 8)) ∧
    (let p := pendOf false .atomic .none [] 0 (some .done)
     ((withPend p).ctx 64).pend.find? (fun q => q.id == 3 && decide (q.route = .atomic) && q.ready) = some p ∧ p.load = false ∧ ((withPend p).ctx 64).phase = .run) := by
  decide +kernel

/-! ### Messages, channels and activations -/

/-- The job's context with w0 of a message of a kind, a channel and a core. -/
def withW (kind : BitVec 4) (chan : BitVec 6) (dest : BitVec 12) : State :=
  jobState.modCtx 64 (fun c => { c with w := (c.w.set 0 (header kind chan 0 dest 0 0)).set 1 5 })
/-- A message of a kind to core 8 that waits in a channel of its inbox. -/
def slotOf (kind : BitVec 4) (chan : BitVec 6) (id : Nat) : Slot :=
  { id := id, msg := { words := #v[header kind chan 3 8 8 0, 0x1000, 0, 0, 0, 0, 0, 0], asid := 7, pkg := 0, ackKey := 64, ackId := 3, acq := false, newTask := false }
    chan := chan.toNat, msgid := 0, busy := false }
/-- The job's core with messages. -/
def withInbox (xs : List Slot) : State := jobState.modCore 8 (fun c => { c with inbox := xs })
/-- R101: SEND fills in TAG 3 and SRC 8. -/
theorem test_send_header : ((after (exec .send (withW 1 2 9)) State.reset).mail.map (fun m => m.msg.words[0])) = [header 1 2 3 9 8 0] := by decide +kernel
/-- R342, R346: and a KIND of 4 traps SENDBAD (0x11) with the destination; on a service core the record's NOTIFY says so. -/
theorem test_send_bad : ((after (exec .send ((withWords []).modCtx 0 (fun c => { c with w := c.w.set 0 (header 4 2 0 9 0 0) }))) State.reset).mail.map
    (fun m => (m.msg.kind, m.msg.words[1].toNat % 256, m.msg.words[5]))) = [(11, 0x11, 9)] := by decide +kernel
/-- R97: of 256 messages of one channel the channel spills. -/
theorem test_spill : ((after (exec (.messageArrival 900) { withInbox ((List.range 255).map (slotOf 1 2 ·)) with
      mail := [{ id := 900, src := 8, dest := 8, msg := (slotOf 1 2 0).msg, retires := none }] }) State.reset).chan 8 2).spill = true := by decide +kernel

theorem witness_SendsCarryTheMessageRegisters : let s := withW 1 2 9
    (fieldOf s.me.w[0] 63 60 = 1) ∧ MayReach s (fieldOf s.me.w[0] 37 26) (fieldOf s.me.w[0] 59 54) ∧ (∀ p ∈ s.me.pend, p.acq = 0) ∧
    ¬(s.sched.cur % 8 = 7 ∧ fieldOf s.me.w[0] 37 26 = s.myCore) ∧ s.me.buffered.length < 8 := by
  refine ⟨?_, Or.inr ?_, ?_, ?_, ?_⟩ <;> decide +kernel
/-- A KIND of 4; a service core; a channel outside the allotment; eight messages buffered. -/
theorem witness_SendRefusals : fieldOf (withW 4 2 9).me.w[0] 63 60 = 4 ∧ (withW 1 2 0).svc 64 = false ∧ (withW 1 2 0).ownerRefused 7 0 = true ∧
    (withW 1 2 9).ownerRefused 7 9 = false ∧ ((withW 1 3 9).chan 8 3).allot = false ∧
    (MayReach (withW 11 2 9) 9 2) ∧ ((withW 11 2 9).modCtx 64 (fun c => { c with buffered := List.replicate 8 (slotOf 1 2 0).msg })).me.buffered.length = 8 := by
  refine ⟨?_, ?_, ?_, ?_, ?_, Or.inr ?_, ?_⟩ <;> decide +kernel
theorem witness_StartSendsItsTask : let s := jobRegs (BitVec.ofNat 64 (9 + 2 ^ 12 * 2 + 2 ^ 18 * 5 + 2 ^ 34 * 1)) 0x1000 0
    fieldOf (rdG s.me 1) 63 40 = 0 ∧ (rdG s.me 2).toNat % 4 = 0 ∧ MayReach s 9 2 ∧ MayReach s 9 1 ∧ (∀ p ∈ s.me.pend, p.acq = 0) := by
  refine ⟨?_, ?_, Or.inr ?_, Or.inr ?_, ?_⟩ <;> decide +kernel
theorem witness_SpawnStartsEveryUnit : let s := jobRegs (BitVec.ofNat 64 (1 + 2 ^ 19 * 1)) 0 0
    s.jobOn s.myCore = some testJob ∧ fieldOf (rdG s.me 1) 63 25 = 0 ∧ 1 ≤ testJob.nlevel ∧
    ((s.levelUnits testJob 1).take (testJob.level 1 0 16 13)).length = testJob.level 1 0 16 13 ∧
    (∀ u ∈ (s.levelUnits testJob 1).take (testJob.level 1 0 16 13), u.entry = none) ∧ 0 < testJob.level 1 0 16 13 ∧
    (s.chan s.myCore 1).allot = true ∧ (s.chan s.myCore 1).atomh = false ∧ (∀ p ∈ s.me.pend, p.acq = 0) ∧ s.me.st < 63 := by decide +kernel
theorem witness_ActivationsEnd : let s := (jobRegs (BitVec.ofNat 64 (spAddr 9 0)) 0 0).modCtx 64 (fun c => { c with slot := some 5 })
    s.me.st = 0 ∧ s.me.slot = some 5 ∧ s.sched.cur % 8 < 6 ∧ fieldOf (rdG s.me 1) 51 48 = 0xC ∧
    s.ownerRefused (s.core s.myCore).asid ((rdG s.me 1).toNat / 2 ^ 36 % 2 ^ 12) = false ∧ s.me.pend = [] ∧ s.me.deferred = [] := by decide +kernel
theorem witness_ActivationsDoNotEndEarly : (withPend (pendOf false .bank .none [] 1 none)).me.st ≠ 0 ∧
    fieldOf (rdG (jobRegs 0x1000 0 0).me 1) 51 48 ≠ 0xC ∧ 6 ≤ ({ jobState with sched := { jobState.sched with cur := 70 } } : State).sched.cur % 8 := by decide +kernel
/-- Core 9 of the same cluster and job lags behind; and a context that waits at ALIGN for 256 cycles. -/
theorem witness_AlignWaitsForLaggards :
    (let s := { jobState with ctxs := jobState.ctxs ++ [(72, runningAt 0xC00)], cores := jobState.cores ++ [(9, { Core.initial with asid := 7, hasJob := true })] }
     s.lagging s.sched.cur = true ∧ s.me.waited < 256) ∧ jobState.lagging jobState.sched.cur = false ∧
    (let s := jobState.modCtx 64 (fun c => { c with ir := 0x980001C0#32, waiting := true, waited := 256 })
     (s.ctx 64).phase = .run ∧ (s.ctx 64).waiting = true ∧ (s.ctx 64).budgetLeft ≠ 0 ∧ (s.ctx 64).ir = 0x980001C0#32 ∧ 256 ≤ (s.ctx 64).waited) := by decide +kernel
/-- The own core's channel 2, and the same channel of core 9. -/
theorem witness_ChannelControl : ((jobRegs 2 0 0).chan 8 2).allot = true ∧ (rdG (jobRegs 2 0 0).me 1).getLsbD 18 = false ∧
    (let x := rdG (jobRegs (BitVec.ofNat 64 (2 + 2 ^ 6 * 9 + 2 ^ 18)) 0 0).me 1
     x.getLsbD 18 = true ∧ fieldOf x 17 6 = 9 ∧ fieldOf x 5 0 = 2) ∧ jobState.myCore = 8 ∧ jobState.destRefused 64 9 = false := by decide +kernel
/-- A packet of the job's to a core that runs another's, between cores that are not service cores; and one of a service core. -/
theorem witness_ChannelControlPackets_other : (jobState.core 8).hasJob = true ∧ (jobState.core 8).asid ≠ 9 ∧ isService 9 = false ∧ isService 8 = false ∧
    isService 0 = true := by decide +kernel
theorem witness_ChannelControlPackets : let f : Flight := { id := 9, src := 9, tag := 3, key := 0, op := 0, body := .chanCtl 8 2 1 0 7 }
    ({ jobState with flights := [f] } : State).flights.find? (fun g => g.id == 9) = some f ∧ (∀ g ∈ [f], g.id < 9 → g.src = f.src → ∀ c' a' p' i', g.body ≠ .chanCtl 8 c' a' p' i') := by
  refine ⟨by decide +kernel, ?_⟩
  intro g hg h; simp only [List.mem_singleton] at hg; subst hg; exact absurd h (by decide)
/-- A size of 4 KiB and one of 768 KiB; a size that is no multiple; no free entry; a region that the program allocated. -/
theorem witness_RegionsAllocatedAndFreed :
    let s := jobState.setRegion 8 0 Region.initial
    let full := { jobState with regions := (List.range 32).map (fun n => (8 * 32 + n, { Region.initial with first := n, nbank := 1, asid := 7 })) }
    let unused (s : State) (n : Nat) : Bool := let r := s.region 8 n; r.nbank == 0 || decide (2 ≤ r.reclaim)
    (4096 % 4096 = 0 ∧ (List.range 32).find? (unused s) = some 0 ∧ s.firstFit 8 0 1 = some 0 ∧ s.firstFit 8 0 192 = some 0 ∧ s.firstFit 8 2 1 = some 128 ∧
      (∀ k, k < 32 → (s.region 8 k).reclaim < 2)) ∧ 4097 % 4096 ≠ 0 ∧ 786432 < 790528 ∧ (List.range 32).find? (unused full) = none ∧
    ((List.range 32).find? (unused jobState) = some 1 ∧ jobState.firstFit 8 0 1 = none) ∧
    (let r := (s.setRegion 8 1 { Region.initial with first := 3, nbank := 1, origin := .ralloc, asid := 7 }).region 8 1
     r.nbank ≠ 0 ∧ r.reclaim = 0 ∧ r.first * 4096 = fieldOf (BitVec.ofNat 64 (2 ^ 20 + 0x3000)) 19 0 ∧ r.asid = 7 ∧ r.origin = .ralloc) := by decide +kernel
/-- A NOTIFY in an enabled channel; a message of a spilled channel; a spilled channel without messages; an atomic of a channel with handled atomics. -/
theorem witness_ActivationsBegin : jobState.selectionHeld 8 = false ∧
    (let s := withInbox [slotOf 11 2 5]
     s.freeGeneral 8 = some 65 ∧ s.selected 8 = some 2 ∧ (s.core 8).inbox.find? (fun y => y.chan == 2 && !y.busy && !(y.msg.kind == 4)) = some (slotOf 11 2 5) ∧
     (slotOf 11 2 5).msg.kind = 11) ∧
    (let s := (withInbox [slotOf 1 2 5]).modChan 8 2 (fun h => { h with spill := true })
     (s.ctx 71).phase = .free ∧ (s.jobOn 8).isSome ∧ earliest (s.spillWaiting 8) = some (slotOf 1 2 5)) ∧
    (List.range 64).find? (fun k => ((jobState.modChan 8 63 (fun h => { h with spill := true })).chan 8 k).spill) = some 63 ∧
    (let s := (withInbox [slotOf 4 2 5]).modChan 8 2 (fun h => { h with atomh := true })
     s.nextAtomic 8 = some (slotOf 4 2 5) ∧ (s.chan 8 2).atomh = true) := by decide +kernel
/-- The first reserved KIND; a TASK message to a core of its job with one slot less than full, and with none free. -/
theorem witness_MessagesArriveInOrder :
    let mail (k : BitVec 4) : Mail := { id := 900, src := 8, dest := 8, msg := (slotOf k 2 0).msg, retires := none }
    (mail 12).msg.kind = 12 ∧ (jobState.core 8).dropKind ≠ BitVec.allOnes 32 ∧ (mail 1).msg.kind = 1 ∧ jobState.deadTag (mail 1).msg.asid (mail 1).msg.tag = false ∧
    (jobState.core 8).hasJob = true ∧ (jobState.core 8).asid = (mail 1).msg.asid ∧ ((withInbox ((List.range 254).map (slotOf 1 2 ·))).core 8).inbox.length < 255 ∧
    256 ≤ ((withInbox ((List.range 256).map (slotOf 1 2 ·))).core 8).inbox.length := by decide +kernel
theorem witness_ForwardingEntriesExpire : let f : Fwd := { ctx := 0, tag := 3, dest := 9, serial := 0, owed := [], born := 0 }
    let s := { jobState.modCore 8 (fun c => { c with fwds := [f] }) with now := 4096 }
    (s.core 8).fwds[0]? = some f ∧ f.born + 4096 ≤ s.now ∧ (s.core 8).fwdLate ≠ BitVec.allOnes 32 := by decide +kernel

/-! ### Tokens and child operations -/

/-- A read of scratchpad bytes that nothing holds back leaves the state as it is and gives the bytes. -/
theorem readSp (s : State) (key id : Nat) (addrs : List Nat) (h1 : s.sourceBlocked key id false addrs = false)
    (h2 : s.spRefused (s.core (coreOf key)).asid (s.svc key) (addrs.filter isSp) = false) (h3 : (addrs.filter isSp).any s.spPoisoned = false)
    (h4 : addrs.all isSp = true) : s.readBytes key id false addrs = some (s, .ok (addrs.map (memGet s.mem.cells))) := by
  have h5 : addrs.filter (fun a => !isSp a) = [] := by
    rw [List.filter_eq_nil_iff]; intro a ha; rw [List.all_eq_true] at h4; simp [h4 a ha]
  have h6 : (addrs.map (fun a => if isSp a then memGet s.mem.cells a else ((([] : List (Nat × List Byte)).find? (fun p => p.1 == lineOf a)).map
      (fun p => p.2.getD (a % 64) 0)).getD 0)) = addrs.map (memGet s.mem.cells) := by
    apply List.map_congr_left; intro a ha; rw [List.all_eq_true] at h4; simp [h4 a ha]
  unfold State.readBytes
  simp only [h1, h2, h3, h5, Bool.false_eq_true, if_false, List.map_nil, List.eraseDups_nil, State.readLines, h6]
/-- The job's context over an operation in slot 127 of its core. -/
def withOp (o : Op) (t : Word) : State := (jobRegs t 0 0).setOp 8 127 o
/-- The token of slot 127 of core 8 at generation 1. -/
def tok : Word := BitVec.ofNat 64 (8 * 2 ^ 20 + 127 * 2 ^ 13 + 1)
/-- An operation of the context at work in a state. -/
def opIn (st : TokState) : Op := { Op.initial with state := st, key := 64 }
/-- R253: TSTAT of a DONE copy with status 1. -/
theorem test_tstat_done : rdG (after (exec (.tstat 3 1) (withOp { opIn .done with status := 1, unit := 4 } tok)) State.reset).me 3 = 0x0100000400000005 := by decide +kernel
/-- R241: TSTAT.R frees the slot and its generation moves on, from 8,191 to 1. -/
theorem test_tstat_r_generation : ((after (exec (.tstatR 3 1) (withOp { opIn .done with gen := 8191 } (tok + 8190))) State.reset).op 8 127).gen = 1 := by decide +kernel
/-- A record of CPY of eight bytes within the own scratchpad, at offset 0x400; g1 points to it. -/
def copyState : State :=
  let r : BitVec 512 := BitVec.ofNat 512 (spAddr 8 0x100 * 2 ^ 256 + spAddr 8 0x200 * 2 ^ 320 + 8 * 2 ^ 384 + 2 ^ 416)
  (jobRegs (BitVec.ofNat 64 (spAddr 8 0x400)) 0 0).modMem (fun m => { m with cells := memWrite m.cells (cellsAt (spAddr 8 0x400) (leBytes 64 r.toNat)) })
/-- The bytes of the record. -/
def copyBytes : List Byte := (runAt (spAddr 8 0x400) 64).map (memGet copyState.mem.cells)
/-- The operands of CPY g3, g1, g2, attached. -/
def copyChild : Child := ⟨rulesCpy, 3, 1, 2, 0, 0, 0, 0⟩
/-- R233, R237: CPY takes slot 0 and returns its token. -/
theorem test_cpy_token : rdG (after (exec (.cpy 3 1 2 0 0 0 0) copyState) State.reset).me 3 = 0x00800001 := by decide +kernel

/-- A token that has a high bit, one of another core, token 0, a stale one of a free slot and one of an old generation, a live one that runs and one that is over. -/
theorem witness_TokenStatusIsRead : (∀ w f, jobState.me.wake ≠ some (.twait w f)) ∧ badToken 8 (BitVec.ofNat 64 (2 ^ 32)) ∧ badToken 8 (BitVec.ofNat 64 (9 * 2 ^ 20 + 1)) ∧
    Stale jobState tok ∧ Stale (withOp (opIn .done) (tok + 1)) (tok + 1) ∧ Live (withOp (opIn .running) tok) tok ∧ ¬Over (opIn .running) ∧
    jobState.me.waitLimit ≠ 0 ∧ Live (withOp (opIn .cancelled) tok) tok ∧ Over (opIn .cancelled) := by
  refine ⟨fun w f h => (by cases h), ?_⟩
  unfold badToken Stale Live Over badToken
  decide +kernel
/-- The states on which the clauses differ. -/
theorem witness_TokenActions : (∀ st ∈ [TokState.pending, .queued, .suspended, .running, .done], Live (withOp (opIn st) tok) tok) ∧ (opIn .running).status = 0 ∧
    (opIn .running).cancel = 0 ∧ (opIn .running).det = false ∧ (opIn .pending).killed = false ∧ (let o : Op := { opIn .suspended with cause := 3 }
      Live (withOp o tok) tok ∧ o.state = .suspended ∧ o.cause ≠ 0) ∧ (opIn .running).key = jobState.sched.cur := by
  unfold Live badToken; decide +kernel
theorem witness_RecordsStoredAndFenced : let s := (jobRegs 0 (BitVec.ofNat 64 (spAddr 8 0x400)) 0)
    ¬badToken s.myCore (rdG s.me 1) ∧ ((rdG s.me 2).toNat % 2 ^ 52 % 32 = 0) ∧ faultOf (s.accessCheck s.sched.cur ((rdG s.me 2).toNat % 2 ^ 52) 32 0 true) = none ∧
    StoreReady s s ((accessAddrs ((rdG s.me 2).toNat % 2 ^ 52) 32 0).zip (List.replicate 32 0)) ∧ ((spAddr 8 0x410) % 2 ^ 52 % 32 ≠ 0) ∧
    (∀ n, n < 128 → (s.op s.myCore n).state = .free) ∧
    (let u := withOp (opIn .running) tok
     (u.op u.myCore 127).state ≠ .free ∧ ¬Over (u.op u.myCore 127) ∧ (u.op u.myCore 127).key = u.sched.cur ∧ (u.op u.myCore 127).act = u.me.act ∧
       (1 : BitVec 4).getLsbD (u.op u.myCore 127).form.cls = true ∧ u.me.waitLimit ≠ 0) := by
  unfold badToken Over
  refine ⟨?_, ?_, ?_, ⟨?_, ?_, ?_, ?_, ?_, settles _ _ ?_⟩, ?_, ?_, ?_⟩ <;> decide +kernel
theorem witness_ChildOperationsAreIssued :
    RecordRead (.cpy 3 1 2 0 0 0 0) copyChild copyState copyState copyBytes ∧ IssueOk copyChild copyState copyState (BitVec.ofNat 512 (leNat copyBytes)) ∧
    (match copyChild.rules.check copyState (BitVec.ofNat 512 (leNat copyBytes)) with | .ok r => some r | .error _ => none) =
      some [(spAddr 8 0x100, spAddr 8 0x108), (spAddr 8 0x200, spAddr 8 0x208)] ∧
    (List.range 128).find? (fun n => decide ((copyState.op copyState.myCore n).state = .free)) = some 0 ∧
    (copyState.core copyState.myCore).guards.length + 2 ≤ 16 ∧ copyState.me.cp < 63 ∧ copyState.me.tl < 63 := by
  refine ⟨⟨rfl, fun h => ?_, ?_, ?_, passes ?_, ?_, ?_, ?_⟩, ⟨?_, ?_, ?_, ?_, fun h => absurd h ?_, fun h => absurd h ?_, fun h => absurd h ?_⟩, ?_, ?_, ?_, ?_, ?_⟩
  · rcases h with h | h <;> cases h
  all_goals first | decide +kernel | skip
  all_goals first | (unfold badToken; decide +kernel) | skip
  exact readSp _ _ _ _ (by decide +kernel) (by decide +kernel) (by decide +kernel) (by decide +kernel)
/-- The predecessor's states on which the three outcomes of an issue depend. -/
theorem witness_ChildOperationsAreIssued_after : Stale copyState tok ∧ (let s := copyState.setOp 8 127 (opIn .faulted)
    ¬Stale s tok ∧ (s.op 8 (Claims.slotOf tok)).state = .faulted) ∧ (let s := copyState.setOp 8 127 (opIn .running)
    ¬Stale s tok ∧ (s.op 8 (Claims.slotOf tok)).state = .running) := by unfold Stale badToken; decide +kernel
/-- A record of zeros breaks its map; a misaligned pointer; PGATE at job level; a copy outside the job's regions. -/
theorem witness_ChildOperationsAreRefused : rulesCpy.bad copyState 0 = true ∧ (rdG (jobRegs 0x10 0 0).me 1).toNat % 2 ^ 52 % 32 ≠ 0 ∧
    (childOp (.pgate 3 1 2 0 0 0 0)).map (fun c => decide (c.rules.form = .pgate)) = some true ∧ jobState.svc jobState.sched.cur = false ∧
    RecordRead (.cpy 3 1 2 0 0 0 0) copyChild copyState copyState copyBytes ∧
    (match rulesCpy.check (copyState.setRegion 8 0 Region.initial) (BitVec.ofNat 512 (leNat copyBytes)) with | .ok _ => none | .error e => some e.1) = some cREGION := by
  refine ⟨?_, ?_, ?_, ?_, witness_ChildOperationsAreIssued.1, ?_⟩ <;> decide +kernel
theorem witness_OperationsBecomeTerminal : let o : Op := { opIn .running with status := 0x10, cause := 3 }
    o.state = .running ∧ o.status = 0x10 ∧ o.beats = [] ∧ o.unacked = 0 ∧ o.cause ≠ 0x42 ∧
    (((withOp o tok).modCtx 65 (fun c => { c with await := .token 8 127 1 })).ctx 65).await = .token 8 127 o.gen.toNat := by decide +kernel

/-! ### Copies and matrix engines -/

/-- Addresses of scratchpads and tile stores that no check refuses are gathered as their bytes. -/
theorem gatherOwn (s : State) (core : Nat) (o : Op) (as : List Nat) (h0 : (s.ctx o.key).pend = []) (h1 : ∀ a ∈ as, regionOf a = 0xC) (h2 : ∀ a ∈ as, isPa a = false)
    (h3 : ∀ a ∈ as, s.placeFault o.asid o.svc a = none) : s.gather core o as = some (s, .ok (as.map (s.placeByte o.asid))) := by
  have e1 : as.filter (fun a => decide (regionOf a < 0xC)) = [] := by
    rw [List.filter_eq_nil_iff]; intro a ha; rw [h1 a ha]; decide
  have e2 : pagesIn as = [] := by unfold pagesIn; rw [e1]; rfl
  have e3 : ∀ a ∈ as, s.placed o.asid o.svc [] a = .ok a := by
    intro a ha; unfold State.placed; rw [h1 a ha]; rfl
  have e4 : ∀ (l : List Nat), (∀ a ∈ l, s.placed o.asid o.svc [] a = .ok a) → lowestFault (s.placed o.asid o.svc []) l = none := by
    intro l; unfold lowestFault
    induction l with
    | nil => intro _; rfl
    | cons a t ih => intro h; rw [List.foldl_cons, h a (by simp)]; exact ih (fun x hx => h x (by simp [hx]))
  have e5 : ∀ f : Nat → Nat, (∀ a ∈ as, f a = a) → as.map f = as := by
    intro f hf; conv => rhs; rw [← List.map_id as]
    apply List.map_congr_left; intro a ha; rw [hf a ha]; rfl
  have e6 : as.any (s.placeBusy o.asid) = false := by
    rw [List.any_eq_false]; intro a ha; simp [State.placeBusy, h2 a ha]
  have e7 : (as.zip as).findSome? (fun p => (s.placeFault o.asid o.svc p.2).map (fun c => (c, p.1))) = none := by
    rw [List.findSome?_eq_none_iff]; intro p hp; rw [h3 p.2 (List.of_mem_zip hp).2]; rfl
  unfold State.gather
  simp only [e2, State.pages]
  rw [e4 as e3]
  dsimp only
  rw [e5 _ (fun a ha => by rw [e3 a ha]), e6, e7, show s.issuerStoring o as = false by unfold State.issuerStoring; rw [h0]; rfl]; rfl
/-- A write that is carried out. -/
theorem written {x : Option (Except (BitVec 8) State)} (h : (x.bind resultOf).isSome = true) : ∃ u, x = some (.ok u) := by
  rcases x with _ | (_ | u)
  · cases h
  · cases h
  · exact ⟨u, rfl⟩
/-- A lane of engine 0 with a command in slot 5 of core 8. -/
def laneOf (waiting : Bool) : Lane := { op := 8 * 128 + 5, asid := 7, avail := 1, word2 := 0, scales := [0, 0, 0, 0], waiting := waiting, entry := 0, codes := [] }
/-- The command of a form and a record in a lane of engine 0. -/
def inLane (l : Nat) (f : Form) (r : Nat) (waiting : Bool) : State :=
  (jobState.setOp 8 5 { Op.initial with state := .running, form := f, record := BitVec.ofNat 512 r, asid := 7, svc := true, task := 3, key := 64 }).modEngine 0
    (fun e => { e.takeLane l (laneOf waiting) with frontV := true, resent := [(0, { Resent.initial with tag := 9, asid := 7, valid := true }), (1, { Resent.initial with tag := 8, asid := 7, valid := true })] })
/-- The record of an MMX of one vector of one plane, at tile-store addresses of engine 0. -/
def mmxRecord : Nat := tileAddr 0 0 0 * 2 ^ 256 + tileAddr 0 0 0x4000 * 2 ^ 320 + tileAddr 0 0 0x8000 * 2 ^ 384 + 1 * 2 ^ 492
/-- Eight copies of cluster 2 that run, of one issue. -/
def manyCopies (st : TokState) (n : Nat) : State :=
  { jobState with ops := (List.range n).map (fun k => (8 * 128 + k, { Op.initial with state := st, asid := 7, key := 64, seq := k, pri := 1 })) }
/-- R248: the earlier issue runs first. -/
theorem test_copy_schedule : ((after (exec (.copySchedule 2) (manyCopies .queued 3)) State.reset).ops.map (fun p => decide (p.2.state = .running))) = [true, false, false] := by
  decide +kernel
/-- R265: a vector whose E8 is 0xFF gives a NaN in every output. -/
theorem test_output_nan : outputOf 0xFF 0 none = 0x7FC00000 := by decide
/-- R265: P = 3, s = 1.0, E8 = 127, O = 1 give 3.0; a zero scale gives +0. -/
theorem test_slice_term : (sliceTerm 3 0x3F800000 127 0 false, sliceTerm 3 0 127 0 false) = (0x40400000, 0) := by decide +kernel
/-- R274, the map with decks 1 and 3 ACTIVE: slice 0 on deck 1, slice 2 on deck 3, each in pass 1. -/
theorem test_deck_map : ((List.range 4).map (deckOf [1, 3]), (List.range 4).map (passOf [1, 3])) = ([1, 1, 3, 3], [1, 0, 1, 0]) := by decide

theorem witness_CopiesAreScheduled :
    8 ≤ ((manyCopies .running 8).ops.filter (fun p => decide (clusterOf (p.1 / 128) = 2) && decide (p.2.form.cls = 0) && decide (p.2.state = .running))).length ∧
    (let s := manyCopies .queued 2
     let o : Op := { Op.initial with state := .queued, asid := 7, key := 64, pri := 1 }
     (8 * 128, o) ∈ s.ops ∧ clusterOf (8 * 128 / 128) = 2 ∧ o.form.cls = 0 ∧ s.selectionHeld 8 = false ∧
      ∀ p ∈ s.ops, p ≠ (8 * 128, o) → p.2.pri < o.pri ∨ (p.2.pri = o.pri ∧ o.seq < p.2.seq)) := by decide +kernel
/-- A copy of eight bytes and a pattern, both within the scratchpad of core 8. -/
theorem witness_CopyChunksAreTakenUp :
    let r : Nat := spAddr 8 0x100 * 2 ^ 256 + spAddr 8 0x200 * 2 ^ 320 + 8 * 2 ^ 384 + 2 ^ 416
    let s := jobState.setOp 8 5 { Op.initial with state := .running, record := BitVec.ofNat 512 r, asid := 7, key := 64 }
    let o := s.op 8 5
    let p := o.plan
    AtWork o ∧ o.look = [] ∧ o.dest = none ∧ o.prog < min p.n 512 ∧ s.selectionHeld 8 = false ∧ s.copyPreempted 8 5 = false ∧
    pagesIn (p.dst.bytes 0) = [] ∧ (p.src.map (fun d => pagesIn (d.bytes 0))) = some [] ∧ p.n = 1 ∧
    (∀ a ∈ p.dst.bytes 0, regionOf a = 0xC) ∧ (∀ a ∈ (p.src.map (fun d => d.bytes 0)).getD [], regionOf a = 0xC ∧ s.placeBusy 7 a = false ∧ s.placeFault 7 false a = none) ∧
    (∀ a ∈ p.dst.bytes 0, a ∉ (p.src.map (fun d => d.bytes 0)).getD []) ∧ s.issuerStoring o ((p.src.map (fun d => d.bytes 0)).getD []) = false ∧
    ftSmen o.dstEntry = false := by unfold AtWork; decide +kernel
theorem witness_CopyBeatsAreWritten :
    let b : Beat := { va := spAddr 8 0x200, cells := [(spAddr 8 0x200, 5)] }
    let s := jobState.setOp 8 5 { Op.initial with state := .running, asid := 7, key := 64, beats := [b], bar := true, heldBytes := 8 }
    let o := s.op 8 5
    o.form ≠ .cpyR ∧ o.state = .running ∧ o.cancel = 0 ∧ o.beats[0]? = some b ∧ s.beatTurn 8 5 = true ∧ (∃ u, s.placeWrite 7 false b.cells = some (.ok u)) ∧
    o.status = 0 ∧ isSp (b.cells.headD (0, 0)).1 = true ∧ (b.cells.map (·.1)).Nodup := by
  refine ⟨by decide, rfl, rfl, rfl, by decide +kernel, ?_, rfl, by decide +kernel, by decide⟩
  exact written (by decide +kernel)
/-- A copy, a transfer command and a collective to be cancelled. -/
theorem witness_CancellationsStopAtTheUnit : ∀ f ∈ [Form.cpy, .tcopyBp, .cred],
    let o : Op := { Op.initial with state := .running, form := f, cancel := 0x41 }
    o.state = .running ∧ o.cancel ≠ 0 ∧ o.status = 0 ∧ o.unacked = 0 ∧ (o.form.isCopy = true ∨ o.form = .tcopyBp ∨ o.form = .tcopyAcc ∨ o.form.cls = 2) := by decide
/-- A copy cancelled after a fault was found ahead of beats that are left. -/
theorem witness_CancellationsStopAtTheUnit_ahead : let o : Op := { Op.initial with state := .running, cancel := 0x41, status := 0x10, beats := [{ va := 0, cells := [] }] }
    o.state = .running ∧ o.cancel ≠ 0 ∧ o.unacked = 0 ∧ o.status = 0x10 ∧ o.form.isCopy = true ∧ o.beats ≠ [] := by decide
theorem witness_MatrixCommandsQueueAndMove :
    (let s := jobState.setOp 8 5 { Op.initial with state := .queued, form := .mmx, asid := 7, key := 64 }
     let o := s.op 8 5
     o.state = .queued ∧ o.inbox = false ∧ o.form.cls = 1 ∧ (s.inboxOf o.unit.toNat).length < 64 ∧
     (∀ p ∈ s.ops, p.1 / 128 = 8 → p.2.state = .queued → o.arrived ≤ p.2.arrived)) ∧
    (let j : Job := { testJob with record := testJob.record.set 2 0x10000003 }
     let s := { jobState with jobs := [j] }
     let s1 := ((s.setOp 8 5 { Op.initial with state := .queued, form := .mmx, inbox := true, asid := 7, key := 64, record := BitVec.ofNat 512 (mmxRecord + 9 * 2 ^ 448 + 2 ^ 504 + 2 ^ 505) }).modEngine 0
       (fun e => { e with migOut := true, migWait := 0, matrix := some (laneOf false) })).modEngine 1 (fun e => { e with migIn := true })
     let o := s1.op 8 5
     o.inbox = true ∧ o.unit.toNat = 0 ∧ s1.moveTo o = some 1) := by decide +kernel
/-- A busy engine waits long where the free estimate of its wait exceeds its WAIT. -/
theorem witness_MatrixCommandsQueueAndMove_waits : let s := jobState.modEngine 0 (fun e => { e with migWait := 0, matrix := some (laneOf false) })
    0 < (Config.engineWait s.sched.fresh).toNat → s.waitsLong 0 = true := by
  intro s h
  exact (show s.waitsLong 0 = decide (0 < (Config.engineWait s.sched.fresh).toNat) from rfl).trans (decide_eq_true h)
/-- A PHLD that waits for the free phase lane, and an MMX with deck 0 ACTIVE and its image in front. -/
theorem witness_LanesTakeCommands :
    (let o : Op := { Op.initial with state := .queued, form := .phdrop, inbox := true, asid := 7, key := 64 }
     let s := jobState.setOp 8 5 o
     (s.engine 0).laneAt 1 = none ∧ FirstWaiting s 0 1 (8 * 128 + 5) o ∧ s.tileMiss o = none) ∧
    (let o : Op := { Op.initial with state := .queued, form := .mmx, inbox := true, asid := 7, key := 64, record := BitVec.ofNat 512 mmxRecord }
     let s := ((jobState.setOp 8 5 o).modDeck 0 (fun d => { d with avail := 0, req := 0 })).modPh (fun p => { p with laserPresent := 1, engines := (inLane 2 .mmx 0 false).photonic.engines })
     (s.engine 0).laneAt 0 = none ∧ s.boundaryWork 0 = false ∧ FirstWaiting s 0 0 (8 * 128 + 5) o ∧ s.tileMiss o = none ∧ o.homeEngine = 0 ∧ s.activeDecks 0 = [0] ∧
      (s.engine 0).frontV = true ∧ ((s.engine 0).entry (s.engine 0).frontIx.toNat).asid = 7 ∧ mmTag o.record = 0 ∧
      recFld o.record 500 4 ≤ s.achievedEbc 0 [0] (recFld o.record 498 2)) := by
  have h1 : ∀ (s : State) (e l k : Nat) (o : Op), s.ops = [(k, o)] → (o.inbox = true ∧ o.state = .queued ∧ o.form.cls = 1 ∧ o.unit.toNat = e ∧ o.form.lane = l ∧
      s.selectionHeld (k / 128) = false) → o.migTo = none → s.op (k / 128) (k % 128) = o → FirstWaiting s e l k o := by
    intro s e l k o hs h hm ho
    refine ⟨⟨by rw [hs]; simp, h.1, h.2.1, h.2.2.1, h.2.2.2.1, h.2.2.2.2.1, h.2.2.2.2.2, fun f hf => ?_⟩, ho, ?_⟩
    · exact absurd (hm.symm.trans hf) (by intro h; cases h)
    intro p hp hne; rw [hs] at hp; exact absurd (List.mem_singleton.1 hp.1) hne
  refine ⟨⟨?_, h1 _ _ _ _ _ ?_ ?_ ?_ ?_, ?_⟩, ?_, ?_, h1 _ _ _ _ _ ?_ ?_ ?_ ?_, ?_⟩ <;> decide +kernel
/-- The same MMX on an engine with no deck ACTIVE: its neighbour 1 may reload the image and takes it. -/
theorem witness_LanesTakeCommands_none :
    let j : Job := { testJob with record := testJob.record.set 2 0x10000003 }
    let s := ((({ jobState with jobs := [j] }).setOp 8 5 { Op.initial with state := .queued, form := .mmx, inbox := true, asid := 7, key := 64, record := BitVec.ofNat 512 (mmxRecord + 9 * 2 ^ 448 + 2 ^ 504 + 2 ^ 505) }).modEngine 0
       (fun e => { e with migOut := true })).modEngine 1 (fun e => { e with migIn := true })
    s.activeDecks 0 = [] ∧ s.moveTo (s.op 8 5) = some 1 ∧ (s.engine 0).laneAt 0 = none ∧ s.boundaryWork 0 = false ∧ s.tileMiss (s.op 8 5) = none := by decide +kernel
theorem witness_MatrixCommandsComplete : let s := inLane 0 .mmx mmxRecord false
    InLane s 0 0 8 5 (laneOf false) ∧ mmVecs (s.op 8 5).record = 1 ∧ ∀ v, v < 1 → s.vectorPoisoned (s.op 8 5) v = false := by unfold InLane; decide +kernel
/-- The bytes of 64 KiB of scratchpad memory that nothing has written. -/
theorem gatherPage (s : State) (core : Nat) (o : Op) (n : Nat) (f : Nat → Nat) (h0 : (s.ctx o.key).pend = []) (ho : o.svc = true) (hp : s.mem.poison = []) (hf : ∀ i, i < n → f i < 0x80000) :
    s.gather core o ((List.range n).map (fun i => spAddr 0 0 + f i)) = some (s, .ok (((List.range n).map (fun i => spAddr 0 0 + f i)).map (s.placeByte o.asid))) := by
  apply gatherOwn _ _ _ _ h0
  all_goals
    intro a ha
    simp only [List.mem_map, List.mem_range] at ha
    obtain ⟨i, hi, rfl⟩ := ha
    have := hf i hi
  · unfold regionOf spAddr; omega
  · unfold isPa spAddr; exact decide_eq_false (by omega)
  · have e1 : isPa (spAddr 0 0 + f i) = false := by unfold isPa spAddr; exact decide_eq_false (by omega)
    have e2 : spMalformed (spAddr 0 0 + f i) = false := by
      unfold spMalformed spAddr spOff spSize
      rw [Bool.or_eq_false_iff]
      exact ⟨decide_eq_false (by omega), decide_eq_false (by omega)⟩
    have e3 : s.spPoisoned (spAddr 0 0 + f i) = false := by unfold State.spPoisoned; rw [hp]; rfl
    unfold State.placeFault State.spRefused
    simp [e1, e2, e3, ho]
theorem witness_ImagesAreLoaded_phld : let s := inLane 1 .phld (spAddr 0 0 * 2 ^ 256 + 9 * 2 ^ 320) false
    InLane s 0 1 8 5 (laneOf false) ∧ (s.op 8 5).form = .phld ∧ ∃ bs, s.gather 8 (s.op 8 5) ((runAt (phAddr (s.op 8 5).record) 65536).map (· % 2 ^ 52)) = some (s, .ok bs) := by
  refine ⟨by unfold InLane; decide +kernel, by decide +kernel, ?_⟩
  have h : (runAt (phAddr ((inLane 1 .phld (spAddr 0 0 * 2 ^ 256 + 9 * 2 ^ 320) false).op 8 5).record) 65536).map (· % 2 ^ 52) =
      (List.range 65536).map (fun i => spAddr 0 0 + i) := by
    have e : phAddr ((inLane 1 .phld (spAddr 0 0 * 2 ^ 256 + 9 * 2 ^ 320) false).op 8 5).record = spAddr 0 0 := by decide +kernel
    rw [e]; unfold runAt; rw [List.map_map]
    apply List.map_congr_left; intro i hi
    have := List.mem_range.1 hi
    simp only [Function.comp]; unfold spAddr; omega
  rw [h]
  exact ⟨_, gatherPage _ 8 _ 65536 (fun i => i) (by decide +kernel) (by decide +kernel) (by decide +kernel) (fun i hi => by omega)⟩

/-- Runs cut from a list hold its elements alone. -/
theorem mem_chunks {α : Type} (n : Nat) : ∀ (k : Nat) (xs : List α) (c : List α), c ∈ chunksOf n k xs → ∀ x ∈ c, x ∈ xs := by
  intro k; induction k with
  | zero => intro xs c h; cases h
  | succ k ih =>
    intro xs c h x hx
    unfold chunksOf at h
    split at h
    · cases h
    · rcases List.mem_cons.1 h with rfl | h
      · exact List.mem_of_mem_take hx
      · exact List.mem_of_mem_drop (ih _ _ h x hx)
/-- Zero bytes are a zero number. -/
theorem leNat_zero : ∀ (l : List Byte), (∀ b ∈ l, b = 0) → leNat l = 0 := by
  intro l; induction l with
  | nil => intro _; rfl
  | cons b t ih => intro h; unfold leNat; rw [h b (by simp), ih (fun x hx => h x (by simp [hx]))]; rfl
/-- A PHDEC of zero weights in rows of 1,024 bytes. -/
theorem witness_ImagesAreLoaded_phdec : let s := inLane 1 .phdec (spAddr 0 0 * 2 ^ 256 + 9 * 2 ^ 320 + 1024 * 2 ^ 384) false
    let o := s.op 8 5
    InLane s 0 1 8 5 (laneOf false) ∧ o.form = .phdec ∧ ftSmen o.dstEntry = false ∧
    ∃ bs, s.gather 8 o ((List.range 16384).flatMap (fun n => (runAt (phAddr o.record + n / 256 * recFld o.record 384 32 + 4 * (n % 256)) 4).map (· % 2 ^ 52))) =
      some (s, .ok bs) ∧ ∀ w ∈ wordsIn 4 bs, nonFinite (BitVec.ofNat 32 w) = false := by
  refine ⟨by unfold InLane; decide +kernel, by decide +kernel, by decide +kernel, ?_⟩
  have e1 : phAddr ((inLane 1 .phdec (spAddr 0 0 * 2 ^ 256 + 9 * 2 ^ 320 + 1024 * 2 ^ 384) false).op 8 5).record = spAddr 0 0 := by decide +kernel
  have e2 : recFld ((inLane 1 .phdec (spAddr 0 0 * 2 ^ 256 + 9 * 2 ^ 320 + 1024 * 2 ^ 384) false).op 8 5).record 384 32 = 1024 := by decide +kernel
  have hm : ∀ a ∈ (List.range 16384).flatMap (fun n => (runAt (spAddr 0 0 + n / 256 * 1024 + 4 * (n % 256)) 4).map (· % 2 ^ 52)),
      spAddr 0 0 ≤ a ∧ a < spAddr 0 0 + 65536 := by
    intro a ha
    simp only [List.mem_flatMap, List.mem_range, List.mem_map, runAt] at ha
    obtain ⟨n, hn, x, ⟨i, hi, rfl⟩, rfl⟩ := ha
    unfold spAddr; omega
  rw [e1, e2]
  refine ⟨_, gatherOwn _ 8 _ _ (by decide +kernel) ?_ ?_ ?_, ?_⟩
  · intro a ha; have := hm a ha; unfold spAddr at this; unfold regionOf; omega
  · intro a ha; have := hm a ha; unfold spAddr at this; unfold isPa; exact decide_eq_false (by omega)
  · intro a ha
    have := hm a ha; unfold spAddr at this
    have f1 : isPa a = false := by unfold isPa; exact decide_eq_false (by omega)
    have f2 : spMalformed a = false := by
      unfold spMalformed spOff spSize; rw [Bool.or_eq_false_iff]; exact ⟨decide_eq_false (by omega), decide_eq_false (by omega)⟩
    unfold State.placeFault State.spRefused
    have f3 : State.spPoisoned (inLane 1 .phdec (spAddr 0 0 * 2 ^ 256 + 9 * 2 ^ 320 + 1024 * 2 ^ 384) false) a = false := by rfl
    have f4 : ((inLane 1 .phdec (spAddr 0 0 * 2 ^ 256 + 9 * 2 ^ 320 + 1024 * 2 ^ 384) false).op 8 5).svc = true := by decide +kernel
    generalize inLane 1 .phdec (spAddr 0 0 * 2 ^ 256 + 9 * 2 ^ 320 + 1024 * 2 ^ 384) false = s at f3 f4 ⊢
    simp [f1, f2, f3, f4]
  · intro w hw
    unfold wordsIn at hw
    rw [List.mem_map] at hw
    obtain ⟨c, hc, rfl⟩ := hw
    rw [leNat_zero c]
    · decide +kernel
    · intro b hb
      have hb := mem_chunks 4 _ _ c hc b hb
      rw [List.mem_map] at hb
      obtain ⟨a, ha, rfl⟩ := hb
      have := hm a ha; unfold spAddr at this
      have f1 : isPa a = false := by unfold isPa; exact decide_eq_false (by omega)
      unfold State.placeByte; rw [f1]
      have f5 : (inLane 1 .phdec (spAddr 0 0 * 2 ^ 256 + 9 * 2 ^ 320 + 1024 * 2 ^ 384) false).mem.cells =
        memWrite [] (cellsAt 0x200000 (leBytes 8 0x4000001F)) := rfl
      rw [f5, show memWrite [] (cellsAt 0x200000 (leBytes 8 0x4000001F)) = [(0x200000, 0x1F), (0x200003, 0x40)] from by decide +kernel]
      simp only [Bool.false_eq_true, if_false, memGet]
      rw [if_neg (by omega), if_neg (by omega)]; rfl
/-- A PHRES of a resident tag, and a command that waits for the back bank. -/
theorem witness_ImagesAreLoaded_phres : (let s := inLane 1 .phres (9 * 2 ^ 320) false
    InLane s 0 1 8 5 (laneOf false) ∧ (s.op 8 5).form = .phres ∧ (s.engine 0).matching (phTag (s.op 8 5).record) 7 = [0] ∧ ∀ c, pickEntry c [0] = some 0) ∧
    (let s := inLane 1 .phld (9 * 2 ^ 320) true
     InLane s 0 1 8 5 (laneOf true) ∧ (laneOf true).entry < 8 ∧ (s.engine 0).bnew = false ∧ s.selectionHeld 8 = false) := by
  refine ⟨⟨by unfold InLane; decide +kernel, by decide +kernel, by decide +kernel, fun c => ?_⟩, by unfold InLane; decide +kernel⟩
  unfold pickEntry; rw [show [0].length = 1 from rfl, Nat.mod_one]; rfl
theorem witness_BanksSwapAndImagesDrop : (let s := (inLane 0 .phswp 0 false).modEngine 0 (fun e => { e with backIx := 1, backV := true })
    let g := s.engine 0
    InLane s 0 0 8 5 (laneOf false) ∧ (s.op 8 5).form = .phswp ∧ g.backV = true ∧ (g.entry g.backIx.toNat).asid = 7 ∧ phTag (s.op 8 5).record = 0 ∧ g.backStale = false) ∧
    (let s := inLane 1 .phdrop (8 * 2 ^ 320) false
     let g := s.engine 0
     InLane s 0 1 8 5 (laneOf false) ∧ (s.op 8 5).form = .phdrop ∧ (g.entry 1).tag = phTag (s.op 8 5).record ∧ (g.entry 1).valid = true ∧
      ¬((g.frontV = true ∧ g.frontIx.toNat = 1) ∨ (g.backV = true ∧ g.backIx.toNat = 1))) := by unfold InLane; decide +kernel
/-- A TCOPY.BP of one vector of FP32 elements in the scratchpad of core 0, with a format of 4-bit integers in blocks of none. -/
theorem witness_TransfersByElementEnd_bp :
    let s := (inLane 2 .tcopyBp ((spAddr 0 0 + 2 ^ 60) * 2 ^ 256 + tileAddr 0 0 0 * 2 ^ 320 + tileAddr 0 0 0x4000 * 2 ^ 384 + 1024 * 2 ^ 448) false).modOp 8 5
      (fun o => { o with dstEntry := 0x8046 })
    let o := s.op 8 5
    let r := o.record
    InLane s 0 2 8 5 (laneOf false) ∧ s.selectionHeld 8 = false ∧ o.cancel = 0 ∧ s.mem.poison = [] ∧ o.form = .tcopyBp ∧ o.prog = recFld r 480 12 ∧ ftSmen o.dstEntry = false ∧
    isTile (bpPln r) = true ∧ isTile (bpScl r) = true ∧ (∀ j, j < 4 → ∀ c, c < 64 → tileAddr 0 j 0 + c ≠ bpScl r + o.prog) ∧ tileOff (bpPln r) + 64 * o.prog + 64 ≤ 2 ^ 23 ∧
    (bpSide r).bits = 32 ∧ ∃ bs, s.gather 8 o ((List.range 256).flatMap (fun k => (bpSide r).bytes (256 * o.prog + k))) = some (s, .ok bs) := by
  unfold InLane
  and_intros <;> first
    | decide +kernel
    | exact ⟨_, gatherOwn _ 8 _ _ (by decide +kernel) (by decide +kernel) (by decide +kernel) (by decide +kernel)⟩
/-- A TCOPY.ACC of one row to FP32 elements in the scratchpad of core 0. -/
theorem witness_TransfersByElementEnd_acc :
    let s := inLane 2 .tcopyAcc (tileAddr 0 0 0 * 2 ^ 256 + (spAddr 0 0 + 2 ^ 60) * 2 ^ 320) false
    let o := s.op 8 5
    let d := accSide o.record
    InLane s 0 2 8 5 (laneOf false) ∧ o.form = .tcopyAcc ∧ o.prog + 1 = accRows o.record ∧ d.base / 2 ^ 48 = 0xC ∧ plainTag (recWord o.record 5) = true ∧
    (∀ i, i < 64 → ∀ a ∈ d.bytes (64 * o.prog + i), a / 2 ^ 48 = 0xC ∧ s.spRefused o.asid o.svc [a] = false) ∧
    ((List.range 64).flatMap (fun i => d.bytes (64 * o.prog + i))).Nodup := by unfold InLane; decide +kernel
/-- A switch asked for 50 microseconds ago; one trim write held. -/
theorem witness_EnginesYieldAndTrim :
    (let s := { inLane 0 .mmx mmxRecord false with switch := some { parts := BitVec.allOnes 64, out := some 7, into := none, save := 0, born := 0 }, timeBase := 50000 }
     InLane s 0 0 8 5 (laneOf false) ∧ (s.op 8 5).form = .mmx ∧ s.selectionHeld 8 = true ∧ (0 : Word).toNat + 50000 ≤ s.time.toNat) ∧
    (let s := jobState.modEngine 0 (fun e => { e with trimHeld := [(0x10000, 1)] })
     (s.engine 0).matrix = none ∧ (s.engine 0).trimHeld = [(0x10000, 1)] ∧ 0x10000 ≤ 0x10000 ∧ ¬(0x10000 ≤ 0x800)) := by unfold InLane; decide +kernel

/-! ### Barriers, groups, semaphores -/

/-- Barrier 63 of core 8, the last of its job's, as its key and with phase 0 as its name. -/
def barK : Nat := 8 * 1024 + 63
/-- The name. -/
def barX : Word := BitVec.ofNat 64 barK
/-- The job's context with the name in g1, a value in g2, and the barrier as given. -/
def withBarrier (b : Barrier) (y : Word) : State := (jobRegs barX y 0).setBar barK b
/-- A barrier that awaits two. -/
def barTwo : Barrier := { Barrier.initial with expect := 2 }
/-- A packet from core 8 to the owner of the barrier. -/
def barFlight (b : Barrier) (body : Pkt) : State :=
  { withBarrier b 0 with flights := [{ id := 9, src := 8, tag := 3, key := 64, op := 3, body := body }] }
/-- A member of group 3 on a core, bound to a barrier of it. -/
def memberOf (core : Nat) (i : Option Nat) : Member :=
  { pkg := 0, core := core, task := 3, tree := false, issued := 0, leaving := false, bound := i, state := none }
/-- Group 3 with members; core 9 holds the job too. -/
def withGroup (b : Barrier) (y : Word) (ms : List Member) : State :=
  let s := withBarrier b y
  { s with cores := s.cores ++ [(9, { Core.initial with asid := 7, hasJob := true, nb := 64 })] }.setGroup 3 { (State.reset).group 3 with members := ms }
/-- R308: counts of ones add. -/
theorem test_combine_ones : combine 3 5 0xF0 = 9 := by decide +kernel
/-- R309: the last arrival flips the barrier. -/
theorem test_flip : let t := after (exec (.barrierEvent 9) (barFlight { barTwo with arr := 1, pay := 5, op := 2 } (.barrier barK (.arrive 7) 7))) State.reset
    (t.bar barK).phase = 1 ∧ (t.bar barK).lastPay = 12 ∧ (t.bar barK).arr = 0 := by decide +kernel
/-- R312: the state word of a barrier with every field at its limit. -/
theorem test_bstat : rdG (after (exec (.bstat 3 1) (withBarrier { Barrier.initial with arr := 65535, phase := 65535, mode := .exch, nchild := 64, lastWdn := 8191 } 0)) State.reset).me 3 =
    0x081FFF04FFFFFFFF := by decide +kernel
/-- R386: an addition of -1 to 0 leaves 0. -/
theorem test_sem_clamp : (after (exec (.semincWrite 1023 (BitVec.allOnes 64)) jobState) State.reset).sem 1023 = 0 := by decide +kernel

/-- A refused name (index 64); ST free and ST full. -/
theorem witness_BarrierEventsAreSent : (jobRegs (barX + 1) 0 0).barRefused 64 (barX + 1) = true ∧ NameOk (withBarrier barTwo 63) barX false ∧
    (withBarrier barTwo 63).me.st < 63 ∧ ReleaseClear (withBarrier barTwo 63) 2 ∧ (withBarrier barTwo 2).chanBad 64 2 = false ∧
    ((withBarrier barTwo 2).core 8).notes < 256 ∧
    (let s := (withBarrier barTwo 0).modCtx 64 (fun c => { c with st := 63 })
     NameOk s barX false ∧ 63 ≤ s.me.st ∧ s.me.waitLimit ≠ 0) ∧ (withBarrier barTwo 63).jobHere 7 8 = true ∧
    (let s := { withBarrier barTwo 2 with sched := { (withBarrier barTwo 2).sched with cur := 72 }, ctxs := [(72, { runningAt 0x1000 with g := (withBarrier barTwo 2).me.g })]
                                          cores := [(9, { Core.initial with asid := 7, hasJob := true, nb := 64 }), (8, Core.initial)] }
     NameOk s barX false ∧ s.jobHere 7 8 = false ∧ s.me.waitLimit ≠ 0 ∧ (s.core s.myCore).asid = 7 ∧ s.me.wake = none) := by
  unfold NameOk
  refine ⟨by decide +kernel, by decide +kernel, by decide +kernel, ⟨fun n h => (by cases h), ?_⟩, ?_⟩ <;> decide +kernel
/-- Woken by the flip; a phase ahead of the name's; the same phase; every word of the barrier at its limits. -/
theorem witness_BarriersAreAwaitedAndRead :
    (let s := (withBarrier barTwo 0).modCtx 64 (fun c => { c with wake := some (.bwait 5 false) })
     NameOk s barX false ∧ s.me.wake = some (.bwait 5 false)) ∧
    (let s := withBarrier { barTwo with phase := 65535, pend := 2 ^ 32 - 1, arr := 65535, lastWdn := 8191, nchild := 2047 } 0
     NameOk s barX false ∧ OwnerAnswers s barK ∧ (s.bar barK).phase.toNat ≠ (rdG s.me 1).toNat / 2 ^ 32 % 2 ^ 16 ∧ (s.bar barK).pend < 2 ^ 32 ∧
      (s.bar barK).expect < 2 ^ 16 ∧ (s.bar barK).arr < 2 ^ 16 ∧ (s.bar barK).lastWdn < 2 ^ 13 ∧ (s.bar barK).nchild < 2 ^ 11) ∧
    (let s := withBarrier barTwo 0
     (s.bar barK).phase.toNat = (rdG s.me 1).toNat / 2 ^ 32 % 2 ^ 16 ∧ s.me.waitLimit ≠ 0 ∧ s.me.wake.isNone = true) := by
  unfold NameOk OwnerAnswers; decide +kernel
/-- A record of EXPECT 65,535 and OP 3 in the own scratchpad. -/
def barRecord : State :=
  (withBarrier Barrier.initial (BitVec.ofNat 64 (spAddr 8 0x400))).modMem (fun m =>
    { m with cells := memWrite m.cells (cellsAt (spAddr 8 0x400) (leBytes 32 (65535 + 3 * 2 ^ 16 + 7 * 2 ^ 32 + 9 * 2 ^ 64))) })
theorem witness_BarriersAreSetUp_binit : let s := barRecord
    let c := s.bar barK
    let y := rdG s.me 2
    let bytes := (runAt (y.toNat % 2 ^ 52) 32).map (memGet s.mem.cells)
    let f (lo n : Nat) : Nat := leNat bytes / 2 ^ lo % 2 ^ n
    NameOk s (rdG s.me 1) true ∧ y.toNat % 32 = 0 ∧ OwnerAnswers s barK ∧ c.queue = [] ∧ 1 < f 0 16 ∧
    ({ c with queue := [.arrive 5] } : Barrier).queue = [.arrive 5] ∧ regionOf (y.toNat % 2 ^ 52) < 0xD ∧ faultOf (s.spCheck s.sched.cur (runAt (y.toNat % 2 ^ 52) 32)) = none ∧
    (∀ q ∈ s.me.pend, q.acq = 0) ∧ s.guardHit s.myCore (runAt (y.toNat % 2 ^ 52) 32) = false ∧
    s.readBytes s.sched.cur s.sched.nextId false (runAt (y.toNat % 2 ^ 52) 32) = some (s, .ok bytes) ∧
    (f 0 16 = 65535 ∧ f 16 3 = 3 ∧ f 19 13 = 0 ∧ f 96 160 = 0) ∧ c.mode = .opn ∧ c.parent = none ∧ c.nchild = 0 ∧ c.group = none ∧ c.notes = [] ∧
    ∀ p ∈ s.ctxs, (match p.2.await with | .barrier k _ => k | _ => 0) ≠ barK := by
  unfold NameOk OwnerAnswers
  and_intros
  all_goals first | exact readSp _ _ _ _ (by decide +kernel) (by decide +kernel) (by decide +kernel) (by decide +kernel) | decide +kernel
/-- A link to barrier 0 of the core, the name 0x2000, whose place of 64 children is not full; and a binding to group 3, idle and not. -/
theorem witness_BarriersAreSetUp :
    (let s := (withBarrier Barrier.initial 0x2000).setBar 8192 { Barrier.initial with nchild := 63 }
     NameOk s (rdG s.me 1) true ∧ OwnerAnswers s barK ∧ s.jobHere 7 (barrierKey 0x2000 / 1024) = true ∧ (s.bar barK).arr = 0 ∧ s.barRefused s.sched.cur 0x2000 = false ∧ barrierKey 0x2000 ≠ barK ∧
      (s.bar (barrierKey 0x2000)).nchild < 64 ∧ (s.bar barK).parent = none) ∧
    (let s := withGroup Barrier.initial 3 [memberOf 8 none]
     NameOk s (rdG s.me 1) true ∧ (rdG s.me 2).toNat = 3 ∧ s.groupRefused 3 = false ∧ OwnerAnswers s barK ∧ (s.group 3).member s.myCore = some (memberOf 8 none) ∧
      s.groupIdle 3 = true ∧ s.groupHere 3 s.myCore = true) ∧
    (let s := withGroup { barTwo with arr := 1 } 3 [memberOf 8 (some 63)]
     NameOk s (rdG s.me 1) true ∧ s.groupRefused 3 = false ∧ OwnerAnswers s barK ∧ (s.group 3).member s.myCore = some (memberOf 8 (some 63)) ∧ s.groupIdle 3 = false) := by
  unfold NameOk OwnerAnswers; decide +kernel
/-- Barriers before the last arrival and at it, with the last byte awaited, full, and held. -/
theorem witness_BarrierEventsAreApplied : (∀ e ∈ [BEvent.arrive 5, .withdraw, .bytes 4 false, .add 4], let s := barFlight { barTwo with pend := 4 } (.barrier barK e 7)
      s.flights.find? (fun g => g.id == 9) = some { id := 9, src := 8, tag := 3, key := 64, op := 3, body := .barrier barK e 7 } ∧
      (∀ g ∈ s.flights, g.id < 9 → g.src = 8 → g.body.bar ≠ some barK) ∧ (s.core (barK / 1024)).hasJob = true ∧ (s.core (barK / 1024)).asid = 7 ∧
      s.packetLost 7 3 = false ∧ (s.bar barK).mode = .opn ∧ (s.bar barK).queue = [] ∧ (s.bar barK).arr + 1 < (s.bar barK).expect ∧
      (s.bar barK).pend + 4 < 2 ^ 32) ∧
    (let s := barFlight { barTwo with arr := 1 } (.barrier barK (.arrive 5) 7)
     (s.bar barK).arr + 1 = (s.bar barK).expect ∧ (s.bar barK).pend = 0 ∧ (s.bar barK).parent = none ∧ (s.bar barK).group = none ∧ (s.bar barK).holdb = 0) ∧
    (let s := barFlight { barTwo with mode := .held, queue := List.replicate 63 (.arrive 1) } (.barrier barK (.arrive 5) 7)
     (s.bar barK).mode ≠ .opn ∧ s.heldEvents (barK / 1024) < 64) ∧
    (∀ p ∈ [0, 65535], let n : Note := { core := 8, chan := 1, tag := 3, asid := 7, phase := p, name := barX }
     let s := barFlight { barTwo with lastTime := some 9 } (.bnote barK n)
     (s.bar barK).lastTime = some 9 ∧ (s.flights.map (·.body)) = [.bnote barK n] ∧ n.asid = 7 ∧ ((s.bar barK).phase.toNat = n.phase ↔ p = 0)) := by decide +kernel
theorem witness_ParentsFlipTheirChildren : let s := barFlight { barTwo with arr := 1, parent := some 8192 } (.flip barK 5 true 1 false true 7)
    s.flights.find? (fun g => g.id == 9) = some { id := 9, src := 8, tag := 3, key := 64, op := 3, body := .flip barK 5 true 1 false true 7 } ∧
    (s.core (barK / 1024)).hasJob = true ∧ (s.core (barK / 1024)).asid = 7 ∧ (s.bar barK).parent.isSome = true ∧ (s.bar barK).queue = [] ∧ (s.bar barK).expect ≠ 0 := by decide +kernel
/-- The first of two members, and the last; a dead task; a drain 200 microseconds late. -/
theorem witness_GroupsExchangeAndWithdraw :
    (∀ st ∈ [none, some ((7 : Word), true, 1)],
      let n := { memberOf 9 (some 0) with state := st }
      let s := (withGroup { barTwo with mode := .exch, arr := 2, pay := 5 } 0 [memberOf 8 (some 63), n]).setBar 9216 { barTwo with mode := .exch, arr := 2 }
      (s.group 3).members[0]? = some (memberOf 8 (some 63)) ∧ (memberOf 8 (some 63)).bar = some barK ∧ (s.bar barK).mode = .exch ∧
      (∀ m ∈ (s.group 3).members, m.bar.isSome = true ∧ s.groupHere 3 m.core = true ∧ m.leaving = false) ∧
      (∀ m ∈ (s.group 3).members, m.core = 8 → m = memberOf 8 (some 63)) ∧ ((s.group 3).members.filterMap Member.bar).Nodup ∧
      (s.group 3).joining = [] ∧ (s.group 3).binding = [] ∧ (s.group 3).farWords = [] ∧
      (∀ m ∈ (s.group 3).members, ∀ q, q ∈ m.bar → (s.bar q).mode = .exch ∧ (s.bar q).queue = [] ∧ (s.bar q).expect ≠ 0 ∧ (s.bar q).op = (s.bar barK).op ∧
        (s.bar q).holdb = 0)) ∧
    (let s := { withGroup barTwo 0 [memberOf 8 (some 63)] with deadTags := [{ asid := 7, tag := 3, born := 0 }] }
     (s.group 3).members = [memberOf 8 (some 63)] ∧ s.deadTag (s.core 8).asid 3 = true ∧ (s.group 3).farWords = [] ∧ (s.bar barK).queue = [] ∧ (s.bar barK).expect ≠ 0 ∧ s.groupHere 3 8 = true) ∧
    (let s := { (withGroup barTwo 0 [memberOf 8 (some 63)]).setGroup 3 { (State.reset).group 3 with members := [memberOf 8 (some 63)], running := [8 * 128 + 5] } with
        switch := some { parts := BitVec.allOnes 64, out := some 7, into := none, save := 0, born := 0 }, timeBase := 200000 }
     s.selectionHeld 8 = true ∧ (0 : Word).toNat + 200000 ≤ s.time.toNat ∧ 8 * 128 + 5 ∈ (s.group 3).running ∧ (8 * 128 + 5) ≠ absentKey) := by decide +kernel
/-- A bound member in package 1 beside a local one whose state is wanted; an idle group with no member, asked for by package 1 while
this package is 0; and a far member alone. -/
theorem witness_FarMembersTakePart :
    let n : Member := { memberOf 9 (some 0) with pkg := 1, far := true }
    (let s := withGroup { barTwo with mode := .exch } 0 [memberOf 8 (some 63), n]
     (s.group 3).members[1]? = some n ∧ n.far = true ∧ n.bound.isSome = true ∧ n.state = none ∧
      ∃ m ∈ (s.group 3).members, m.bound.isSome = true ∧ m.state = none ∧ ¬(m.far = true ∧ m.pkg = n.pkg ∧ m.core = n.core)) ∧
    (let s := withGroup barTwo 0 []
     (s.groupJob 3).isSome = true ∧ (∀ j ∈ s.groupJob 3, j.fld 0 32 12 ≠ 1) ∧ (s.group 3).members = [] ∧ (s.group 3).joining = [] ∧
      (s.group 3).binding = [] ∧ (s.group 3).farWords = [] ∧ (s.group 3).running = []) ∧
    (let s := withGroup barTwo 0 [n]
     (s.group 3).members = [n] ∧ n.far = true ∧ n.pkg = 1 ∧ n.core = 9) := by decide +kernel
/-- R317: a phase of a local and a far member of OP SUM. -/
theorem test_far_phase : let n : Member := { memberOf 9 (some 0) with pkg := 1, far := true }
    let m := { memberOf 8 (some 63) with state := some ((5 : Word), false, 0) }
    let s := withGroup { barTwo with op := 2, mode := .exch, pay := 5, arr := 2 } 0 [m, n]
    let t := after (exec (.groupExchangeRound 3 1 7 false 0 none) s) State.reset
    (t.bar barK).lastPay = 12 ∧ (t.bar barK).phase = 1 ∧ (t.group 3).gphase = 1 := by decide +kernel
/-- A CRED of 64 bytes of group 3 over the scratchpad of its core, number 1 of its membership. -/
def credOf (core : Nat) (st : TokState) (prog : Nat) : Op :=
  { Op.initial with state := st, form := .cred, unit := 3, key := core * 8, asid := 7, prog := prog
                    record := BitVec.ofNat 512 (spAddr core 0x400 * 2 ^ 256 + spAddr core 0x800 * 2 ^ 320 + 64 * 2 ^ 384 + 3 * 2 ^ 416) }
/-- Cores 8 and 9 are the members of group 3, with a CRED each. -/
def twoCred (st : TokState) (running : List Nat) : State :=
  let s := (withGroup barTwo 0 []).setGroup 3 { (State.reset).group 3 with
    members := [{ memberOf 8 none with issued := 1 }, { memberOf 9 none with issued := 1 }], running := running }
  (((s.setOp 8 5 (credOf 8 st (if st = .running then 0 else 1))).setOp 9 6 (credOf 9 st 1)).setRegion 9 0 { Region.initial with nbank := 192, asid := 7 })
/-- A join of an idle group; two members' CREDs queued; and both running. -/
theorem witness_CollectivesStartAndComplete :
    (let s := (withGroup barTwo 0 []).setOp 8 5 { Op.initial with state := .queued, form := .gjoin, unit := 3, key := 64, asid := 7 }
     let x := s.group 3
     s.groupQueued 3 = [8 * 128 + 5] ∧ (s.keyOp (8 * 128 + 5)).form = .gjoin ∧ (s.keyOp (8 * 128 + 5)).state = .queued ∧ x.members = [] ∧ x.joining = [] ∧
      x.binding = [] ∧ x.farWords = [] ∧ x.running = []) ∧
    (let s := twoCred .queued []
     let x := s.group 3
     let ks := [8 * 128 + 5, 9 * 128 + 6]
     x.running = [] ∧ ks.Nodup ∧ ks.length = x.members.length ∧ (∀ k ∈ ks, k < absentKey) ∧ x.members.map (s.brings 3 (x.sequence + 1)) = ks.map Brought.op ∧
      s.agree 3 ks = true ∧ ∀ k ∈ s.groupQueued 3, (s.keyOp k).form.isData = true ∧ (x.member (k / 128)).isSome = true) ∧
    (let s := twoCred .running [8 * 128 + 5, 9 * 128 + 6]
     let x := s.group 3
     let live := liveRanks x.running
     let o := s.keyOp (x.running.getD (live.headD 0) absentKey)
     let p := s.collReads x.running (collBlocks o.form (collRoot o.record) live)
     live ≠ [] ∧ (∀ k ∈ x.running, k ≤ absentKey) ∧ (∀ m ∈ live, s.entering (x.running.getD m absentKey) (s.collNamed 3) = false) ∧
      (∀ d ∈ p.2, (match d.data with | some (.ok _) => true | _ => false) = true) ∧ (p.1.collGive 3 live p.2 live).isSome = true) := by
  and_intros <;> decide +kernel

/-- The last semaphore of the allotment, and the first beyond it. -/
theorem witness_SemaphoreInstructionsReachTheUnit : jobState.jobOn jobState.myCore = some testJob ∧ testJob.fld 3 10 11 ≤ (rdG (jobRegs 16 0 0).me 1).toNat ∧
    (let s := jobRegs 15 5 0
     (rdG s.me 1).toNat < testJob.fld 3 10 11 ∧ s.me.st < 63 ∧ s.me.ld < 63 ∧ ReleaseClear s 2 ∧ s.chanBad s.sched.cur 2 = false ∧
      s.armed.length + (s.flights.filter (fun f => f.body.arms)).length < 2048 ∧ (∀ q ∈ s.me.pend, q.acq = 0) ∧ s.me.waitLimit ≠ 0 ∧
      s.me.wake ≠ some .sem ∧ s.me.await ≠ .sem 15 5) ∧
    ((jobRegs 15 5 0).modCtx 64 (fun c => { c with wake := some .sem })).me.wake = some .sem := by
  and_intros <;> first | decide +kernel | (intro n h; cases h)
/-- Each operation of the unit, with a wait just satisfied and one not. -/
theorem witness_SemaphoreUnitUpdates :
    (∀ op ∈ [SemOp.add 5, .set 5, .read, .wait 4, .arm 5 2 3],
      let p := { pendOf true .unit (.g 5 false) [] 1 none with counted := true }
      let s := { (withFlight p (.sem 15 op 7)) with sems := [(15, 4)] }
      let u := if op = .read then s else s.modCtx 64 (fun c => { c with await := .sem 15 4 })
      u.flights.find? (fun g => g.id == 9) = some { id := 9, src := 8, tag := 3, key := 64, op := 3, body := .sem 15 op 7 } ∧
      (∀ g ∈ u.flights, g.id < 9 → g.key = 64 → g.body.isSem = false) ∧ (u.job 7).isSome = true ∧ (u.ctx 64).pend = [p] ∧ p.id = 3 ∧ p.parts = 1 ∧
      p.reply = none ∧ p.counted = true ∧ (op ≠ .read → (u.ctx 64).await = .sem 15 4) ∧ (u.ctx 64).wake = none ∧
      (∀ g ∈ u.flights, g.id ≠ 9 → g.key ≠ 64) ∧ (∃ q ∈ u.ctxs, q.1 = 64) ∧ (u.sem 15).toNat = 4) := by decide +kernel

/-! ### The fabric and kills -/

/-- A circuit operation in slot 5 of core 8 at port 63, to port 63 of the job's package 1, bound to package 9; the port as given. -/
def circState (f : Form) (x : Port) : State :=
  ((jobState.modPort 63 (fun _ => x)).modFam 1 (fun e => { e with phys := 9, valid := true })).setOp 8 5
    { Op.initial with state := .queued, form := f, key := 64, asid := 7, unit := 63
                      record := BitVec.ofNat 512 (63 * 2 ^ 256 + (if f = .circ then 63 * 2 ^ 262 + 1 * 2 ^ 268 else 0)) }
/-- A port of the job in a state. -/
def portIn (st : Nat) (op : Option Nat) : Port := { Port.initial with state := BitVec.ofNat 3 st, jobp := true, op := op }
/-- R338: a set-up begins at an IDLE port. -/
theorem test_circ_begins : ((after (exec (.circExecution 8 5) (circState .circ (portIn 2 none))) State.reset).port 63).state = 3 := by decide +kernel
/-- R332: above 64 ns of skew a circuit is HELD. -/
theorem test_circuit_held : ((after (exec (.circuitTrained 63 64001) (jobState.modPort 63 (fun _ => { portIn 3 none with settling := true }))) State.reset).port 63).state = 5 := by
  decide +kernel
/-- Every state of the port, the peer bound; and a peer that is not bound. -/
theorem witness_CircuitOperationsExecute :
    (∀ st ∈ [0, 1, 2, 4, 5, 6], let s := circState .circ (portIn st none)
      CircTurn s 8 5 ∧ (s.op 8 5).form = .circ ∧ (s.port (fabPort (s.op 8 5).record)).state.toNat = st ∧
      (s.job 7).bind (fun j => s.famOf j (fabPeer (s.op 8 5).record)) = some { Fam.initial with phys := 9, valid := true }) ∧
    (let s := circState .circ { portIn 4 none with phys := 9, pport := 63 }
     (s.port 63).phys = 9 ∧ (s.port 63).pport.toNat = fabPport (s.op 8 5).record) ∧
    (let s := (circState .circ (portIn 2 none)).modFam 1 (fun e => { e with valid := false })
     CircTurn s 8 5 ∧ (s.job 7).bind (fun j => s.famOf j (fabPeer (s.op 8 5).record)) = none) ∧
    (∀ st ∈ [2, 4, 5], let s := circState .circT (portIn st none)
      CircTurn s 8 5 ∧ (s.op 8 5).form = .circT) := by unfold CircTurn; decide +kernel
/-- The seventh and the eighth refusal, a set-up asked for by the other end, 64 ns of skew and one picosecond more. -/
theorem witness_CircuitsSettle :
    (∀ n ∈ [7, 8], let x := { portIn 3 (some 1029) with attempt := n }
      x.op = some 1029 ∧ x.state = 3 ∧ x.settling = false ∧ x.reason = 0 ∧ (x.attempt < 8 ∨ 8 ≤ x.attempt)) ∧
    ({ portIn 3 (some 1029) with reason := 1 } : Port).reason ≠ 0 ∧ ({ portIn 3 (some 1029) with reason := 1 } : Port).state = 3 ∧
    ((portIn 1 (some 1029)).op = some 1029 ∧ (portIn 1 (some 1029)).state ≠ 3) ∧
    ((63 : Nat) < 64 ∧ (portIn 2 none).state = 2 ∧ (portIn 2 none).op = none ∧ (portIn 2 none).jobp = true ∧ ∃ c ∈ jobState.cores, c.2.hasJob = true ∧ c.2.asid = 7) ∧
    (let x := { portIn 4 none with phys := 9, pport := 63 }
     x.state = 4 ∧ x.phys.toNat = 9 ∧ x.pport.toNat = 63) ∧
    (∀ st ∈ [0, 1, 6], (portIn st none).state.toNat = st) ∧ ({ portIn 2 none with jobp := false } : Port).jobp = false ∧
    ({ portIn 3 none with settling := true } : Port).settling = true ∧ ((portIn 5 none).state = 4 ∨ (portIn 5 none).state = 5) := by decide +kernel
/-- Ports 0 and 63 of the mask, with and without light. -/
theorem witness_PortsAreGatedAndWoken : ∀ f ∈ [Form.pgate, .pwake], ∀ st ∈ [1, 2, 6],
    let s := (jobState.modPort 63 (fun _ => portIn st none)).setOp 8 5
      { Op.initial with state := .queued, form := f, key := 64, asid := 7, record := BitVec.ofNat 512 ((2 ^ 63 + 1) * 2 ^ 256) }
    (s.op 8 5).state = .queued ∧ s.portTaken 8 5 = false ∧ (s.op 8 5).form = f ∧ (fabMask (s.op 8 5).record).getLsbD 63 = true ∧ (fabMask (s.op 8 5).record).getLsbD 0 = true ∧
    (s.port 63).state.toNat = st := by decide +kernel

/-- A packet in the retry buffer, with a circuit to its package and an operation that waits for it. -/
def withRetry (b : FabOut) (st : Nat) : State :=
  let p := { pendOf false .unit .none [] 1 none with counted := true }
  let s := (withPend p).modPort 63 (fun _ => { portIn st none with phys := 9 })
  (s.modFab (fun f => { f with fablife := 100, retry := [{ id := 4, phys := 9, index := 1, seq := 0, born := 0, last := 0, ordered := true, asid := 7, key := 64, op := 3, body := b }] })).setOp
    8 5 { Op.initial with state := .running, form := .cpy, key := 64, asid := 7, unacked := 2 }
/-- Packets of each kind; a deadline that is just reached; a dead tag. -/
theorem witness_PacketsAreAnsweredOrGivenUp :
    (∀ b ∈ [FabOut.msg (slotOf 1 2 0).msg none, .atomic 0 0 0 1 0, .beat 8 5 0x1000 [(0, 1)]], let s := withRetry b 4
      s.fabric.retry.find? (fun q => q.id == 4) =
        some { id := 4, phys := 9, index := 1, seq := 0, born := 0, last := 0, ordered := true, asid := 7, key := 64, op := 3, body := b } ∧
      s.upTo 9 = true ∧ (∃ p, (s.ctx 64).pend = [p] ∧ p.id = 3 ∧ p.parts = 1 ∧ p.reply = none ∧ p.counted = true)) ∧
    (let s := { withRetry (.msg (slotOf 1 2 0).msg none) 4 with now := 180000 }
     0 + cyclesOf 20 ≤ s.now ∧ 0 + cyclesOf s.fabric.fablife.toNat ≤ s.now) ∧
    (let s := { withRetry (.msg (slotOf 1 2 0).msg none) 4 with deadTags := [{ asid := 7, tag := 3, born := 0 }], timeBase := 100000 }
     s.deadTags[0]? = some { asid := 7, tag := 3, born := 0 } ∧ (0 : Word).toNat + 1000 * s.fabric.fablife.toNat ≤ s.time.toNat) := by
  refine ⟨?_, by decide +kernel, by decide +kernel⟩
  intro b hb
  simp only [List.mem_cons, List.not_mem_nil, or_false] at hb
  rcases hb with rfl | rfl | rfl
  all_goals exact ⟨by decide +kernel, by decide +kernel, _, rfl, rfl, rfl, rfl, rfl⟩
/-- A collective that runs, whose exchange has waited for the whole of FABLIFE. -/
theorem witness_PacketsAreAnsweredOrGivenUp_exchange :
    let s := { (withRetry (.exchange 8 5 0) 4).modOp 8 5 (fun o => { o with form := .cred }) with now := 180000 }
    s.fabric.retry.find? (fun q => q.id == 4) =
      some { id := 4, phys := 9, index := 1, seq := 0, born := 0, last := 0, ordered := true, asid := 7, key := 64, op := 3, body := .exchange 8 5 0 } ∧
    0 + cyclesOf s.fabric.fablife.toNat ≤ s.now ∧ (s.op 8 5).state = .running ∧ (s.op 8 5).status = 0 ∧ (s.op 8 5).seq = 0 := by decide +kernel
theorem witness_PacketsTakeEffectOnce : let s := withRetry (.marker 8 5) 4
    s.upTo 9 = true ∧ s.upTo 8 = false ∧ FabIn.marker.ordered = true ∧ 0 = tabGet s.fabric.nextIn 9 0 ∧ 1 ≠ tabGet s.fabric.nextIn 9 0 ∧
    (FabIn.beat 7 0 0).ordered = false ∧ (9, 0) ∉ s.fabric.seen ∧ (∀ m ∈ s.mail, m.src ≠ farSource 9) ∧ fieldOf (header 1 2 3 9 8 0) 63 60 ≠ 0 ∧
    (regionOf (spAddr 8 0x40) = 0xC ∧ spAddr 8 0x40 % 64 = 0 ∧ s.mem.poison = [] ∧ s.spRefused 7 false ((List.range 64).map (spAddr 8 0x40 + ·)) = false) ∧
    (s.job 7 = some testJob ∧ barX.toNat / 2 ^ 22 % 2 ^ 10 = 0 ∧ barX.toNat / 2 ^ 50 = 0 ∧ testJob.holds (barrierKey barX / 1024) = true ∧
      barrierKey barX % 1024 < testJob.nbOn (barrierKey barX / 1024)) ∧
    (let a := dramSize - 8
     a + atomBytes 1 ≤ dramSize ∧ s.dramPoisoned a = false ∧ (s.lmeta (lineOf a)).state = 0 ∧ s.transOn a = none) := by decide +kernel
/-- A FAMWR of the job's last entry; coherent, not valid, forced and draining; and the marker that has come back. -/
def famState (e : Fam) (force : Nat) : State :=
  (((withRetry (.marker 8 5) 4).modFam 1 (fun _ => e)).modFab (fun f => { f with pkgAllot := [9], draining := [(1, 8 * 128 + 5, 9, true)] })).setOp 8 5
    { Op.initial with state := .queued, form := .famwr, key := 64, asid := 7, record := BitVec.ofNat 512 (1 * 2 ^ 256 + 9 * 2 ^ 268 + 2 ^ 280 + force * 2 ^ 281) }
theorem witness_MapEntriesAreWritten :
    (∀ coh ∈ [false, true], ∀ valid ∈ [false, true], ∀ force ∈ [0, 1], let s := famState { Fam.initial with coh := coh, valid := valid } force
      let o := s.op 8 5
      o.form = .famwr ∧ o.state = .queued ∧ s.entryTaken 8 5 = false ∧ s.job o.asid = some testJob ∧ fabIndex o.record < testJob.fld 11 12 13 ∧
      (s.fam (testJob.fld 11 0 12 + fabIndex o.record)).coh = coh ∧ ((o.record.extractLsb' 268 12 : BitVec 12).toNat ∈ s.fabric.pkgAllot) ∧
      o.record.getLsbD 281 = (force == 1)) ∧
    (let s := famState Fam.initial 0
     (s.fabric.retry.find? (fun q => match q.body with | .marker c n => c == 8 && n == 5 | _ => false)).isSome = true ∧
     s.fabric.draining.find? (fun d => d.2.1 == 8 * 128 + 5) = some (1, 8 * 128 + 5, 9, true) ∧ s.upTo 9 = true) := by
  refine ⟨?_, by decide +kernel⟩
  intro coh hc valid hv force hf
  simp only [List.mem_cons, List.not_mem_nil, or_false] at hc hv hf
  rcases hc with rfl | rfl <;> rcases hv with rfl | rfl <;> rcases hf with rfl | rfl <;> decide +kernel

/-- A kill of task 3 that awaits core 8, and one that every core has answered. -/
def killOf (todo : List Nat) : Kill :=
  { id := 77, core := 8, key := 64, asid := 7, tag := 3, todo := todo, ended := 0, discarded := 0, cancelled := 0, fostered := 0, creators := [(0, 9, 2, 1)] }
/-- R352: the purge ends the task's activation. -/
theorem test_purge_ends : ((after (exec (.tkillPurge 77 8) { jobState with kills := [killOf [8]] }) State.reset).ctx 64).phase = .free := by decide +kernel
theorem witness_TasksAreKilled : jobState.svc 64 = false ∧ 2 ^ 16 ≤ (rdG (jobRegs 0x10000 0 0).me 1).toNat ∧ (rdG (jobRegs 0xFFFF 0 0).me 1).toNat < 2 ^ 16 ∧
    (∀ n, jobState.me.await ≠ .kill n) ∧ jobState.deadTags.length < 64 ∧ (∀ q ∈ jobState.kills, q.id ≠ 77) ∧
    (let s := { jobState with kills := [killOf [8]] }
     s.kills.find? (fun q => q.id == 77) = some (killOf [8]) ∧ 8 ∈ (killOf [8]).todo ∧ (s.core 8).hasJob = true ∧ (s.core 8).asid = 7 ∧
      (s.ctx 64).phase = .run ∧ (s.ctx 64).taskTag = 3) ∧
    (∀ st ∈ [TokState.pending, .queued, .suspended, .done, .faulted, .cancelled], let s := jobState.setOp 8 127 { opIn st with asid := 7, task := 3 }
      let o := s.op 8 127
      o.asid = 7 ∧ o.owner = 3 ∧ o.det = false ∧ (o.state = .pending ∨ o.state = .queued ∨ o.state = .suspended ∨ Over o)) ∧
    (let s := { jobState with kills := [killOf []] }
     s.kills.find? (fun q => q.id == 77) = some (killOf []) ∧ (killOf []).todo = [] ∧ (killOf []).creators = [((s.pkgOf 7).toNat, 9, 2, 1)]) := by
  refine ⟨by decide +kernel, by decide +kernel, by decide +kernel, fun n h => (by cases h), ?_⟩
  unfold Over; decide +kernel

/-! ### The memory side -/

/-- The job's machine with a line's metadata. -/
def withLine (pa state : Nat) (mask : BitVec 4) (owner : Nat) : State := jobState.setLine pa state mask owner
/-- The last line of DRAM. -/
def lastPa : Nat := dramSize - 64
/-- R206: a GETS of a HOME line leaves it EXCLUSIVE for the member's group. -/
theorem test_gets : metaOf (after (exec (.cohGets lastPa 31) (withLine lastPa 0 0 0)) State.reset) lastPa = { state := 2, mask := 8, poison := false, owner := 0 } := by decide +kernel
/-- R209: a deadline is held to 256 ms. -/
theorem test_deadline : ((after (exec (.deadlineWrite 15 (BitVec.allOnes 64)) jobState) State.reset).window 15).deadline = 256000000 := by decide +kernel
/-- R202: SIZE 3 sets ERR. -/
theorem test_xinv_size : (after (exec (.xinv 0xC0000 0) jobState) State.reset).mem.xinvErr = true := by decide +kernel

theorem witness_XinvRemovesTranslations : fieldOf (0xC0000 : Word) 19 18 = 3 ∧ jobState.mem.xinv = none ∧ fieldOf (0x80007 : Word) 19 18 ≠ 3 ∧
    (let s := jobState.modMem (fun m => { m with xinv := some (7, 5) })
     s.mem.xinv = some (7, 5) ∧ (∀ e ∈ s.mem.l2q, (xreqOf 7 5).hits e.asid (e.vline * 64) 64 = false) ∧ (∀ p ∈ s.ops, p.2.beats = []) ∧
     s.fabric.retry ++ s.fabric.held = []) := by decide +kernel
/-- Each state of the last line of DRAM, for the last member; and a line of another member's. -/
theorem witness_CoherenceRequestsAreTaken :
    (∀ st ∈ [0, 1, 2, 3, 4], let s := withLine lastPa st 8 31
      HomeReady s lastPa 31 ∧ (metaOf s lastPa).state = st ∧ (metaOf s lastPa).mask &&& (1#4 <<< (31 / 8 % 4)) ≠ 0 ∧ (metaOf s lastPa).owner = 31) ∧
    (jobState.homeHere (2 ^ 40) = false ∧ (∀ t ∈ jobState.mem.trans, t.line ≠ lineOf (2 ^ 40)) ∧ ∀ p ∈ jobState.mem.rlines, p.1 ≠ lineOf (2 ^ 40)) := by
  unfold HomeReady; decide +kernel
/-- A transaction of each kind, and one 100 microseconds old. -/
theorem witness_CoherenceTransactionsEnd : ∀ k ∈ [0, 1, 2, 3, 4, 5], ∀ st ∈ [2, 3, 4],
    let s := { (withLine lastPa st 1 0).modMem (fun m => { m with trans := [{ line := lineOf lastPa, kind := k, member := 31, born := 0 }] }) with now := 180000 }
    s.mem.trans.find? (fun x => x.line == lineOf lastPa) = some { line := lineOf lastPa, kind := k, member := 31, born := 0 } ∧ (metaOf s lastPa).state = st ∧
    0 + cyclesOf 100 ≤ s.now := by decide +kernel
theorem witness_TransientWindowsExpire : ∀ x ∈ [false, true], let s := { jobState.modWindow 15 (fun w => { w with valid := true, expired := x, deadline := 1000 }) with timeBase := 1000 }
    (s.window 15).valid = true ∧ (s.window 15).expired = x ∧ (s.window 15).deadline.toNat ≤ s.time.toNat := by decide +kernel
/-- A live window whose deadline has passed before EXPIRED was set. -/
theorem witness_TransientWindowsExpire_passed : let s := { jobState.modWindow 15 (fun w => { w with valid := true, deadline := 5 }) with timeBase := 1000 }
    (s.window 15).expired = false ∧ (s.window 15).valid = true ∧ (s.window 15).deadline.toNat ≤ s.time.toNat := by decide +kernel
/-- The last line of DRAM away from the service ring; a fold of a millisecond ago, and one within it. -/
theorem witness_MemoryErrorsAreRecorded : regionOf (tileAddr 0 0 0) = 0xE ∧ regionOf lastPa < 0xC ∧ lastPa % 2 ^ 40 < dramSize ∧
    (∀ b, jobState.dev.rasRing.toNat % 2 ^ 40 ≤ b → b < jobState.dev.rasRing.toNat % 2 ^ 40 + 64 + 64 * 2 ^ jobState.dev.rasLen.toNat → lineOf b ≠ lineOf (lastPa % 2 ^ 40)) ∧
    jobState.dev.folds = [] ∧
    (let s := { jobState.modDev (fun d => { d with folds := [{ source := 1, unit := 3, count := 2, time := 0, born := 0, addr := 0, extent := 2, detail := [5] }] }) with timeBase := 1000000 }
     (∃ f, s.dev.folds = [f] ∧ f.source = 1 ∧ f.unit = 3 ∧ f.born.toNat + 1000000 ≤ s.time.toNat ∧ f.count ≠ 0)) ∧
    (let f : Fold := { source := 3, unit := 3, count := 0, time := 0, born := 0, addr := 0, extent := 0, detail := [] }
     let s := { jobState.modDev (fun d => { d with folds := [f] }) with timeBase := 1000000 }
     s.dev.folds = [f] ∧ f.born.toNat + 1000000 ≤ s.time.toNat ∧ f.count = 0 ∧ jobState.time.toNat < f.born.toNat + 1000000) := by
  refine ⟨?_, ?_, ?_, ?far, ?_, ⟨_, rfl, rfl, rfl, ?_, ?_⟩, ?_⟩
  case far =>
    intro b _ h
    have h1 : jobState.dev.rasRing.toNat % 2 ^ 40 + 64 + 64 * 2 ^ jobState.dev.rasLen.toNat ≤ 2 ^ 20 := by decide +kernel
    have h2 : lineOf (lastPa % 2 ^ 40) = lastPa / 64 := by decide +kernel
    have h3 : 2 ^ 26 < lastPa := by decide +kernel
    rw [h2]; unfold lineOf; omega
  all_goals decide +kernel
/-- A record at 0x1000 that asks for the page at address 0 to be moved to the frame at 0x8000_0000. -/
def moveState (v : Option PageMove) : State :=
  jobState.modMem (fun m => { m with cells := memWrite m.cells (cellsAt 0x1000 (leBytes 32 (7 + 2 ^ 17 + 0x80000000 * 2 ^ 128))), move := v })
/-- The move of that page, or of a page of 64 KiB, after some passes. -/
def moveOf (size attempt : Nat) (dirty : List Nat) : PageMove :=
  { recPa := 0x1000, asid := 7, va := 0, size := size, oldPa := 0x40000000, newPa := 0x80000000, leafPa := 0x200000, attempt := attempt, dirty := dirty }
theorem witness_PagesAreMoved : (let s := moveState none
      let r : BitVec 256 := BitVec.ofNat 256 (leNat (memBytes s.mem.cells (0x1000 % 2 ^ 40) 32))
      let f (lo n : Nat) : Nat := (r.extractLsb' lo n).toNat
      s.mem.move = none ∧ f 18 46 = 0 ∧ f 116 12 = 0 ∧ f 173 19 = 0 ∧ f 204 52 = 0 ∧ f 16 2 = 2 ∧ f 64 52 % 2 ^ sizeBits 2 = 0 ∧ f 128 45 % 2 ^ sizeBits 2 = 0 ∧
      resultOf (s.walk (r.extractLsb' 0 16) (f 64 52)) = some (0x4000001F, 1, 0x200000) ∧ s.homed (r.extractLsb' 0 16) 0x40000000 = true) ∧
    (let s := moveState (some (moveOf 0 0 []))
     let n := 2 ^ sizeBits 0
     s.mem.move = some (moveOf 0 0 []) ∧ 0x40000000 % n = 0 ∧ 0x80000000 % n = 0 ∧ 0x40000000 + n ≤ dramSize ∧ 0x80000000 + n ≤ dramSize ∧ s.homed 7 0x80000000 = true ∧
      ∀ l ∈ (List.range (n / 64)).map (fun i => lineOf 0x40000000 + i), (s.lmeta l).state = 0 ∧ s.dramPoisoned (l * 64) = false ∧
        s.dramPoisoned ((l - lineOf 0x40000000 + lineOf 0x80000000) * 64) = false) ∧
    (let s := (moveState (some (moveOf 0 0 []))).modMem (fun m => m.setMeta (lineOf 0x80000000) { LMeta.initial with poison := true })
     (s.lmeta (lineOf 0x40000000)).state = 0 ∧ s.dramPoisoned ((lineOf 0x40000000 - lineOf 0x40000000 + lineOf 0x80000000) * 64) = true) ∧
    (let s := moveState (some (moveOf 0 7 [5]))
     let lines := (List.range (2 ^ sizeBits 0 / 64)).map (fun i => lineOf 0x40000000 + i)
     (∀ l ∈ [5], l ∉ lines) ∧ s.mem.xinv = none ∧ (∀ l ∈ lines, (s.lmeta l).state ≤ 1) ∧ lineOf 0x1000 ≠ lineOf 0x200000) ∧
    (∃ l ∈ [lineOf 0x40000000], l ∈ (List.range (2 ^ sizeBits 0 / 64)).map (fun i => lineOf 0x40000000 + i)) := by
  refine ⟨?_, ?_, ?_, ?_, ?_⟩ <;> decide +kernel

/-! ### Rings, decks and light -/

/-- The service machine with ring 17 of bank 63 of deck 63 carrying a wavelength at a heater value, ring 16 a spare. -/
def ringState (heater : Nat) (y : Bank) : State :=
  (((withWords []).modRing 4095 17 (fun x => { x with lambda := 7, heater := BitVec.ofNat 12 heater })).modRing 4095 16 (fun x => { x with lambda := 31 })).modBank 4095 (fun _ => y)
/-- A matrix command runs on engine 15. -/
def busyEngine (s : State) : State := s.modEngine 15 (fun e => { e with matrix := some (laneOf false) })
/-- R398: a write below the step is limited to 64 under the old value, and to 0. -/
theorem test_heater_step : ((after (exec (.ringWrite 63 63 17 0) (ringState 100 Bank.initial)) State.reset).ring 4095 17).heater = 36 ∧
    ((after (exec (.ringWrite 63 63 17 0) (ringState 50 Bank.initial)) State.reset).ring 4095 17).heater = 0 := by decide +kernel
/-- R396: TRIPT is at most 5,968. -/
theorem test_tript : ((after (exec (.deckctlWrite 63 0xFFFF0003) (withWords [])) State.reset).deck 63).tript = 5968 := by decide +kernel
theorem witness_DecksTakeTheirState : ((withWords []).engine 15).matrix = none ∧
    (let s := (withWords []).modPh (fun p => { p with laserPresent := 0xF, laserLit := 0xF })
     ∀ m, m < 4 → s.photonic.laserPresent.getLsbD m = true ∧ s.photonic.laserLit.getLsbD m = true) ∧
    (let s := (withWords []).modPh (fun p => { p with laserPresent := 0 })
     ∀ m, m < 4 → s.photonic.laserPresent.getLsbD m = false) := by decide +kernel
/-- Moves from ring 17 to ring 16, idle and busy; one that is pending; a wear move that begins and one in tuning. -/
theorem witness_RingsAreWrittenAndMoved :
    (let s := ringState 100 Bank.initial
     let y := s.bank 4095
     y.wear = none ∧ y.wearing = false ∧ y.pending = false ∧ (s.ring 4095 17).lambda ≠ 31 ∧ (s.ring 4095 16).lambda = 31 ∧ (s.engine 15).matrix = none ∧
      ((busyEngine s).engine 15).matrix ≠ none) ∧
    (let y := { Bank.initial with pending := true, moveFrom := 17, moveTo := 16 }
     y.pending = true ∧ y.wearing = false ∧ y.moveFrom.toNat < 18 ∧ y.moveTo.toNat < 18 ∧ y.moveFrom ≠ y.moveTo) ∧
    (let s := (ringState 100 Bank.initial).modDeck 63 (fun x => { x with wlen := true })
     let y := s.bank 4095
     y.wear = none ∧ y.wearTime = none ∧ y.pending = false ∧ (s.deck 63).wlen = true ∧
      (∀ q, q < 18 → q ≠ 17 → (s.ring 4095 q).lambda ≠ 31 → (s.ring 4095 q).heater < (s.ring 4095 17).heater)) ∧
    (let y := { Bank.initial with wear := some (17, 16) }
     y.wear = some (17, 16) ∧ y.wearing = false) := by decide +kernel
/-- A ring that saturates and one that does not; a sample at the trip threshold; the telemetry ring empty and full. -/
theorem witness_HeatIsMeasuredAndRecorded :
    (let y := (ringState 4095 Bank.initial).ring 4095 17
     y.lambda ≠ 31 ∧ y.heater = 4095 ∧ 0 < (1 : BitVec 12).toInt ∧ y.sat = false) ∧
    ((withWords []).deck 63).tripped = false ∧ ((withWords []).deck 63).tript.toNat ≤ (5968 : BitVec 16).toNat ∧
    (let s := { (withWords []).modPh (fun p => { p with thPeriod := 1, thrlog := 5, thring := 0x10000 }) with timeBase := 1000 }
     s.photonic.thPeriod ≠ 0 ∧ (s.deck 63).tempTime.toNat + 1000 * s.photonic.thPeriod.toNat ≤ s.time.toNat ∧ RingTakes s 0x10000) ∧
    (let p := { (withWords []).photonic with thrlog := 5, thwr := 32 }
     p.thrlog ≠ 0 ∧ (p.thwr - p.thrd).toNat = 2 ^ p.thrlog.toNat) ∧
    (((withWords []).modDeck 63 (fun x => { x with avail := 0 })).deck 63).avail = 0 := by unfold RingTakes; decide +kernel

/-! ### Jobs -/

/-- A machine that is READY, with a launch record at 0x10000. -/
def launchState (r : List Word) : State :=
  { State.reset with dev := { State.reset.dev with bootState := 3 }
                     mem := { State.reset.mem with cells := memWrite [] (cellsAt 0x10000 (r.flatMap (fun w => leBytes 8 w.toNat))) } }
/-- Every line of the record is HOME and clean. -/
theorem record_clean (r : List Word) : Clean (launchState r) 0x10000 1280 := by
  refine ⟨by decide +kernel, fun l _ _ => ⟨rfl, rfl, ?_⟩⟩
  unfold State.dramPoisoned
  rw [show (launchState r).lmeta (lineOf (l * 64)) = LMeta.initial from rfl]; rfl
/-- R381: a record of VERSION 2 is refused with reason 2 at word 0. -/
theorem test_launch_version : let d := (after (exec (.launch 0x10000) (launchState [0x02010007])) State.reset).dev
    (d.launchState, d.launchReason, d.launchWord, d.launchAsid) = (3, 2, 0, 7) := by decide +kernel
/-- The record is the tests' job. -/
theorem read_job (jobs : List Job) : jobAt { launchState testJob.record with jobs := jobs } 0x10000 = testJob :=
  (show jobAt { launchState testJob.record with jobs := jobs } 0x10000 = jobAt (launchState testJob.record) 0x10000 from rfl).trans (by decide +kernel)
/-- The record of the tests' job passes every check; with the job running it does not; one of VERSION 2. -/
theorem witness_JobsAreLaunched : (launchState testJob.record).dev.bootState = 3 ∧ (launchState testJob.record).dev.launchState ≠ 1 ∧
    Clean (launchState testJob.record) 0x10000 1280 ∧ (jobAt (launchState [0x02010007]) 0x10000).fld 0 24 8 ≠ 1 ∧
    (let j := jobAt (launchState testJob.record) 0x10000
     j = testJob ∧ j.headerBad = [] ∧ j.levelsBad = [] ∧ j.tablesBad = [] ∧ (launchState testJob.record).launchRefusal j = none ∧ j.level 0 0 0 3 < 4 ∧ j.holds 8 = true) ∧
    (let s := { launchState testJob.record with jobs := [testJob] }
     (∃ k ∈ s.jobs, k.asid = (jobAt s 0x10000).asid) ∧ s.launchRefusal (jobAt s 0x10000) = some (3, 0)) := by
  refine ⟨by decide +kernel, by decide +kernel, record_clean _, by decide +kernel, ?_, ?_⟩
  · rw [show jobAt (launchState testJob.record) 0x10000 = testJob from read_job []]; decide +kernel
  · simp only [read_job]; decide +kernel
theorem witness_JobsEndAndAreReclaimed : jobState.job ((7 : Word).extractLsb' 0 16) = some testJob ∧ testJob.active = true ∧ (jobState.core 8).hasJob = true ∧
    (let s := { jobState with jobs := [{ testJob with active := false }], ctxs := [], cores := [(8, { Core.initial with asid := 7 })] }
     s.job ((7 : Word).extractLsb' 0 16) = some { testJob with active := false } ∧
     ∀ c, c < 4096 → testJob.holds c = true → (∀ i, i < 8 → (s.ctx (c * 8 + i)).phase = .free) ∧ (s.core c).sb = [] ∧ (∀ e ∈ s.mem.l2q, e.core ≠ c) ∧
       ∀ f ∈ s.flights, f.src ≠ c) := by
  refine ⟨by decide +kernel, by decide +kernel, by decide +kernel, by decide +kernel, fun c _ _ => ⟨fun i _ => rfl, ?_, fun e he => (by cases he), fun f hf => (by cases hf)⟩⟩
  by_cases h : c = 8
  · subst h; rfl
  · unfold State.core; simp [tabGet, Ne.symm h]; rfl
/-- The machine of the tests' job with a set of partitions, and the registers of a switch. -/
def switchState (parts save load : Word) : State := { jobState with dev := { jobState.dev with swParts := parts, swSave := save, swLoad := load } }
/-- A switch of partition 1, saved and restored. -/
def switchOf (out : Option (BitVec 16)) (into : Option (BitVec 16 × BitVec 256)) : Switch := { parts := 2, out := out, into := into, save := 0, born := 0 }
/-- What was saved of the job. -/
def savedJob : Saved :=
  { asid := 7, parts := 2, digest := 5, out := true, cores := [(9, { Core.initial with nb := 64 })], chans := [], regions := [], ops := [], barriers := [], cells := [], poison := [] }
theorem witness_JobsAreSwitched : jobState.switch = none ∧ (switchState 2 0 0).dev.swParts ≠ 0 ∧ RunsOn (switchState 2 0 0) 2 (some 7) ∧ RunsOn (switchState 4 0 0) 4 none ∧
    (0x8000 : Word).toNat % 0x10000 ≠ 0 ∧ (0x20000 : Word).getLsbD 16 = false ∧ (0x10000 : Word).getLsbD 16 = true ∧ (0x10000 : Word).toNat + areaSize 2 ≤ dramSize ∧
    (let s := { jobState with ctxs := [], switch := some (switchOf (some 7) none) }
     s.switch = some (switchOf (some 7) none) ∧ (∀ c ∈ coresIn 2, s.coreRests c = true) ∧ s.jobLive 7 = true) ∧
    (let s := { jobState with ctxs := [], switch := some (switchOf none (some (7, 5))), saved := [savedJob] }
     (∀ c ∈ coresIn 2, s.coreRests c = true) ∧ s.jobLive 7 = true ∧ s.saved.find? (fun y => y.asid == 7 && y.parts == 2 && y.digest == 5) = some savedJob) := by
  unfold RunsOn
  and_intros <;> decide +kernel

/-! ### The host -/

/-- The tests' job on a READY package, with page 63 of the message window open to it and core 0 listed with its ASID. -/
def hostState : State :=
  { jobState with dev := { jobState.dev with bootState := 3, amPage := [(63, 0x10007)] }, cores := (0, { Core.initial with asid := 7, hasJob := true }) :: jobState.cores }
/-- A block of a kind for a channel of a core, with a second word. -/
def blockOf (kind : BitVec 4) (chan : BitVec 6) (dest : BitVec 12) (w1 : Word) : Vector Word 8 := #v[header kind chan 9 dest 5 3, w1, 2, 3, 4, 5, 6, 7]
/-- R373: the message carries TAG 0, SRC 0 and SERIAL 0. -/
theorem test_host_message : ((after (exec (.activeMessageBlock 63 true false [blockOf 1 2 8 0]) hostState) State.reset).mail.map (fun m => m.msg.words[0])) = [header 1 2 0 8 0 0] := by
  decide +kernel
/-- R390: the pending vector is sent when its mask goes. -/
theorem test_msix_unmask : (after (exec (.msixUnmask 2047) { State.reset with dev := { State.reset.dev with msixEnable := true, msixPending := [2047] } }) State.reset).dev.out =
    [.msix 2047 0 0] := by rfl
theorem witness_HostMessagesAreDelivered : (63 : Nat) < 64 ∧ (hostState.mail.filter (fun m => decide (16384 ≤ m.src))).length < 256 ∧
    (∀ d ∈ [0, 8], (hostState.core d).hasJob = true ∧ (hostState.core d).asid = (tabGet hostState.dev.amPage 63 0).extractLsb' 0 16) ∧
    (blockRefusal hostState 62 (blockOf 1 2 8 0) = 2 ∧ blockRefusal hostState 63 (blockOf 2 2 8 0) = 3 ∧ blockRefusal hostState 63 (blockOf 1 2 0 0) = 4 ∧
      blockRefusal hostState 63 (blockOf 1 3 8 0) = 5 ∧ blockRefusal hostState 63 (blockOf 0 2 8 1) = 6 ∧ blockRefusal hostState 63 (blockOf 1 2 8 1) = 0) := by decide +kernel
/-- The last line of DRAM, clean and poisoned; and the last bytes of the staging buffer. -/
theorem witness_MemoryWindowReadsAndWrites : hostState.dev.bootState = 3 ∧ Clean hostState lastPa 64 ∧ (0 < 63 ∧ lastPa % 64 + 63 ≤ 64 ∧ 63 < 64 ∧ lastPa + 63 ≤ dramSize) ∧
    hostState.dramPoisoned lastPa = false ∧
    (let s := hostState.modMem (fun m => m.setMeta (lineOf lastPa) { LMeta.initial with poison := true })
     (s.lmeta (lineOf lastPa)).poison = true ∧ (s.lmeta (lineOf lastPa)).state = 0 ∧ s.dramPoisoned lastPa = true) ∧
    jobState.dev.bootState ≠ 3 ∧ 0x3FFFC0 + 64 ≤ 0x400000 := by
  refine ⟨?_, ⟨?_, fun l _ _ => ⟨rfl, rfl, ?_⟩⟩, ?_, ?_, ?_, ?_, ?_⟩ <;> try decide +kernel
  unfold State.dramPoisoned
  rw [show hostState.lmeta (lineOf (l * 64)) = LMeta.initial from rfl]; rfl
theorem witness_LinkInterruptsAndReset : (2047 : Nat) < 2048 ∧
    (let d := { State.reset.dev with msixEnable := true, msixPending := [2047] }
     d.msixEnable = true ∧ d.msixFunctionMask = false ∧ d.msixPending = [2047]) ∧ State.reset.dev.msixEnable = false := by refine ⟨by decide, ⟨rfl, rfl, rfl⟩, rfl⟩
/-- A descriptor at 0x10000 whose destination is 0x20000. -/
def ckptState (c : Option Ckpt) : State :=
  let s := launchState [0, 0x20000]
  { s with dev := { s.dev with ckpt := c } }
/-- No line is poisoned. -/
theorem no_poison (c : Option Ckpt) (l : Nat) : (ckptState c).dramPoisoned l = false := by
  unfold State.dramPoisoned
  rw [show (ckptState c).lmeta (lineOf l) = LMeta.initial from rfl]; rfl
theorem witness_CheckpointsRun : (∀ c, Clean (ckptState c) 0x10000 32) ∧ (ckptState none).dev.ckpt = none ∧ (ckptState none).localWord 0x10000 = 0 ∧
    fieldOf ((ckptState none).localWord 0x10008) 15 0 = 0 ∧ fieldOf ((ckptState none).localWord 0x10010) 31 8 = 0 ∧
    (let c : Ckpt := { desc := 0x10000, peer := true, phys := 9, dest := 0, sent := some (5, 64) }
     (ckptState (some c)).dev.ckpt = some c ∧ c.peer = true ∧ c.sent = some (5, 64) ∧ (ckptState (some c)).fabric.retry = [] ∧
      ∃ r ∈ [({ id := 4, phys := 9, index := 1, seq := 0, born := 0, last := 0, ordered := false, asid := 7, key := 0, op := 0, body := .line 0 0 } : Retry)], r.isLine = true) ∧
    (let c : Ckpt := { desc := 0x10000, peer := false, phys := 0, dest := 0, sent := none }
     (ckptState (some c)).dev.ckpt = some c ∧ c.peer = false ∧ c.sent = none ∧ (∀ l, ((ckptState (some c)).lmeta l).state = 0 ∧ (ckptState (some c)).homeTrans l = none) ∧
      ((List.range (dramSize / 64)).filter (fun l => (ckptState (some c)).dramPoisoned (l * 64))).length < 2 ^ 32) := by
  refine ⟨fun c => ⟨?_, fun l _ _ => ⟨rfl, rfl, no_poison _ _⟩⟩, ?_, ?_, ?_, ?_, ?_, ⟨?_, ?_, ?_, fun l => ⟨rfl, rfl⟩, ?few⟩⟩
  case few =>
    rw [List.filter_eq_nil_iff.2 (fun l _ => by rw [no_poison]; exact Bool.false_ne_true)]
    decide +kernel
  all_goals decide +kernel

/-! ### Trust and registers -/

/-- A package in reset with an image of 256 bytes in the staging buffer, and a fused SVN of 5. -/
def stagedState (magic svn : Nat) : State :=
  { State.reset with dev := { Device.initial with svnMin := 5
                                                  staging := memWrite [] (cellsAt 0 (leBytes 4 magic ++ leBytes 4 1 ++ leBytes 8 256 ++ leBytes 8 0x40 ++ leBytes 4 svn)) } }
/-- R410: an image that is shorter than its header says fails with reason 2. -/
theorem test_boot_length : (after (exec (.bootgo 320) (stagedState 0x57464D4B 5)) State.reset).bootEnds.dev.bootReason = 2 := by decide +kernel
/-- R410: BOOTSTAT reads VERIFYING until the verification ends. -/
theorem test_boot_verifying : (after (exec (.bootgo 320) (stagedState 0x57464D4B 5)) State.reset).dev.bootstat = 1 := by decide +kernel
/-- FIPS 180-4: the digest of "abc". -/
theorem test_sha256 : sha256 [0x61, 0x62, 0x63] = 0xba7816bf8f01cfea414140de5dae2223b00361a396177a9cb410ff61f20015ad := by decide +kernel
/-- R8: a read of a count clears it. -/
theorem test_read_clear : (after (exec (.readClear 0x58) (jobState.modDev (fun d => { d with cwDrop := 7 }))) State.reset).dev.cwDrop = 0 := by decide +kernel
/-- A wrong length, a wrong magic number, and an image whose signature has r = 0; whose key it is, only the fused digests say. -/
theorem witness_FirmwareIsVerifiedAndStarted :
    (let s := stagedState 0x57464D4B 4
     s.dev.bootState = 0 ∧ (s.modDev (fun d => { d with bootState := 1, bootGo := 256 })).dev.bootGo.toNat = img s 8 8 ∧ 256 ≤ img s 8 8 ∧ img s 8 8 ≤ 4194304 ∧ img s 8 8 % 64 = 0 ∧
      (img s 0 4 = 0x57464D4B ∧ img s 4 4 = 1 ∧ img s 16 8 % 4 = 0 ∧ img s 28 4 = 0 ∧ img s 160 96 = 0) ∧ img s 24 4 < s.dev.svnMin.toNat ∧
      (∀ h, ecdsaVerify (beNat (memBytes s.dev.staging 32 32), beNat (memBytes s.dev.staging 64 32)) h (beNat (memBytes s.dev.staging 96 32))
        (beNat (memBytes s.dev.staging 128 32)) = false)) ∧
    img (stagedState 1 5) 0 4 ≠ 0x57464D4B ∧ (stagedState 1 5).dev.svnMin.toNat ≤ img (stagedState 1 5) 24 4 ∧ (0 : Word).toNat ≠ img (stagedState 1 5) 8 8 ∧
    (jobState.modDev (fun d => { d with bootState := 2 })).dev.bootState = 2 ∧ (0xFFFFFFFF : Word).toNat < 2 ^ 32 := by
  refine ⟨⟨?_, ?_, ?_, ?_, ?_, ?_, ?_, fun h => ?unsigned⟩, ?_⟩
  case unsigned =>
    rw [show beNat (memBytes (stagedState 0x57464D4B 4).dev.staging 96 32) = 0 from by decide +kernel]
    unfold ecdsaVerify; simp
  all_goals decide +kernel
theorem witness_AttestationsAreMade : (0x10007 : Word).getLsbD 16 = true ∧ (7 : Word).getLsbD 16 = false ∧ jobState.dev.attBusy = false ∧ jobState.jobLive 7 = true ∧
    jobState.jobLive 8 = false ∧ hostState.dev.bootState = 3 ∧ (jobState.modDev (fun d => { d with attBusy := true })).dev.attBusy = true := by decide +kernel
theorem witness_ControlWindowReadsAndWrites : (0xFFFFFF : Nat) < 0x1000000 ∧ (3 : Nat) < 4 ∧ (1 : Word).getLsbD 0 = true ∧ (1023 : Nat) < 1024 ∧ (63 : Nat) < 64 ∧
    (0xFFFFFFFFFFFFFFC0 : Word).toNat % 64 = 0 ∧ (0xFF : Nat) < 0x100 := by decide

/-! ### Words and steps -/

/-- The service machine whose schedule lets core 0 issue. -/
def issueState (ws : List IWord) : State := { withWords ws with sched := { (withWords ws).sched with agenda := [.issue 0] } }
/-- The words of the obligation, read one by one. -/
theorem test_written_out_words : ReadsAs [(0x20840203, .srai 4 4 3), (0xB8221820, .fadd 1 2 3 0 1), (0xA4432120, .vfma 2 3 4 1 1), (0x9C04C001, .syswr 4 0xC00),
    (0x9CA0C130, .sysrd 5 0xC13), (0x9C070003, .irq 7), (0x98060340, .tkill 6), (0x74640081, .vldf 3 4 1), (0xDC042800, .semadd 4 5), (0xDC640080, .semrd 3 4),
    (0xDC04290C, .semwaitN 4 5 12)] := rfl
/-- A word that is an instruction, one that is none, and one that cannot be fetched. -/
theorem witness_AStepRunsTheDecodedInstruction : (issueState [nop]).sched.agenda = .issue 0 :: [] ∧
    (∀ ws ∈ [[nop], [0]], (issueOrder { issueState ws with sched := { (issueState ws).sched with agenda := [] } } 0).head? = some 0 ∧
      Fresh ((issuing (issueState ws) [] 0).ctx 0)) ∧
    (let u := issuing (issueState [nop]) [] 0
     u.fetch 0 (u.ctx 0).pc = (u, .ok nop) ∧ decode nop = .ok (.add 0 0 0)) ∧
    (let u := issuing (issueState [0]) [] 0
     u.fetch 0 (u.ctx 0).pc = (u, .ok 0) ∧ decode 0 = .error .unassigned) ∧
    (let u := issuing (issueState []) [] 0
     u.fetch 0 (BitVec.ofNat 52 (2 ^ 51)) = (u, .ok 0) ∨ ∃ e, (u.fetch 0 (BitVec.ofNat 52 (0xF * 2 ^ 48))).2 = .error e) ∧
    isService (0 / 8) = true ∧ regionOf (spAddr 0 0) = 0xC ∧ spMalformed (spAddr 0 0) = false ∧ (issueState [nop]).spPoisoned (spAddr 0 0) = false ∧
    (Instr.laserLoss 0).isWord = false := by
  refine ⟨rfl, by unfold Fresh; decide +kernel, ⟨rfl, rfl⟩, ⟨rfl, rfl⟩, Or.inr ⟨cXLATE, rfl⟩, ?_⟩
  decide +kernel
/-- A frame that replays, an exhausted budget, and a fault that has come due. -/
theorem witness_AStepRunsTheDecodedInstruction_due :
    (let r : Rpt := { base := BitVec.ofNat 52 (spAddr 0 0), frame := [nop], count := 4, sd := 1, sa := 0, sb := 0, iter := 1, slot := 0 }
     let c := { runningAt 0 with rpt := some r }
     c.budgetLeft ≠ 0 ∧ c.waiting = false ∧ c.deferred = [] ∧ c.rpt = some r ∧ decode (staggered (r.frame.getD r.slot 0) r.iter r.sd r.sa r.sb) = .ok (.add 1 0 0)) ∧
    (let c := { runningAt 0 with budgetLeft := 0 }
     c.waiting = false ∧ c.budgetLeft = 0) ∧
    (let c := { runningAt 0 with deferred := [{ cause := 7, addr := 0, access := pendOf true .bank .none [] 1 none }] }
     c.waiting = false ∧ c.budgetLeft ≠ 0 ∧ c.deferred ≠ []) := by refine ⟨⟨by decide, rfl, rfl, rfl, rfl⟩, by decide, by decide, by decide, by decide⟩
theorem witness_SmallGroupsDecodeAsTheirRulesSay : fMajor 0x20840203 = 0x08 ∧ fMajor 0x8C000000 = 0x23 ∧ fMajor 0xDC042800 = 0x37 ∧ fFn 0x8C000801 = 0x001 ∧
    ((rdG (jobRegs 63 0 0).me 1).toNat % 64 = (63 : BitVec 6).toNat) := by decide +kernel
theorem witness_DecodeInvertsEncode : (Instr.semwaitN 4 5 63).isWord = true ∧ (Instr.semwaitN 4 5 63).wellFormed = true := by decide
theorem witness_EncodeInvertsDecode : decode 0xDC04290C = .ok (.semwaitN 4 5 12) := rfl
theorem witness_StepsKeepMemoryCanonical : Safety.MemoryCanonical jobState ∧ Safety.MemoryCanonical copyState := by unfold Safety.MemoryCanonical; decide +kernel
theorem witness_SecurityVersionNeverFalls : ∃ t, exec (.svnburn 7) jobState = .next t := ⟨_, rfl⟩
theorem witness_MemoryReadsWhatWasWritten : memWf [(3, 1), (9, 255)] = true ∧ (255 : Nat) < 2 ^ (8 * 1) := by decide

/-! ### States for the statements of lanes, EXT, hints and boundaries -/

/-- What the statement of lanes takes of a form: its destination, type, lanes with a source and whether they draw. -/
def laneForm (i : Instr) : List Nat :=
  let s := (withEntry 0x8046).modCtx 0 (fun c => { c with frm := 4 })
  match drawnLanes i s.me (s.core s.myCore) with
  | some p => [p.1.toNat, p.2.2.1, p.2.2.2.1, if p.2.2.2.2.1 then 1 else 0]
  | none => []
/-- An addition under SR with a mask, a conversion of a float to T8, one of T8 to a float, one of a float to a saturated integer, a VDOT of BF16, and a
VDQNT; each is a form that the statement takes. -/
theorem witness_VectorLanesUnderEveryMode :
    laneForm (.vadd 3 1 2 1 0) = [3, 0, 16, 1] ∧ laneForm (.vcvt 3 1 0 1 7 5) = [3, 7, 16, 0] ∧ laneForm (.vcvt 3 1 7 1 1 0) = [3, 1, 32, 0] ∧
    laneForm (.vcvts 3 1 0 1 6 5) = [3, 6, 16, 1] ∧ laneForm (.vdot 3 1 2 1 2) = [3, 0, 16, 1] ∧ laneForm (.vdqnt 3 1 1 1 0 5) = [3, 0, 16, 1] := by decide +kernel
/-- R119: of the active lanes 0 and 2 lane 2 draws second. -/
theorem test_sr_draws : let s := (withLanes 0x3F800001 0x33800000).modCtx 0 (fun c => { c with frm := 4, seed := 1 })
    let t := after (exec (.vadd 3 1 2 1 0) s) s
    t.me.seed = drawn 1 8 := by decide +kernel
theorem witness_FloatingReductionsFollowTheTree : let c := ((withLanes 0x3F800000 0).modCtx 0 (fun c => { c with frm := 4 })).me
    ((floatReduction (.vrsum 3 1 1 0) c).map (fun p => (p.1, p.2.2.2.1, p.2.2.2.2.2)) = some (3, 0, 0)) ∧
    ((floatReduction (.vrmin 3 1 1 3) c).map (fun p => (p.1, p.2.2.2.1)) = some (3, 3)) ∧ (floatReduction (.vrmax 3 1 1 1) c).isSome = true := by decide +kernel
/-- R164: sixteen lanes of 1.0 sum to 16.0. -/
theorem test_vrsum_float : rdV (after (exec (.vrsum 3 1 0 0) (withLanes 0x3F800000 0)) State.reset).me 3 = 0x41800000 := by decide +kernel
theorem witness_SparseDotProduct_types : (1 : Fld3).toNat = 1 ∧ (2 : Fld3).toNat = 2 ∧ 6 ≤ (6 : Fld3).toNat ∧ 6 ≤ (7 : Fld3).toNat := by decide

/-- A pair of EXT and a word with two words after it. -/
def extState (w w1 : IWord) : State := withRegs [0xF8000000, w, w1, nop] spBase 0 0
/-- EXT with LD, ST, BR, JL, a BR of condition 6, an MOVI with an a field and an MOVH with bits above 31; the two words after the pair, and one that a
slot may not hold. -/
theorem witness_ExtExtendsAddressesAndTargets :
    (∀ w ∈ [(0x58610000 : IWord), 0x68610000, 0x80000004, 0x88000004, 0x8000C004, 0x28A10007, 0x2CA00007],
      (extState w nop).me.ext = none ∧ (extState w nop).me.rpt = none ∧ (extState w nop).fetch (extState w nop).sched.cur ((extState w nop).me.pc + 4) = (extState w nop, .ok w) ∧
      FetchedFrom (paired (extState w nop) 0 w) ((extState w nop).me.pc + 8) [nop, nop] (paired (extState w nop) 0 w)) ∧
    slotBanned nop = false ∧ slotBanned 0x84000004 = true ∧
    (∃ s2, FetchedFrom (paired (extState 0x80000004 0x84000004) 0 0x80000004) ((extState 0x80000004 0x84000004).me.pc + 8) [0x84000004, nop] s2) := by
  refine ⟨?_, rfl, rfl, _, _, rfl, _, rfl, rfl⟩
  intro w hw
  simp only [List.mem_cons, List.not_mem_nil, or_false] at hw
  rcases hw with rfl | rfl | rfl | rfl | rfl | rfl | rfl <;> exact ⟨rfl, rfl, rfl, _, rfl, _, rfl, rfl⟩
theorem witness_ExtExtendsAddressesAndTargets_forms :
    (extAccessOf 0x58610000 ((0 : BitVec 26) ++ fOff 0x58610000) (extState 0x58610000 nop).me).map (fun x => (x.ea, x.size, x.swz)) = some (spAddr 0 0x100, 8, 0) ∧
    (extAccessOf 0x68610000 ((1 : BitVec 26) ++ fOff 0x68610000) (extState 0x68610000 nop).me).map (fun x => x.ea) = some (spAddr 0 0x100 + 8 * 2 ^ 13) ∧
    extControlForm 0x80000004 0 (extState 0x80000004 nop).me = some (true, (extState 0x80000004 nop).me.pc + 20, none) ∧
    extControlForm 0x88000004 0 (extState 0x88000004 nop).me = some (true, (extState 0x88000004 nop).me.pc + 20, some 31) ∧
    extControlForm 0x8000C004 0 (extState 0x8000C004 nop).me = none ∧ (fMajor 0x8000C004).toNat = 0x20 ∧ 6 ≤ (fSwz 0x8000C004).toNat ∧
    (fMajor 0x28A10007).toNat = 0x0A ∧ fA 0x28A10007 ≠ 0 ∧ (fMajor 0x2CA00007).toNat = 0x0B ∧ 2 ^ 32 ≤ ((0x3FFFFFF : BitVec 26) ++ fImm 0x2CA00007).toNat ∧
    (let u := paired (extState 0x68610000 nop) 0 0x68610000
     faultOf (u.accessCheck u.sched.cur (spAddr 0 0x100) 8 0 false) = none ∧ (∀ p ∈ u.me.pend, p.acq = 0) ∧ u.guardHit u.myCore ((List.range 8).map (spAddr 0 0x100 + ·)) = false ∧
      u.me.ld < 63 ∧ StoreReady u u (((List.range 8).map (spAddr 0 0x100 + ·)).zip (List.replicate 8 0))) := by
  refine ⟨?_, ?_, ?_, ?_, ?_, ?_, ?_, ?_, ?_, ?_, ?_, ?_, ?_, ?_, ?_, ⟨?_, ?_, ?_, ?_, ?_, settles _ _ ?_⟩⟩ <;> decide +kernel
/-- A store to another core's scratchpad, and one to DRAM over an entry of the store buffer of its line. -/
theorem witness_StoresAreIssued_elsewhere :
    (let s := jobRegs (BitVec.ofNat 64 (spAddr 9 0x40)) 5 0
     let cells := (runAt (spAddr 9 0x40) 8).zip (List.replicate 8 0)
     (accessOf (.stD 2 1 0 0) s.me).map (·.ea) = some (spAddr 9 0x40) ∧ StoreReady s s cells ∧ (9 ≠ s.myCore ∧ ∃ c ∈ cells, isSp c.1 = true ∧ spOwner c.1 = 9)) ∧
    (let s := (jobRegs 0x1000 5 0).modCore 8 (fun c => { c with sb := [{ line := 0x40, asid := 7, cells := [(0x1008, 1)], stores := [(64, 3)], born := 0, svc := false }] })
     let cells := (runAt 0x1000 8).zip (List.replicate 8 0)
     StoreReady s s cells ∧ (∀ c ∈ cells, isSp c.1 = false ∧ c.1 / 64 = 0x40) ∧ (s.core s.myCore).sb.length = 1) := by
  refine ⟨⟨?_, ⟨?_, ?_, ?_, ?_, ?_, settles _ _ ?_⟩, ?_⟩, ⟨?_, ?_, ?_, ?_, ?_, settles _ _ ?_⟩, ?_⟩ <;> decide +kernel
/-- A run of two lines at a mapped address, at each level, is hinted line by line; the shortest and the longest runs, and those beyond. -/
theorem witness_HintsEndWithoutATrap_run (pin : Bool) (level : Nat) : let s := jobRegs 0x1234 64 0
    (∃ s1 pa, hintLine s.refresh (tagVa (rdG s.me 1)) = (s1, some pa) ∧ ∃ ps : List (Option Nat), ps.length = (tagVa (rdG s.me 1) + (rdG s.me 2).toNat - 1) / 64 - tagVa (rdG s.me 1) / 64 + 1 ∧
      LinesHinted pin level s1 (tagVa (rdG s.me 1) / 64) ps) ∧
    0 < (rdG s.me 2).toNat ∧ (rdG s.me 2).toNat ≤ 2 ^ 30 ∧ ¬(0 < (rdG (jobRegs 0x1234 0 0).me 2).toNat) ∧ 2 ^ 30 < (rdG (jobRegs 0x1234 0x40000001 0).me 2).toNat := by
  refine ⟨?_, by decide +kernel, by decide +kernel, by decide +kernel, by decide +kernel⟩
  have h : (hintLine (jobRegs 0x1234 64 0).refresh 0x1234).2 = some 0x40001234 := by
    simp only [hintLine]; rw [translate_empty (jobRegs 0x1234 64 0).refresh _ _ _ _ _ rfl]; decide +kernel
  exact ⟨_, _, Prod.ext rfl h, [_, _], (show 2 = _ by decide +kernel), rfl, rfl, trivial⟩
theorem witness_AtomicArithmetic_fadd : (10 : Nat) = 10 ∧ (4 : Nat) ≠ 8 ∧ 0x3F800000 < 2 ^ (8 * 4) ∧ 0x3C00 < 2 ^ (8 * 2) := by decide
/-- R230: 1.0 + 1.0 at both sizes, an infinity and its opposite, and the sum of two negative zeros. -/
theorem test_atomic_fadd : (atomNew 10 4 0x3F800000 0x3F800000 0).1 = 0x40000000 ∧ (atomNew 10 2 0x3C00 0x3C00 0).1 = 0x4000 ∧
    (atomNew 10 4 0x7F800000 0xFF800000 0) = (0x7FC00000, fNV) ∧ (atomNew 10 2 0x8000 0x8000 0).1 = 0x8000 := by decide +kernel
/-- Words that no row takes: of a major between the groups and above them, a BR of condition 7 with its slots, with and without a word that a slot may not hold,
and an RPT of a reserved field with its frame. -/
theorem witness_BoundaryTraps_undefined : 0x24 < (fMajor 0x94000000).toNat ∧ 0x24 < (fMajor 0xFFFFFFFF).toNat ∧ (fMajor 0x8000E004).toNat = 0x20 ∧
    (fMajor 0x90000000).toNat = 0x24 ∧ [nop].length = (0x90000000 : IWord).toNat / 2 ^ 22 % 16 + 1 ∧ arithClass nop = true := by decide +kernel
theorem witness_BoundaryTraps_slots : FetchedFrom (atKey (withWords [0x8000E004, nop, nop]) 0) (ownAddr ((withWords [0x8000E004, nop, nop]).ctx 0) + 4) [nop, nop]
    (atKey (withWords [0x8000E004, nop, nop]) 0) := ⟨_, rfl, _, rfl, rfl⟩
theorem witness_BoundaryTraps_banned : ∃ s2, FetchedFrom (atKey (withWords [0x8000E004, 0x84000004, nop]) 0)
    (ownAddr ((withWords [0x8000E004, 0x84000004, nop]).ctx 0) + 4) [0x84000004, nop] s2 := ⟨_, _, rfl, _, rfl, rfl⟩
theorem witness_BoundaryTraps_frame : ∃ s2, FetchedFrom (atKey (withWords [0x90000000, nop]) 0) (((withWords [0x90000000, nop]).ctx 0).pc + 4) [nop] s2 := ⟨_, _, rfl, rfl⟩
theorem witness_DecodeTableInstructions_modes : ((withRegs [] 200 0x123 0).core 0).dmode = false ∧ (200 : Nat) ≠ 72 ∧
    (((withRegs [] 200 0x123 0).modCore 0 (fun c => { c with dmode := true })).core 0).dmode = true ∧ 200 % 128 = 72 := by decide +kernel

/-! ### States for the statements of replies, messages and tokens -/

/-- Loads with their bytes for the even words of a vector, and for lanes of 4-bit signed integers and of T8 under SR. -/
theorem witness_LoadReplyWritesItsRegister_lanes : ∀ d ∈ [Dst.lanes 31 4 0x5555, .lanes 1 2 0xFFFFFFFF, .conv 3 6 0x8046 0xFFFF 4 1 [] false, .conv 3 5 0 0xFFFF 0 1 (List.replicate 256 0) true],
    let p := pendOf true .bank d [] 0 (some (.bytes (List.replicate 64 1)))
    ((withPend p).ctx 64).pend.find? (fun q => q.id == 3 && q.load) = some p ∧ p.route ≠ .atomic ∧ p.parts = 0 ∧ p.reply = some (.bytes (List.replicate 64 1)) := by decide +kernel
/-- R189: of codes 1 and 15 of 4-bit signed integers the lanes are 1.0 and -1.0. -/
theorem test_conv_reply : let p := pendOf true .bank (.conv 3 6 0x8046 0xFFFF 0 1 [] false) [] 0 (some (.bytes (List.replicate 8 0xF1)))
    let t := after (exec (.loadReply 64 3) (withPend p)) State.reset
    ((List.range 2).map (lane (rdV (t.ctx 64) 3) 32)) = [0x3F800000, 0xBF800000] := by decide +kernel
/-- A request of a channel with handled atomics; and its handler at END, with RET and without, the sender's operation waiting. -/
theorem witness_AtomicsAreServedAndAnswered_handled :
    (let s := (jobState.modCore 8 (fun c => { c with inbox := [slotOfAtomic 2] })).modChan 8 2 (fun h => { h with atomh := true })
     s.selectionHeld 8 = false ∧ s.nextAtomic 8 = some (slotOfAtomic 2) ∧ (slotOfAtomic 2).msg.kind = 4 ∧ (s.chan 8 (slotOfAtomic 2).chan).atomh = true ∧
      (∀ y ∈ (s.core 8).inbox, y.id = 6 → y = slotOfAtomic 2)) ∧
    (∀ w4 ∈ [(0x20 : Word), 0xA0], let x : Slot := { slotOfAtomic 2 with busy := true, msg := { (slotOfAtomic 2).msg with words := (slotOfAtomic 2).msg.words.set 4 w4 } }
     let p := pendOf true .atomic (.old 5 8) [] 1 none
     let s0 := (withPend p).modCore 8 (fun c => { c with inbox := [x] })
     let s := { s0.setCtx 70 { runningAt 0x400 with slot := some 6 } with sched := { s0.sched with cur := 70 } }
     s.sched.cur % 8 = 6 ∧ s.me.st = 0 ∧ s.me.slot = some 6 ∧ (s.core s.myCore).inbox.find? (fun y => y.id == 6) = some x ∧ x.msg.kind = 4 ∧ x.msg.ackKey ≠ s.sched.cur ∧
      p ∈ (s.ctx x.msg.ackKey).pend ∧ p.id = x.msg.ackId ∧ p.parts = 1 ∧ p.counted = true ∧ p.reply = none ∧ (x.msg.words[4]).getLsbD 7 = decide (w4 = 0xA0)) := by
  refine ⟨by decide +kernel, ?_⟩
  intro w hw
  simp only [List.mem_cons, List.not_mem_nil, or_false] at hw
  rcases hw with rfl | rfl <;> decide +kernel
/-- A region that its task's purge has marked, freed by its program. -/
theorem witness_RegionsAllocatedAndFreed_marked : let s := jobState.setRegion 8 1 { Region.initial with first := 3, nbank := 1, origin := .ralloc, asid := 7, reclaim := 1 }
    (s.region 8 1).nbank ≠ 0 ∧ (s.region 8 1).reclaim < 2 ∧ (s.core 8).guards = [] := by decide +kernel
/-- A START, a CONT without late replies and a NOTIFY in channel 2; the levels of the tests' job on core 8. -/
theorem witness_StartsAndContinuationsBegin : (∀ kind ∈ [(0 : BitVec 4), 7, 11], let s := withInbox [slotOf kind 2 5]
      s.selectionHeld 8 = false ∧ s.freeGeneral 8 = some 65 ∧ s.selected 8 = some 2 ∧
      (s.core 8).inbox.find? (fun y => y.chan == 2 && !y.busy && !(y.msg.kind == 4)) = some (slotOf kind 2 5) ∧ (s.core 8).lateFor (slotOf kind 2 5).msg = []) ∧
    isService 8 = false ∧ jobState.jobOn 8 = some testJob ∧ testJob.levelHolds 1 8 = true := by
  refine ⟨?_, by decide +kernel, by decide +kernel, by decide +kernel⟩
  intro k hk
  simp only [List.mem_cons, List.not_mem_nil, or_false] at hk
  rcases hk with rfl | rfl | rfl <;> decide +kernel
/-- The last slot of an inbox: a channel that spills has a message waiting, and none does and channel 2 has the most. -/
theorem witness_MessagesArriveInOrder_last :
    (let s := (withInbox ((List.range 255).map (slotOf 1 2 ·))).modChan 8 2 (fun h => { h with spill := true })
     (s.core 8).inbox.length = 255 ∧ ∃ y ∈ (s.core 8).inbox, y.busy = false ∧ (s.chan 8 y.chan).spill = true) ∧
    (let s := withInbox ((List.range 255).map (slotOf 1 2 ·))
     (s.core 8).inbox.length = 255 ∧ (∀ y ∈ (s.core 8).inbox, (s.chan 8 y.chan).spill = false ∧ y.chan = 2 ∧ y.busy = false)) := by decide +kernel
/-- An entry with one reply owed to the activation that the CONT became on core 9. -/
theorem witness_ForwardingEntriesExpire_heir : let f : Fwd := { ctx := 0, tag := 3, dest := 9, serial := 0, owed := [pendOf true .bank (.g 5 false) [] 1 none], born := 0, heir := some 4 }
    let s := { jobState.modCore 8 (fun c => { c with fwds := [f] }) with now := 4096, ctxs := jobState.ctxs ++ [(72, { runningAt 0 with act := 4, ld := 1 })] }
    (s.core 8).fwds[0]? = some f ∧ f.heir = some 4 ∧ (s.ctx (f.dest * 8 + 0)).phase = .run ∧ (s.ctx (f.dest * 8 + 0)).act = 4 := by decide +kernel
/-- The record of a CPY with a further header and barrier name; g2 holds the after-token. -/
def headState (extra : Nat) (t : Word) : State :=
  let r : BitVec 512 := BitVec.ofNat 512 (spAddr 8 0x100 * 2 ^ 256 + spAddr 8 0x200 * 2 ^ 320 + 8 * 2 ^ 384 + 2 ^ 416 + extra)
  (jobRegs (BitVec.ofNat 64 (spAddr 8 0x400)) t 0).modMem (fun m => { m with cells := memWrite m.cells (cellsAt (spAddr 8 0x400) (leBytes 64 r.toNat)) })
/-- Its bytes. -/
def headBytes (extra : Nat) (t : Word) : List Byte := (runAt (spAddr 8 0x400) 64).map (memGet (headState extra t).mem.cells)
/-- A malformed after-token; a barrier beyond the job's; channel 3, which the job lacks; and service core 0 to be told. -/
theorem witness_ChildOperationsAreRefused_order : ∀ x ∈ [((0, 2 ^ 32, 0, 0) : Nat × Nat × Nat × Nat), ((barK + 1) * 2 ^ 64, 0, 0, 1) , (3 * 2 ^ 12, 0, 1, 0), (1 * 2 ^ 12 + 2 ^ 18, 0, 1, 0)],
    let s := headState x.1 (BitVec.ofNat 64 x.2.1)
    let bytes := headBytes x.1 (BitVec.ofNat 64 x.2.1)
    let c : Child := ⟨rulesCpy, 3, 1, 2, 0, 0, BitVec.ofNat 1 x.2.2.1, BitVec.ofNat 1 x.2.2.2⟩
    let r : BitVec 512 := BitVec.ofNat 512 (leNat bytes)
    RecordRead (.cpy 3 1 2 0 0 c.n c.k) c s s bytes ∧ headerBad c.rules.form (c.k == 1) r = false ∧ c.rules.bad s r = false ∧ regionOf (hdrCraddr r) < 0xD ∧
    (badToken s.myCore (rdG s.me 2) ↔ x.2.1 ≠ 0) ∧ (s.barRefused s.sched.cur (recWord r 1) = decide (x.2.2.2 = 1) ∨ x.2.2.2 = 0) ∧
    (s.chanBad s.sched.cur (hdrChan r) = decide (x.1 = 3 * 2 ^ 12) ∨ x.2.2.1 = 0) ∧ (x.1 = 1 * 2 ^ 12 + 2 ^ 18 → hdrOther r = true ∧ s.destRefused s.sched.cur (recFld r 0 12) = true) := by
  intro x hx
  simp only [List.mem_cons, List.not_mem_nil, or_false] at hx
  rcases hx with rfl | rfl | rfl | rfl
  all_goals
    refine ⟨⟨rfl, fun h => ?_, ?_, ?_, passes ?_, ?_, ?_, readSp _ _ _ _ ?_ ?_ ?_ ?_⟩, ?_, ?_, ?_, ?_, ?_, ?_, ?_⟩
  all_goals first | (rcases h with h | h <;> cases h) | decide +kernel | (unfold badToken; decide +kernel)
/-- Operations that wait for one that ends DONE and for one that ends FAULTED. -/
theorem witness_OperationsBecomeTerminal_dependents : ∀ st ∈ [(1 : BitVec 8), 0x10, 0x11], let s := (withOp { opIn .running with status := st } tok).setOp 8 3 { opIn .pending with after := some (127, 1) }
    (s.op 8 127).state = .running ∧ (3 : Nat) ≠ 127 ∧ (s.op 8 3).state = .pending ∧ (s.op 8 3).killed = false ∧ (s.op 8 3).after = some (127, (s.op 8 127).gen.toNat) := by
  intro st h
  simp only [List.mem_cons, List.not_mem_nil, or_false] at h
  rcases h with rfl | rfl | rfl <;> decide +kernel
/-- R243, R244: an attached copy that faults lowers CP, and its NOTIFY goes to its own core on channel 2. -/
theorem test_terminal_notice : let s := (withOp { opIn .running with status := 0x10, cause := 3, ntf := true, record := BitVec.ofNat 512 (2 * 2 ^ 12), asid := 7 } tok).modCtx 64 (fun c => { c with cp := 1 })
    let t := after (exec (.opTerminal 8 127) s) s
    ((t.ctx 64).cp, t.mail.map (fun m => (m.dest, m.msg.kind, m.msg.chan))) = (0, [(8, 11, 2)]) := by decide +kernel
/-- Records to the own scratchpad within the job's regions and outside them, to a mapped page, and to no page; a barrier here and of package 1, bound to package 9; a
fostered operation whose creator is here. -/
theorem witness_TerminalStepsAreTaken :
    (∀ a ∈ [0, spAddr 8 0x600, spAddr 9 0x600], let s := withOp { opIn .running with status := 1, asid := 7, record := BitVec.ofNat 512 (a * 2 ^ 192) } tok
     let o := s.op 8 127
     o.state = .running ∧ o.status = 1 ∧ o.beats = [] ∧ o.unacked = 0 ∧ o.killed = false ∧ (∀ n, n < 128 → (s.op 8 n).state ≠ .pending) ∧ recFld o.record 192 52 = a ∧
      (a = 0 ∨ isSp a = true) ∧ (a ≠ 0 → s.spRefused o.asid o.svc ((List.range 32).map (a + ·)) = decide (spOwner a = 9)) ∧ o.foster = none ∧ o.ntf = false ∧ o.bar = false) ∧
    (let o : Op := { opIn .running with status := 0x10, asid := 7, bar := true, heldBytes := 8, ntf := true, record := BitVec.ofNat 512 (barK * 2 ^ 64 + 2 * 2 ^ 12) }
     let s := withOp o tok
     s.farDest o = .own ∧ o.bar = true ∧ o.heldBytes ≠ 0 ∧ o.status ≠ 1) ∧
    (let o : Op := { opIn .running with status := 1, asid := 7, form := .cpyR, bar := true, heldBytes := 8, dest := some 9, record := BitVec.ofNat 512 (1 * 2 ^ 416) }
     let s := (withOp o tok).modFam 1 (fun e => { e with phys := 9, valid := true })
     s.farDest o = .far 1 9) ∧
    (let o : Op := { opIn .running with status := 1, asid := 7, det := true, task := 3, foster := some (2, 0, 9, 1) }
     o.foster = some (2, ((withOp o tok).pkgOf o.asid).toNat, 9, 1) ∧ 1 < 64) := by
  refine ⟨?_, by decide +kernel, by decide +kernel, by decide +kernel⟩
  intro a h
  simp only [List.mem_cons, List.not_mem_nil, or_false] at h
  rcases h with rfl | rfl | rfl <;> decide +kernel
/-- The record of an operation to a mapped page, and to a page that no root maps. -/
theorem witness_TerminalStepsAreTaken_memory :
    let s := (jobState.leaveLanes 8 127).setOp 8 127 { opIn .done with asid := 7 }
    (∃ s1 pa, s.jobCells 8 7 false 0x1000 32 .wr = (s1, .ok pa)) ∧ (∃ s1 c, s.jobCells 8 7 false 0x1000000001000 32 .wr = (s1, .error c)) ∧
    isSp 0x1000 = false ∧ isSp 0x1000000001000 = false := by
  intro s
  have h1 : resultOf (s.jobCells 8 7 false 0x1000 32 .wr).2 = some 0x40001000 := by
    unfold State.jobCells; rw [translate_empty _ _ _ _ _ _ rfl]; decide +kernel
  have h2 : resultOf (s.jobCells 8 7 false 0x1000000001000 32 .wr).2 = none := by
    unfold State.jobCells; rw [translate_empty _ _ _ _ _ _ rfl]; decide +kernel
  refine ⟨?_, ?_, by decide, by decide⟩
  · rcases h : s.jobCells 8 7 false 0x1000 32 .wr with ⟨s1, c | pa⟩
    · rw [h] at h1; cases h1
    · exact ⟨s1, pa, rfl⟩
  · rcases h : s.jobCells 8 7 false 0x1000000001000 32 .wr with ⟨s1, c | pa⟩
    · exact ⟨s1, c, rfl⟩
    · rw [h] at h2; cases h2

/-! ### States for the statements of engines, groups, packets and lines -/

/-- A copy to package 1 while this is package 0, its index bound to package 9 and bound to none. -/
theorem witness_CopiesAreScheduled_remote : ∀ valid ∈ [false, true],
    let o : Op := { Op.initial with state := .queued, form := .cpyR, asid := 7, key := 64, record := BitVec.ofNat 512 (1 * 2 ^ 416) }
    let s := (jobState.setOp 8 5 o).modFam 1 (fun e => { e with phys := 9, valid := valid })
    s.ops = [(8 * 128 + 5, o)] ∧ clusterOf 8 = 2 ∧ o.form.cls = 0 ∧ s.selectionHeld 8 = false ∧ s.job 7 = some testJob ∧ o.dest = none ∧ recFld o.record 416 12 ≠ testJob.fld 0 32 12 ∧
    (s.famOf testJob (recFld o.record 416 12)).isSome = valid := by decide +kernel
/-- A command that was to move to engine 1, which takes it and does not. -/
theorem witness_MatrixCommandsQueueAndMove_checked : ∀ on ∈ [false, true],
    let j : Job := { testJob with record := testJob.record.set 2 0x10000003 }
    let s0 := { jobState with jobs := [j] }
    let s := ((s0.setOp 8 5 { Op.initial with state := .queued, form := .mmx, inbox := true, asid := 7, key := 64, migTo := some 1, record := BitVec.ofNat 512 (mmxRecord + 9 * 2 ^ 448 + 2 ^ 504 + 2 ^ 505) }).modEngine 0
       (fun e => { e with migOut := true })).modEngine 1 (fun e => { e with migIn := on })
    (s.op 8 5).inbox = true ∧ (s.op 8 5).migTo = some 1 ∧ s.mayMove (s.op 8 5) 1 = on := by decide +kernel
/-- An MMX.A of two vectors, whose planes, scales and accumulators lie apart. -/
theorem witness_MatrixCommandsComplete_two : let s := inLane 0 .mmxA (mmxRecord + 2 ^ 480) false
    InLane s 0 0 8 5 (laneOf false) ∧ (s.op 8 5).form = .mmxA ∧ mmVecs (s.op 8 5).record = 2 ∧ (∀ v, v < 2 → s.vectorPoisoned (s.op 8 5) v = false) ∧
    ∀ v a, v < 2 → mmAcc (s.op 8 5).record ≤ a → a < mmAcc (s.op 8 5).record + 256 * 2 → a ≠ mmScl (s.op 8 5).record + v ∧
      ∀ j, j < 4 → a < mmLine (s.op 8 5).record v j ∨ mmLine (s.op 8 5).record v j + 64 ≤ a := by
  refine ⟨by unfold InLane; decide +kernel, by decide +kernel, by decide +kernel, by decide +kernel, ?_⟩
  have h1 : mmAcc ((inLane 0 .mmxA (mmxRecord + 2 ^ 480) false).op 8 5).record + 512 ≤ mmScl ((inLane 0 .mmxA (mmxRecord + 2 ^ 480) false).op 8 5).record := by decide +kernel
  have h2 : ∀ v, v < 2 → ∀ j, j < 4 → mmLine ((inLane 0 .mmxA (mmxRecord + 2 ^ 480) false).op 8 5).record v j + 64 ≤ mmAcc ((inLane 0 .mmxA (mmxRecord + 2 ^ 480) false).op 8 5).record ∨
      mmAcc ((inLane 0 .mmxA (mmxRecord + 2 ^ 480) false).op 8 5).record + 512 ≤ mmLine ((inLane 0 .mmxA (mmxRecord + 2 ^ 480) false).op 8 5).record v j := by decide +kernel
  intro v a hv ha hb
  refine ⟨by omega, fun j hj => ?_⟩
  rcases h2 v hv j hj with h | h <;> omega
/-- A PHLD and a PHRES with BANK, with BNEW clear and set. -/
theorem witness_ImagesAreLoaded_bank : ∀ bnew ∈ [false, true],
    let s := (inLane 1 .phres (9 * 2 ^ 320 + 2 ^ 356) false).modEngine 0 (fun e => { e with bnew := bnew })
    InLane s 0 1 8 5 (laneOf false) ∧ phBank (s.op 8 5).record = true ∧ (s.engine 0).bnew = bnew := by unfold InLane; decide +kernel
/-- The back bank's image alone under its tag, and with another image under it. -/
theorem witness_BanksSwapAndImagesDrop_tags :
    (let s := (inLane 0 .phswp 0 false).modEngine 0 (fun e => { e with backIx := 1, backV := true, backCopy := e.entry 1 })
     let g := s.engine 0
     InLane s 0 0 8 5 (laneOf false) ∧ ∀ k, k < 8 → (g.entry k).valid = true → (g.entry k).tag = g.backCopy.tag → (g.entry k).asid = g.backCopy.asid → k = g.backIx.toNat) ∧
    (let s := (inLane 0 .phswp 0 false).modEngine 0 (fun e => { e with backIx := 1, backV := true, backCopy := e.entry 1
                                                                       resent := e.resent ++ [(2, { Resent.initial with tag := 8, asid := 7, valid := true })] })
     let g := s.engine 0
     InLane s 0 0 8 5 (laneOf false) ∧ g.backV = true ∧ (g.entry g.backIx.toNat).asid = 7 ∧ g.backStale = false ∧ (g.entry 2).valid = true ∧ (g.entry 2).tag = g.backCopy.tag) := by
  unfold InLane; decide +kernel

/-- The two members' CREDs over sources of zeros. -/
theorem witness_CollectivesWriteTheirTable :
    let s := twoCred .running [8 * 128 + 5, 9 * 128 + 6]
    let ks := (s.group 3).running
    let live := liveRanks ks
    let o := s.keyOp (8 * 128 + 5)
    let p := s.collReads ks (collBlocks o.form (recFld o.record 424 12) live)
    ks[0]? = some (8 * 128 + 5) ∧ (∀ q ∈ ks, q < absentKey) ∧ ks.Nodup ∧ o.form.isData = true ∧ recFld o.record 384 32 = 64 ∧ recFld o.record 436 4 ≤ 4 ∧ recFld o.record 440 4 ≤ 5 ∧
    (∀ q ∈ ks, (s.keyOp q).form = o.form ∧ recFld (s.keyOp q).record 384 32 = 64 ∧ recFld (s.keyOp q).record 424 20 = recFld o.record 424 20) ∧
    (∀ m ∈ live, s.entering (ks.getD m absentKey) (s.collNamed 3) = false) ∧
    (∀ d ∈ p.2, (match d.data with | some (.ok b) => some b | _ => none) = some (List.replicate 64 0)) ∧
    ((p.1.collGive 3 live p.2 live).map (fun t => (t.keyOp (8 * 128 + 5)).status)) = some 1 ∧
    (∀ c, c < 2 * 64 → isSp (recFld o.record 320 52 + c) = true) ∧
    (∀ q ∈ ks, recFld (s.keyOp q).record 320 52 + 2 * 64 ≤ 2 ^ 52 ∧ (q ≠ 8 * 128 + 5 → recFld o.record 320 52 + 2 * 64 ≤ recFld (s.keyOp q).record 320 52)) ∧
    (∀ d ∈ p.2, ∀ c, c < 64 → isSp (recFld (s.keyOp (ks.getD d.rank absentKey)).record 256 52 + d.block * 64 + c) = true) := by
  and_intros <;> decide +kernel
/-- R324: a CRED of I32 sums wraps in each element. -/
theorem test_collective_byte : let src (m _ c : Nat) : Byte := if c % 4 = 0 then (if m = 0 then 0xFF else 3) else 0
    (collectiveByte .cred 3 0 64 0 [0, 1] src 0 0, collectiveByte .cred 3 0 64 0 [0, 1] src 0 1, collectiveByte .cgath 3 0 64 0 [0, 1] src 0 64) = (some 2, some 1, some 3) := by decide +kernel
/-- A GJOIN of core 9, and a GLEAVE of it, at a group of core 8 alone: the group idle and not. -/
def joinState (f : Form) (arr : Nat) : State :=
  (withGroup { barTwo with arr := arr } 0 [memberOf 8 (some 63)]).setOp 9 6 { Op.initial with state := .queued, form := f, unit := 3, key := 72, asid := 7 }
theorem witness_LargerGroupsJoinLeaveAndWithdraw_joins :
    (∀ f ∈ [Form.gjoin, .gleave], ∀ arr ∈ [0, 1], let s := joinState f arr
      let x := s.group 3
      s.groupQueued 3 = [9 * 128 + 6] ∧ (s.keyOp (9 * 128 + 6)).form = f ∧ x.member 9 = none ∧ s.collWaiting 3 9 = [] ∧ x.running = [] ∧
      (x.joining = [] ∧ x.binding = [] ∧ x.farWords = [] ∧ ∀ n ∈ x.members, n.leaving = false ∧ n.far = false ∧ n.issued ≤ x.sequence) ∧ s.groupIdle 3 = decide (arr = 0)) ∧
    (let s := (withGroup barTwo 0 [memberOf 8 (some 63), memberOf 9 none]).setOp 8 6 { Op.initial with state := .queued, form := .gleave, unit := 3, key := 64, asid := 7 }
     let x := s.group 3
     s.groupQueued 3 = [8 * 128 + 6] ∧ x.member 8 = some (memberOf 8 (some 63)) ∧ s.groupIdle 3 = true ∧ (s.keyOp (8 * 128 + 6)).status = 0 ∧ s.groupHere 3 8 = true ∧
      ∀ n ∈ x.members, n.leaving = false ∧ n.far = false ∧ n.issued ≤ x.sequence) := by decide +kernel
/-- Two bound members, core 8's task dead: the other's state is wanted, and is there. -/
def deadState (st : Option (Word × Bool × Nat)) : State :=
  let n := { memberOf 9 (some 0) with state := st }
  { (withGroup { barTwo with mode := .exch, arr := 2, pay := 5 } 0 [memberOf 8 (some 63), n]).setBar 9216 { barTwo with mode := .exch, arr := 2 } with
    deadTags := [{ asid := 7, tag := 3, born := 0 }] }
theorem witness_LargerGroupsJoinLeaveAndWithdraw :
    (∀ st ∈ [none, some ((7 : Word), true, 1)], let s := deadState st
      let x := s.group 3
      x.member 8 = some (memberOf 8 (some 63)) ∧ (memberOf 8 (some 63)).bar = some barK ∧ s.groupHere 3 8 = true ∧
      (x.joining = [] ∧ x.binding = [] ∧ x.farWords = [] ∧ ∀ n ∈ x.members, n.leaving = false) ∧ (s.bar barK).queue = [] ∧ (s.bar barK).expect ≠ 0 ∧
      s.deadTag (s.core 8).asid 3 = true ∧ x.running = [] ∧ (x.members.filter (fun n => !n.at 8)).map (·.state) = [st] ∧ ((x.members.filter (fun n => !n.at 8)).all (fun n => n.bound.isSome && !n.far && s.groupHere 3 n.core)) = true ∧
      (x.members.filterMap Member.bar).Nodup ∧ ((s.bar 9216).mode = .exch ∧ (s.bar 9216).queue = [] ∧ (s.bar 9216).expect ≠ 0 ∧ (s.bar 9216).op = (s.bar barK).op ∧ (s.bar 9216).holdb = 0)) ∧
    (let s := { ((withGroup barTwo 0 []).setGroup 3 { (State.reset).group 3 with members := [memberOf 8 (some 63), memberOf 9 none], running := [8 * 128 + 5, 9 * 128 + 6] }).setOp 8 5 (credOf 8 .running 0) with
        switch := some { parts := BitVec.allOnes 64, out := some 7, into := none, save := 0, born := 0 }, timeBase := 200000 }
     s.selectionHeld 8 = true ∧ (0 : Word).toNat + 200000 ≤ s.time.toNat ∧ 8 * 128 + 5 ∈ (s.group 3).running ∧ (8 * 128 + 5) < absentKey ∧
      (s.keyOp (8 * 128 + 5)).state = .running ∧ (∀ p ∈ (s.group 3).running, p / 128 = 8 → p = 8 * 128 + 5) ∧
      (s.group 3).members.filter (fun n => !n.at 8 && n.bound.isSome) = []) := by
  refine ⟨?_, by decide +kernel⟩
  intro st h
  simp only [List.mem_cons, List.not_mem_nil, or_false] at h
  rcases h with rfl | rfl <;> decide +kernel
/-- An update with one notice that fires and one that does not, a context whose wait has reached the unit and one whose wait is on its way; a notice armed when it is
satisfied. -/
theorem witness_SemaphoreUnitUpdates_fires :
    let a (thr : Word) : Armed := { sem := 15, thr := thr, core := 8, chan := 2, tag := 3, asid := 7 }
    let s0 := { (withFlight (pendOf true .unit (.g 5 false) [] 1 none) (.sem 15 (.wait 4) 7)) with armed := [a 4, a 9] }
    let s := { s0 with ctxs := s0.ctxs ++ [(65, { runningAt 0 with await := .sem 15 4 }), (66, { runningAt 0 with await := .sem 15 9 })] }
    (s.armed.filter (fun w => decide (w.sem = 15 ∧ w.thr.toNat ≤ 4))).length = 1 ∧ s.armed.length = 2 ∧ (s.ctx 65).wake = none ∧ (s.ctx 65).await = .sem 15 4 ∧
    (∀ g ∈ s.flights, g.key ≠ 65) ∧ (s.ctx 66).await = .sem 15 9 ∧ (∃ g ∈ s.flights, g.key = 64 ∧ g.op = 3 ∧ g.body = .sem 15 (.wait 4) 7) ∧ (4 : Word).toNat ≤ (4 : Word).toNat := by decide +kernel

/-- A FAMWR with FORCE while a message, an atomic and a child's arrival to the old package are unacknowledged. -/
def lostState (bs : List FabOut) : State :=
  let s0 := famState { Fam.initial with phys := 9, valid := true } 1
  (s0.modFab (fun f => { f with retry := bs.zipIdx.map (fun b => { id := 4 + b.2, phys := 9, index := 1, seq := 0, born := 0, last := 0, ordered := true, asid := 7, key := if b.2 = 2 then 8 else 64, op := 3 + b.2, body := b.1 }) }))
    |> fun s => { s.setOp 8 6 { Op.initial with state := .running, form := .cpy, key := 64, asid := 7, seq := 5 } with sched := { s.sched with nextId := 100 } }
theorem witness_MapEntriesAreWritten_lost :
    (let bs : List FabOut := [.msg (slotOf 1 2 0).msg none, .atomic 0 0 0 1 0, .barrier barX 8 false]
     let s := lostState bs
     let o := s.op 8 5
     let lost := s.fabric.retry.filter (fun r => r.ordered && r.index == 1 && r.phys == (s.fam 1).phys.toNat)
     o.form = .famwr ∧ o.state = .queued ∧ s.entryTaken 8 5 = false ∧ s.job o.asid = some testJob ∧ (s.fam (testJob.fld 11 0 12 + fabIndex o.record)).coh = false ∧
      ((o.record.extractLsb' 268 12 : BitVec 12).toNat ∈ s.fabric.pkgAllot) ∧ o.record.getLsbD 281 = true ∧ lost.length = 3 ∧ lost.all reports = true ∧
      (∀ q ∈ s.fabric.retry, q.id < s.sched.nextId) ∧ (lost.filter (fun q => q.key == 64 && q.op == 3)).length = 1 ∧
      (s.ctx 64).pend.map (fun p => (p.id, p.parts, p.reply, p.counted)) = [(3, 1, none, true)]) ∧
    (let s := lostState [.barrier barX 8 false]
     let r : Retry := { id := 4, phys := 9, index := 1, seq := 0, born := 0, last := 0, ordered := true, asid := 7, key := 64, op := 3, body := .barrier barX 8 false }
     s.fabric.retry = [r] ∧ answersContext r = false) := by decide +kernel
/-- A RUNNING attached operation of the task on a core without a member of a group; and a core that has one, with a collective that runs. -/
theorem witness_TasksAreKilled_running :
    (let s := { jobState.setOp 8 127 { opIn .running with asid := 7, task := 3 } with kills := [killOf [8]] }
     let o := s.op 8 127
     o.asid = 7 ∧ o.owner = 3 ∧ o.det = false ∧ o.state = .running ∧ o.status = 0 ∧ o.cancel = 0 ∧ ∀ g, g < 256 → (s.group g).member 8 = none) ∧
    (let s := { ((withGroup barTwo 0 []).setGroup 3 { (State.reset).group 3 with members := [memberOf 8 (some 63)], running := [8 * 128 + 5] }).setOp 8 5 (credOf 8 .running 0) with kills := [killOf [8]] }
     (s.group 3).member 8 = some (memberOf 8 (some 63)) ∧ (memberOf 8 (some 63)).task = 3 ∧ s.groupHere 3 8 = true ∧ (8 * 128 + 5) ∈ (s.group 3).running ∧ (8 * 128 + 5) < absentKey ∧
      (s.keyOp (8 * 128 + 5)).state = .running ∧ (s.keyOp (8 * 128 + 5)).form ≠ .gleave) := by decide +kernel
/-- No other member has a map entry, so that every member asked is reached; a line beyond the RAS ring. -/
theorem witness_CoherenceTransactionsEnd_reached : ∀ k ∈ [0, 1, 2, 3, 4, 5],
    let s := (withLine lastPa 3 1 0).modMem (fun m => { m with trans := [{ line := lineOf lastPa, kind := k, member := 31, born := 0 }] })
    s.reaches (s.cohEntries lastPa k 31) = true ∧ lineOf (s.dev.rasRing.toNat % 2 ^ 40) + 2 ^ s.dev.rasLen.toNat + 1 < lineOf (lastPa % 2 ^ 40) := by decide +kernel
theorem witness_PagesAreMoved_lines : let s := moveState (some (moveOf 0 7 [5]))
    s.homeHere 0x1000 = true ∧ LinesHere (moveState none) ∧ (moveState none).dramPoisoned 0x1000 = false ∧ (s.lmeta (lineOf 0x200000)).state = 0 ∧
    s.homeTrans (lineOf 0x200000) = none ∧ s.dramPoisoned 0x200000 = false ∧ (∀ l, s.homeTrans l = none) ∧ (0x200000 : Nat) % 8 = 0 :=
  ⟨by decide +kernel, lines_here _ rfl rfl, by decide +kernel, by decide +kernel, by decide +kernel, by decide +kernel, fun _ => rfl, by decide⟩
/-- A ring that was tuned to wavelength 9 a microsecond ago may still be measured for wavelength 0. -/
theorem witness_HeatIsMeasuredAndRecorded_reference : let s := { (ringState 100 Bank.initial).modRing 4095 16 (fun x => { x with tune := 9, refs := [(1000, 0)] }) with timeBase := 2000 }
    (s.ring 4095 16).lambda = 31 ∧ (s.ring 4095 16).tune = 9 ∧ (1000, 0) ∈ (s.ring 4095 16).refs ∧ s.time.toNat < (1000 : Word).toNat + 4000 := by decide +kernel

end

end Sys2Proof.Tests
end

/-!
Memory reads what was written (R3), and canonical memories that read alike are equal.
-/
section
namespace Sys2Proof.Proofs

open Sys2Proof.Machine Sys2Proof.Laws

/-! ### Bytes and cells read back (R3) -/

/-- Cells at other addresses leave a byte as it is. -/
theorem memGet_memWrite_cellsAt_outside (m : List Host.Cell) (a c : Nat) (bs : List Byte) (h : c < a ∨ a + bs.length ≤ c) :
    memGet (memWrite m (cellsAt a bs)) c = memGet m c := by
  induction bs generalizing m a with
  | nil => rfl
  | cons b bs ih =>
    simp only [List.length_cons] at h
    rw [cellsAt, memWrite, ih _ _ (by omega), memGet_memSet, if_neg (by omega)]

/-- Bytes laid at a run of addresses are the bytes read there. -/
theorem memBytes_memWrite_cellsAt (m : List Host.Cell) (a : Nat) (bs : List Byte) :
    memBytes (memWrite m (cellsAt a bs)) a bs.length = bs := by
  induction bs generalizing m a with
  | nil => rfl
  | cons b bs ih =>
    rw [cellsAt, memWrite, List.length_cons, memBytes, ih, memGet_memWrite_cellsAt_outside _ _ _ _ (by omega),
      memGet_memSet, if_pos rfl]

/-- The little-endian bytes of a number that fits are that number. -/
theorem leNat_leBytes (n x : Nat) (h : x < 2 ^ (8 * n)) : leNat (leBytes n x) = x := by
  induction n generalizing x with
  | zero => simp only [Nat.mul_zero, Nat.pow_zero, Nat.lt_one_iff] at h; rw [h]; rfl
  | succ n ih =>
    rw [Nat.mul_succ, Nat.pow_add] at h
    rw [leBytes, leNat, ih _ (by omega), BitVec.toNat_ofNat]
    omega

/-! ### Canonical memories that read alike are the same list -/

/-- An address below every listed one reads as an unlisted byte. -/
theorem memGet_of_above {m : List Host.Cell} {a : Nat} (h : Above a m) : memGet m a = unlisted := by
  induction m with
  | nil => rfl
  | cons p t ih =>
    obtain ⟨k, b⟩ := p
    have hk : a < k := h (k, b) (by simp)
    rw [memGet, if_neg (by omega), ih fun c hc => h c (by simp [hc])]

/-- In canonical memory an address that does not read as an unlisted byte is at or above the first listed one. -/
theorem head_le_of_listed {k a : Nat} {b : Byte} {m : List Host.Cell} (h : memWf ((k, b) :: m) = true)
    (ha : memGet ((k, b) :: m) a ≠ unlisted) : k ≤ a := by
  obtain ⟨-, habove, -⟩ := (memWf_cons k b m).1 h
  refine Classical.byContradiction fun hlt => ?_
  refine ha (memGet_of_above fun c hc => ?_)
  rcases List.mem_cons.1 hc with rfl | hc
  · exact Nat.lt_of_not_le hlt
  · exact Nat.lt_trans (Nat.lt_of_not_le hlt) (habove c hc)

/-- The head of canonical memory reads as itself, which no unlisted byte does. -/
theorem memGet_head {k : Nat} {b : Byte} {m : List Host.Cell} (h : memWf ((k, b) :: m) = true) :
    memGet ((k, b) :: m) k = b ∧ b ≠ unlisted :=
  ⟨by simp [memGet], ((memWf_cons k b m).1 h).1⟩

/-- Canonical memories that read alike are equal. -/
theorem eq_of_memGet_eq {m m' : List Host.Cell} (h : memWf m = true) (h' : memWf m' = true)
    (e : ∀ a, memGet m a = memGet m' a) : m = m' := by
  induction m generalizing m' with
  | nil =>
    cases m' with
    | nil => rfl
    | cons p t => exact absurd ((memGet_head h').1.symm.trans (e p.1).symm) (memGet_head h').2
  | cons p t ih =>
    obtain ⟨k, b⟩ := p
    obtain ⟨hb, hne⟩ := memGet_head h
    cases m' with
    | nil => exact absurd (hb.symm.trans (e k)) hne
    | cons p' t' =>
      obtain ⟨k', b'⟩ := p'
      obtain ⟨hb', hne'⟩ := memGet_head h'
      have hk : k = k' := Nat.le_antisymm (head_le_of_listed h (by rwa [e k', hb'])) (head_le_of_listed h' (by rwa [← e k, hb]))
      subst hk
      obtain ⟨-, above, ht⟩ := (memWf_cons k b t).1 h
      obtain ⟨-, above', ht'⟩ := (memWf_cons k b' t').1 h'
      have hbb : b = b' := by rw [← hb, e k, hb']
      have tails (a : Nat) : memGet t a = memGet t' a := by
        by_cases hak : k = a
        · subst hak; rw [memGet_of_above above, memGet_of_above above']
        · simpa [memGet, hak] using e a
      rw [hbb, ih ht ht' tails]

/-- Settles O60: bytes and words read back by induction over the bytes written; canonical lists that read alike are equal head by head. -/
theorem memoryReadsWhatWasWritten : Obligations.MemoryReadsWhatWasWritten := by
  intro m
  refine ⟨fun a b c => memGet_memSet m a c b, fun a b h => memSet_wf a b h, fun a bs => ⟨memBytes_memWrite_cellsAt m a bs, fun c h => ?_⟩,
    leNat_leBytes, fun m' h h' e => eq_of_memGet_eq h h' e⟩
  exact memGet_memWrite_cellsAt_outside m a c bs h

end Sys2Proof.Proofs
end

section
/-!
Every step keeps the memory in canonical form (R3, R170, R194). Memory changes only by cells written, cleared or kept by a test, each of
which keeps the form (Laws/Memory); what follows carries that through the shared operations, the meanings of the instructions and events,
and the choice of a step, in the order in which the model defines them. `X_wf` says of the operation `X` that it keeps the form.
-/
namespace Sys2Proof.Proofs

open Sys2Proof.Machine Sys2Proof.Laws

/-- Memory is canonical wherever an outcome goes on. -/
def LeavesWf (o : Out) : Prop := ∀ t, o = .next t → t.mem.wf = true

/-- An outcome that goes on leaves the memory of its state. -/
@[simp] theorem leavesWf_next {t : State} : LeavesWf (.next t) ↔ t.mem.wf = true := by simp [LeavesWf]
theorem leavesWf_ite {c : Prop} [Decidable c] {a b : Out} (ha : LeavesWf a) (hb : LeavesWf b) : LeavesWf (if c then a else b) := by
  split <;> assumption
theorem wf_ite {c : Prop} [Decidable c] {a b : State} (ha : a.mem.wf = true) (hb : b.mem.wf = true) :
    (if c then a else b).mem.wf = true := by
  split <;> assumption
/-- Operations one after another keep the form where each of them does. -/
theorem foldl_wf {α : Type} {f : State → α → State} (hf : ∀ s a, s.mem.wf = true → (f s a).mem.wf = true) (l : List α) {s : State}
    (h : s.mem.wf = true) : (l.foldl f s).mem.wf = true :=
  List.foldlRecOn (motive := fun t => t.mem.wf = true) l f h fun t ht a _ => hf t a ht
/-- So do operations that count as they go. -/
theorem foldl_fst_wf {α β : Type} {f : State × β → α → State × β} (hf : ∀ p a, p.1.mem.wf = true → (f p a).1.mem.wf = true)
    (l : List α) {p : State × β} (hp : p.1.mem.wf = true) : (l.foldl f p).1.mem.wf = true :=
  List.foldlRecOn (motive := fun q => q.1.mem.wf = true) l f hp fun q hq a _ => hf q a hq

section
variable {s : State} (h : s.mem.wf = true)
include h

/-- The Kamlan's own write, or nothing where it is refused, keeps the form. -/
theorem putLocal_getD_wf (a : Nat) (bytes : List Byte) : ((s.putLocal a bytes).getD s).mem.wf = true := by
  cases e : s.putLocal a bytes with
  | none => exact h
  | some t => exact putLocal_wf s t a bytes h e

/-! ### Places, messages and traps -/

theorem setG_wf (d : Reg) (x : Word) : LeavesWf (setG s d x) := leavesWf_next.2 h
theorem inject_wf (src : Nat) (m : Msg) : (s.inject src m).mem.wf = true := h
theorem injectRetiring_wf (src : Nat) (m : Msg) (r : Option (Nat × Nat)) : (s.injectRetiring src m r).mem.wf = true := h
theorem takeSerial_wf (core : Nat) : (s.takeSerial core).mem.wf = true := h
theorem launchPkt_wf (src : Nat) (tag : BitVec 16) (key op : Nat) (body : Pkt) : (s.launchPkt src tag key op body).mem.wf = true := h
theorem trapAt_wf (cause : BitVec 8) (faddr : Word) : (trapAt s cause faddr).mem.wf = true := by
  unfold trapAt
  grind [takeTrap_wf]
theorem trapNow_wf (cause : BitVec 8) : (trapNow s cause).mem.wf = true := by
  unfold trapNow
  grind [trapAt_wf]
theorem blockOn_wf (a : Await) (tok : BitVec 32) : (blockOn s a tok).mem.wf = true := by
  unfold blockOn
  grind [modMe_mem, takeTrap_wf]
theorem holdBack_wf : (holdBack s).mem.wf = true := h
theorem trapFetch_wf (pc : BitVec 52) (faulting : BitVec 52) (cause : BitVec 8) : (trapFetch s pc faulting cause).mem.wf = true := by
  unfold trapFetch
  grind [takeTrap_wf]
theorem enableChannel_wf (core c : Nat) (fromCollie : Bool) : (s.enableChannel core c fromCollie).mem.wf = true := h

/-! ### Accesses of memory -/

theorem readLine_wf {key : Nat} {bypass : Bool} {line : Nat} {t : State} {x : Except (BitVec 8) (List Byte)}
    (e : s.readLine key bypass line = some (t, x)) : t.mem.wf = true := by
  unfold State.readLine at e
  grind [translate_wf, modCore_mem, refresh_mem]
theorem readLines_wf {key : Nat} {bypass : Bool} {l : List Nat} {t : State} {x : Except (BitVec 8) (List (Nat × List Byte))}
    (e : s.readLines key bypass l = some (t, x)) : t.mem.wf = true := by
  induction l generalizing s x with
  | nil => grind [State.readLines]
  | cons a l ih =>
    unfold State.readLines at e
    grind [readLine_wf]
theorem readBytes_wf {key id : Nat} {bypass : Bool} {addrs : List Nat} {t : State} {x : Except (BitVec 8) (List Byte)}
    (e : s.readBytes key id bypass addrs = some (t, x)) : t.mem.wf = true := by
  unfold State.readBytes at e
  grind [readLines_wf]
theorem pushLoad_wf (ea : Nat) (addrs : List Nat) (dst : Dst) (acq : Nat) : (pushLoad s ea addrs dst acq).mem.wf = true := by
  unfold pushLoad
  grind [bump_mem, launchPkt_wf, setCtx_mem]
theorem settleLoads_wf {addrs : List Nat} {ps : List (Nat × Pend)} {t : State} (e : s.settleLoads addrs ps = some t) : t.mem.wf = true := by
  induction ps generalizing s with
  | nil => grind [State.settleLoads]
  | cons p ps ih =>
    unfold State.settleLoads at e
    grind [readBytes_wf, answer_mem]
theorem pushStore_wf (ea : Nat) (cells : List Host.Cell) : (pushStore s ea cells).mem.wf = true := by
  unfold pushStore
  grind [bump_mem, foldl_wf, launchPkt_wf, modCore_mem, setCtx_mem]
theorem issueLoad_wf (ea z swz : Nat) (vector : Bool) (dst : Dst) (acq : Nat) : LeavesWf (issueLoad s ea z swz vector dst acq) := by
  unfold issueLoad
  grind [blockOn_wf, leavesWf_next, pushLoad_wf, retire_mem, trapAt_wf]
theorem storeCells_wf (ea : Nat) (cells : List Host.Cell) {done : State → State}
    (hd : ∀ t : State, t.mem.wf = true → (done t).mem.wf = true) : LeavesWf (storeCells s ea cells done) := by
  unfold storeCells
  grind [blockOn_wf, holdBack_wf, settleLoads_wf, pushStore_wf, leavesWf_next]
theorem issueStore_wf (ea swz : Nat) (vector : Bool) (data : List Byte) : LeavesWf (issueStore s ea swz vector data) := by
  unfold issueStore
  grind [leavesWf_next, retire_mem, storeCells_wf, trapAt_wf]
theorem readNow_wf (blocking : Bool) (addrs : List Nat) {k : State → List Byte → Out}
    (hk : ∀ (t : State) (b : List Byte), t.mem.wf = true → LeavesWf (k t b)) : LeavesWf (readNow s blocking addrs k) := by
  unfold readNow
  grind [blockOn_wf, holdBack_wf, trapAt_wf, readBytes_wf, leavesWf_next]
theorem answerAll_wf (who : List (Nat × Nat)) (r : Nat → Nat → Reply) : (s.answerAll who r).mem.wf = true := by
  unfold State.answerAll
  grind [answer_mem, foldl_wf]
theorem drainEntry_wf (core : Nat) (e : SbEntry) : (s.drainEntry core e).mem.wf = true := by
  unfold State.drainEntry
  grind [Mem.wf, answerAll_wf, bump_mem, modCore_mem, modMem_mem, translate_wf]
theorem drainWhere_wf (core : Nat) (f : SbEntry → Bool) : (s.drainWhere core f).mem.wf = true := by
  unfold State.drainWhere
  grind [drainEntry_wf, foldl_wf]
theorem accept_wf (e : L2Store) : (s.accept e).mem.wf = true := by
  unfold State.accept
  grind [Mem.wf, answerAll_wf, modMem_mem, writePa_wf]

/-! ### Branches, frames and waits -/

theorem checkSlots_wf : (checkSlots s).1.mem.wf = true := by
  unfold checkSlots
  grind [fetch_wf]
theorem checkSlots_trap_wf {t : State} (e : (checkSlots s).2 = some t) : t.mem.wf = true := by
  unfold checkSlots at e
  grind [fetch_wf, trapFetch_wf, trapNow_wf]
theorem transfer_wf (take : Bool) (dest : BitVec 52) (link : Option Reg) : LeavesWf (transfer s take dest link) := leavesWf_next.2 h
theorem branch_wf (take : Bool) (disp : BitVec 52) : LeavesWf (branch take disp s) := by
  unfold branch
  grind [checkSlots_trap_wf, checkSlots_wf, leavesWf_next, transfer_wf]
theorem jump_wf (disp : BitVec 52) (link : Option Reg) : LeavesWf (jump disp link s) := by
  unfold jump
  grind [checkSlots_trap_wf, checkSlots_wf, leavesWf_next, transfer_wf]
theorem jumpReg_wf (a : Reg) (link : Option Reg) : LeavesWf (jumpReg a link s) := by
  unfold jumpReg
  grind [checkSlots_trap_wf, checkSlots_wf, leavesWf_next, transfer_wf, trapAt_wf]
theorem fetchFrame_wf (p : BitVec 52) (n : Nat) (acc : List IWord) : (fetchFrame s p n acc).1.mem.wf = true := by
  induction n generalizing s p acc with
  | zero => exact h
  | succ n ih =>
    unfold fetchFrame
    grind [fetch_wf]
theorem fetchFrame_trap_wf {p : BitVec 52} {n : Nat} {acc : List IWord} {t : State} (e : (fetchFrame s p n acc).2 = .error t) :
    t.mem.wf = true := by
  induction n generalizing s p acc with
  | zero => cases e
  | succ n ih =>
    unfold fetchFrame at e
    grind [fetch_wf, trapFetch_wf]
theorem captureFrame_wf {n : Nat} {t : State} {x : List IWord} (e : captureFrame s n = .ok (t, x)) : t.mem.wf = true := by
  unfold captureFrame at e
  grind [fetchFrame_wf]
theorem captureFrame_trap_wf {n : Nat} {t : State} (e : captureFrame s n = .error t) : t.mem.wf = true := by
  unfold captureFrame at e
  grind [fetchFrame_wf, fetchFrame_trap_wf, takeTrap_wf]
theorem execRpt_wf (n : BitVec 4) (c : BitVec 8) (d a b : Fld3) : LeavesWf (execRpt n c d a b s) := by
  unfold execRpt
  grind [captureFrame_trap_wf, captureFrame_wf, leavesWf_next, modMe_mem]
theorem execWaitc_wf (l st c t : BitVec 6) : LeavesWf (execWaitc l st c t s) := by
  unfold execWaitc
  grind [blockOn_wf, leavesWf_next, retire_mem]

/-! ### What a context comes to issue -/

theorem nextInstr_wf (key : Nat) : (nextInstr s key).1.mem.wf = true := by
  unfold nextInstr
  grind [fetch_wf, modCtx_mem, setCtx_mem]
theorem atContext_wf (k : Nat) : (atContext s k).mem.wf = true := h
omit h in
@[simp] theorem stillWaits_mem (s s2 : State) (k : Nat) : (stillWaits s s2 k).mem = s2.mem := rfl
theorem tick_wf (n : Nat) : (tick s n).mem.wf = true := h

/-! ### Traps that come due -/

theorem execTrap_wf (c : BitVec 12) : LeavesWf (execTrap c s) := by
  unfold execTrap
  grind [leavesWf_next, takeTrap_wf]
theorem atKey_wf (key : Nat) : (atKey s key).mem.wf = true := h
theorem execIllegalInstruction_wf (key : Nat) : LeavesWf (execIllegalInstruction key s) := by
  unfold execIllegalInstruction
  grind [atKey_wf, captureFrame_trap_wf, captureFrame_wf, checkSlots_trap_wf, checkSlots_wf, leavesWf_next, trapNow_wf]
theorem execInstructionFetchFault_wf (key : Nat) : LeavesWf (execInstructionFetchFault key s) := by
  unfold execInstructionFetchFault
  grind [atKey_wf, fetch_wf, leavesWf_next, trapFetch_wf]
theorem execBudgetExpiry_wf (key : Nat) : LeavesWf (execBudgetExpiry key s) := by
  unfold execBudgetExpiry
  grind [leavesWf_next, takeTrap_wf]
theorem execWaittimeExpiry_wf (key : Nat) : LeavesWf (execWaittimeExpiry key s) := by
  unfold execWaittimeExpiry
  grind [leavesWf_next, takeTrap_wf]
theorem execDeferredFault_wf (key : Nat) : LeavesWf (execDeferredFault key s) := by
  unfold execDeferredFault
  grind [leavesWf_next, takeTrap_wf]
theorem drained_wf (key : Nat) : (drained s key).mem.wf = true := h
theorem execLateStoreFault_wf (key id : Nat) : LeavesWf (execLateStoreFault key id s) := by
  unfold execLateStoreFault
  grind [drained_wf, leavesWf_next, modCtx_mem, reportTrap_wf]

/-! ### Memory instructions and the ends of their accesses -/

theorem loadG_wf (t b : Reg) (sw : Fld3) (off : BitVec 52) (z : Nat) (signed : Bool) : LeavesWf (loadG t b sw off z signed s) := by
  unfold loadG
  grind [issueLoad_wf]
theorem storeG_wf (t b : Reg) (sw : Fld3) (off : BitVec 52) (z : Nat) : LeavesWf (storeG t b sw off z s) := by
  unfold storeG
  grind [issueStore_wf]
theorem loadV_wf (t b : Reg) (sw : Fld3) (off : BitVec 52) : LeavesWf (loadV t b sw off s) := by
  unfold loadV
  grind [issueLoad_wf]
theorem storeV_wf (t b : Reg) (sw : Fld3) (off : BitVec 52) : LeavesWf (storeV t b sw off s) := by
  unfold storeV
  grind [issueStore_wf]
theorem released_wf (sc : Nat) {k : State → Out} (hk : ∀ t : State, t.mem.wf = true → LeavesWf (k t)) : LeavesWf (released sc s k) := by
  unfold released
  grind [blockOn_wf, drainWhere_wf, leavesWf_next]
theorem execStRel_wf (a b : Reg) (sc z : BitVec 2) : LeavesWf (execStRel a b sc z s) := by
  unfold execStRel
  grind [leavesWf_next, released_wf, retire_mem, storeCells_wf, trapAt_wf]
theorem execFence_wf (sc : BitVec 2) (k : BitVec 4) : LeavesWf (execFence sc k s) := by
  unfold execFence
  grind [blockOn_wf, leavesWf_next, modCore_mem, retire_mem]
theorem execVldf_wf (v a : Reg) (m : Fld3) : LeavesWf (execVldf v a m s) := by
  unfold execVldf
  grind [blockOn_wf, leavesWf_next, pushLoad_wf, retireWith_mem, trapAt_wf]
theorem execVstf_wf (v a : Reg) (m : Fld3) : LeavesWf (execVstf v a m s) := by
  have trap (c : BitVec 8) (w : Word) : LeavesWf (.next (trapAt s c w)) := leavesWf_next.2 (trapAt_wf h c w)
  unfold execVstf
  extract_lets p core kind ea e
  refine leavesWf_ite (trap _ _) <| leavesWf_ite (leavesWf_next.2 (trapNow_wf h _)) <| leavesWf_ite (trap _ _) ?_
  extract_lets
  split
  · exact trap _ _
  · refine leavesWf_ite (trap _ _) ?_
    split
    · exact trap _ _
    · exact leavesWf_ite (storeCells_wf h _ _ fun _ ht => ht) (readNow_wf h _ _ fun t b ht => storeCells_wf ht _ _ fun _ hu => hu)
theorem dropHint_wf : (dropHint s).mem.wf = true := h
theorem hintLine_wf (va : Nat) : (hintLine s va).1.mem.wf = true := by
  unfold hintLine
  grind [translate_wf]
theorem execPref_wf (a : Reg) (l : BitVec 2) : LeavesWf (execPref a l s) := by
  unfold execPref
  grind [dropHint_wf, hintLine_wf, leavesWf_next, readLine_wf, refresh_mem, retire_mem]
theorem pinLine_wf (pin : Bool) (level va : Nat) : (pinLine s pin level va).1.mem.wf = true := by
  unfold pinLine
  grind [Mem.wf, hintLine_wf, modCore_mem, modMem_mem]
theorem pinLines_wf (pin : Bool) (level n va : Nat) (bad : Bool) : (pinLines pin level n va s bad).1.mem.wf = true := by
  induction n generalizing s va bad with
  | zero => exact h
  | succ n ih => exact ih (pinLine_wf h pin level va) _ _
theorem prefRes_wf (pin : Bool) (a b : Reg) (l : BitVec 2) : LeavesWf (prefRes pin a b l s) := by
  unfold prefRes
  grind [dropHint_wf, hintLine_wf, leavesWf_next, pinLines_wf, refresh_mem, retire_mem]
theorem execL1inv_wf (a b : Reg) : LeavesWf (execL1inv a b s) := leavesWf_next.2 h
theorem execL1wb_wf (a b : Reg) : LeavesWf (execL1wb a b s) := by
  unfold execL1wb
  grind [drainWhere_wf, leavesWf_next, retire_mem]
theorem readPend_wf (key : Nat) (p : Pend) : (s.readPend key p).mem.wf = true := by
  unfold State.readPend
  grind [answer_mem, readBytes_wf]
theorem loadReply_wf (key id : Nat) : LeavesWf (loadReply key id s) := by
  unfold loadReply
  grind [leavesWf_next, modCore_mem, readPend_wf, setCtx_mem]
theorem storePend_wf (key : Nat) (p : Pend) : (s.storePend key p).mem.wf = true := by
  unfold State.storePend
  grind [answer_mem, modMem_mem, setCtx_mem, writeSp_wf]
theorem execStoreAck_wf (key id : Nat) : LeavesWf (execStoreAck key id s) := by
  unfold execStoreAck
  grind [drained_wf, leavesWf_next, setCtx_mem, storePend_wf]
theorem dropFlight_wf (id : Nat) : (s.dropFlight id).mem.wf = true := h
theorem execRemoteLoad_wf (id : Nat) : LeavesWf (execRemoteLoad id s) := by
  unfold execRemoteLoad
  grind [answer_mem, dropFlight_wf, leavesWf_next, refresh_mem]
theorem execRemoteStore_wf (id : Nat) : LeavesWf (execRemoteStore id s) := by
  unfold execRemoteStore
  grind [answer_mem, dropFlight_wf, leavesWf_next, modMem_mem, refresh_mem, writeSp_wf]
theorem execStoreBufferDrain_wf (core n : Nat) : LeavesWf (execStoreBufferDrain core n s) := by
  unfold execStoreBufferDrain
  grind [drainEntry_wf, leavesWf_next]
theorem execL2StoreAccept_wf (id : Nat) : LeavesWf (execL2StoreAccept id s) := by
  unfold execL2StoreAccept
  grind [accept_wf, leavesWf_next]
theorem execTranslationWalk_wf (cluster : Nat) (asid : BitVec 16) (va : BitVec 52) : LeavesWf (execTranslationWalk cluster asid va s) := by
  unfold execTranslationWalk
  grind [Mem.tlbAdd, Mem.wf, leavesWf_next, modMem_mem, readyWalk_wf, refresh_mem]
theorem storeDue_wf (key : Nat) (p : Pend) : (s.storeDue key p).mem.wf = true := by
  unfold State.storeDue
  grind [foldl_wf, readPend_wf, storePend_wf]
theorem storesSettle_wf (at_ : Nat) : (s.storesSettle at_).mem.wf = true := by
  unfold State.storesSettle
  grind [drainWhere_wf, foldl_wf, storeDue_wf]
theorem clearRegion_wf (core n : Nat) : (s.clearRegion core n).mem.wf = true := by
  unfold State.clearRegion
  grind [Mem.wf, memClear_wf, modMem_mem, setRegion_mem]
theorem execRegionReclaim_wf (core n : Nat) : LeavesWf (execRegionReclaim core n s) := by
  unfold execRegionReclaim
  grind [clearRegion_wf, leavesWf_next, setRegion_mem]

/-! ### Held packets and folded records -/

theorem releaseHeld_wf (entry : Nat) : (s.releaseHeld entry).mem.wf = true := by
  unfold State.releaseHeld
  grind [fabSend_mem, foldl_wf, modFab_mem]
theorem foldReport_wf (f : Fold) : (s.foldReport f).mem.wf = true := by
  unfold State.foldReport
  grind [rasReport_wf]
theorem closeFolds_wf (source unit : Nat) : (s.closeFolds source unit).mem.wf = true := by
  unfold State.closeFolds
  grind [foldReport_wf, foldl_wf, modDev_mem]
theorem rasCorrected_wf (r : RasInfo) : (s.rasCorrected r).mem.wf = true := by
  unfold State.rasCorrected
  grind [closeFolds_wf, modDev_mem, rasReport_wf]

/-! ### Atomics -/

theorem pushAtomic_wf (op z : Nat) (d : Reg) (ret : Bool) (p x c : Word) (ea : Nat) (addrs : List Nat) :
    (pushAtomic s op z d ret p x c ea addrs).mem.wf = true := by
  unfold pushAtomic
  grind [answer_mem, bump_mem, inject_wf, launchPkt_wf, setCtx_mem, takeSerial_wf]
theorem atomOp_wf (op : Nat) (d a b : Reg) (z : BitVec 2) (ret : Bool) : LeavesWf (atomOp op d a b z ret s) := by
  unfold atomOp
  grind [blockOn_wf, drainWhere_wf, holdBack_wf, leavesWf_next, modCore_mem, pushAtomic_wf, retire_mem, settleLoads_wf, trapAt_wf]
theorem freeSlot_wf (core id : Nat) : (s.freeSlot core id).mem.wf = true := h
theorem orAflags_wf (core : Nat) (f : BitVec 5) : (s.orAflags core f).mem.wf = true := h
theorem spAtomic_wf (core : Nat) (x : Slot) : (spAtomic s core x).mem.wf = true := by
  unfold spAtomic
  grind [answer_mem, freeSlot_wf, modMem_mem, orAflags_wf, writeSp_wf]
theorem dramAtomic_wf (f : Flight) (op z ea : Nat) (x c : Word) (asid : BitVec 16) (svc : Bool) :
    (dramAtomic s f op z ea x c asid svc).mem.wf = true := by
  unfold dramAtomic
  grind [answer_mem, dropFlight_wf, fabSend_mem, modMem_mem, translate_wf, writeDram_wf]
theorem execBuiltinAtomic_wf (id : Nat) : LeavesWf (execBuiltinAtomic id s) := by
  unfold execBuiltinAtomic
  grind [answer_mem, dramAtomic_wf, dropFlight_wf, inject_wf, leavesWf_next, refresh_mem, spAtomic_wf]
theorem execAtomicReply_wf (key id : Nat) : LeavesWf (execAtomicReply key id s) := by
  unfold execAtomicReply
  grind [drained_wf, leavesWf_next, orAflags_wf, setCtx_mem]

/-! ### Messages, channels and activations -/

theorem sendBad_wf (core : Nat) : LeavesWf (sendBad s core) := by
  unfold sendBad
  grind [leavesWf_next, trapAt_wf]
theorem chanBadAt_wf (c : Nat) : LeavesWf (chanBadAt s c) := by
  unfold chanBadAt
  grind [leavesWf_next, trapAt_wf]
theorem pushSend_wf (counted : Bool) (parts : Nat) : (pushSend s counted parts).1.mem.wf = true := h
theorem sendNow_wf (m : Msg) : (sendNow s m).mem.wf = true := h
theorem sendOp_wf (delayed : Bool) : LeavesWf (sendOp delayed s) := by
  unfold sendOp
  grind [blockOn_wf, chanBadAt_wf, inject_wf, leavesWf_next, retireWith_mem, retire_mem, sendBad_wf, sendNow_wf, takeSerial_wf]
theorem execStart_wf (a b : Reg) : LeavesWf (execStart a b s) := by
  unfold execStart
  grind [blockOn_wf, chanBadAt_wf, leavesWf_next, retire_mem, sendBad_wf, sendNow_wf, takeSerial_wf, trapAt_wf]
theorem spawnOne_wf (j : Job) (place : UnitPlace) (w0 : Nat → Word) (rest : List Word) (newTask : Bool) (key id : Nat) :
    (spawnOne s j place w0 rest newTask key id).mem.wf = true := by
  unfold spawnOne
  grind [answer_mem, fabSend_mem, inject_wf]
theorem spawnAll_wf (j : Job) (core ch : Nat) (tag : BitVec 16) (entry arg parent : Word) (newTask : Bool) (key id i : Nat)
    (us : List UnitPlace) : (spawnAll s j core ch tag entry arg parent newTask key id i us).mem.wf = true := by
  induction us generalizing s i with
  | nil => exact h
  | cons u us ih => exact ih (spawnOne_wf (takeSerial_wf h core) ..) _
theorem execSpawn_wf (a b : Reg) : LeavesWf (execSpawn a b s) := by
  unfold execSpawn
  grind [blockOn_wf, chanBadAt_wf, leavesWf_next, pushSend_wf, retire_mem, sendBad_wf, spawnAll_wf]
theorem injectAll_wf (core : Nat) (ms : List Msg) : (injectAll s core ms).mem.wf = true := by
  induction ms generalizing s with
  | nil => exact h
  | cons m ms ih => exact ih (inject_wf h core m)
theorem handlerReply_wf (key : Nat) : (s.handlerReply key).mem.wf = true := by
  unfold State.handlerReply
  grind [answer_mem, orAflags_wf]
theorem freeMySlot_wf (key : Nat) : (s.freeMySlot key).mem.wf = true := by
  unfold State.freeMySlot
  grind [freeSlot_wf]
theorem freeCtx_wf (key : Nat) : (s.freeCtx key).mem.wf = true := h
theorem execEndAct_wf : LeavesWf (execEndAct s) := by
  unfold execEndAct
  grind [freeCtx_wf, freeMySlot_wf, handlerReply_wf, holdBack_wf, injectAll_wf, leavesWf_next]
theorem execYield_wf : LeavesWf (execYield s) := by
  unfold execYield
  grind [freeCtx_wf, holdBack_wf, injectAll_wf, leavesWf_next, modCore_mem]
theorem execMigr_wf (a : Reg) : LeavesWf (execMigr a s) := by
  unfold execMigr
  grind [freeCtx_wf, freeMySlot_wf, holdBack_wf, injectAll_wf, inject_wf, leavesWf_next, modCore_mem, takeSerial_wf, trapAt_wf]
theorem execAlign_wf : LeavesWf (execAlign s) := by
  unfold execAlign
  grind [holdBack_wf, leavesWf_next, retire_mem]
theorem execAlignRelease_wf (key : Nat) : LeavesWf (execAlignRelease key s) := by
  unfold execAlignRelease
  grind [leavesWf_next, modCtx_mem]
theorem chanAct_wf (core c act : Nat) (prio : BitVec 2) (fromCollie : Bool) : (s.chanAct core c act prio fromCollie).mem.wf = true := by
  unfold State.chanAct
  grind [enableChannel_wf, modChan_mem]
theorem chanOp_wf (act : Nat) (x : Word) (prio : BitVec 2) : LeavesWf (chanOp act x prio s) := by
  unfold chanOp
  grind [chanAct_wf, chanBadAt_wf, launchPkt_wf, leavesWf_next, retire_mem, sendBad_wf]
theorem savedChanAct_wf (core c act : Nat) (prio : BitVec 2) (asid : BitVec 16) : (s.savedChanAct core c act prio asid).mem.wf = true := h
theorem execChannelControlPacket_wf (id : Nat) : LeavesWf (execChannelControlPacket id s) := by
  unfold execChannelControlPacket
  grind [chanAct_wf, dropFlight_wf, leavesWf_next, savedChanAct_wf]
theorem execRalloc_wf (d a b : Reg) : LeavesWf (execRalloc d a b s) := by
  unfold execRalloc
  grind [holdBack_wf, leavesWf_next, setG_wf, setRegion_mem, trapAt_wf]
theorem execRfree_wf (a : Reg) : LeavesWf (execRfree a s) := by
  unfold execRfree
  grind [holdBack_wf, leavesWf_next, retire_mem, setRegion_mem, trapAt_wf]
theorem contStarted_wf (core : Nat) (m : Msg) (act : Nat) : (s.contStarted core m act).mem.wf = true := h
theorem activate_wf (key : Nat) (x : Slot) (pc : BitVec 52) : (s.activate key x pc).mem.wf = true := by
  unfold State.activate
  grind [bump_mem, contStarted_wf, modCore_mem, setCtx_mem]
theorem execChannelSelection_wf (core : Nat) : LeavesWf (execChannelSelection core s) := by
  unfold execChannelSelection
  grind [activate_wf, leavesWf_next, modChan_mem, modCore_mem]
theorem execSpillActivation_wf (core : Nat) : LeavesWf (execSpillActivation core s) := by
  unfold execSpillActivation
  grind [bump_mem, leavesWf_next, modCore_mem, setCtx_mem]
theorem execReplayActivation_wf (core : Nat) : LeavesWf (execReplayActivation core s) := by
  unfold execReplayActivation
  grind [bump_mem, leavesWf_next, setCtx_mem]
theorem execAtomicHandlerActivation_wf (core : Nat) : LeavesWf (execAtomicHandlerActivation core s) := by
  unfold execAtomicHandlerActivation
  grind [activate_wf, leavesWf_next, modCtx_mem]
theorem overflow_wf (core : Nat) : (s.overflow core).mem.wf = true := by
  unfold State.overflow
  grind [modChan_mem]
theorem retireSlot_wf (k gen : Nat) (asid : BitVec 16) : (s.retireSlot k gen asid).mem.wf = true := by
  unfold State.retireSlot
  grind [setOp_mem]
theorem settleMail_wf (m : Mail) (r : Reply) : (s.settleMail m r).mem.wf = true := by
  unfold State.settleMail
  grind [answer_mem, retireSlot_wf]
theorem file_wf (core : Nat) (m : Msg) : (s.file core m).mem.wf = true := h
theorem fileSaved_wf (core : Nat) (m : Msg) : (s.fileSaved core m).mem.wf = true := h
theorem execMessageArrival_wf (id : Nat) : LeavesWf (execMessageArrival id s) := by
  unfold execMessageArrival
  grind [fileSaved_wf, file_wf, leavesWf_next, modCore_mem, overflow_wf, refresh_mem, settleMail_wf]
theorem forward_wf (core : Nat) (f : Fwd) (ps : List Pend) : (s.forward core f ps).mem.wf = true := by
  unfold State.forward
  grind [modCore_mem, modCtx_mem]
theorem forwardReply_wf (core id : Nat) (f : Fwd) (p : Pend) : (forwardReply s core id f p).mem.wf = true := by
  unfold forwardReply
  grind [forward_wf, modCore_mem, readPend_wf]
theorem execLoadReply_wf (key id : Nat) : LeavesWf (execLoadReply key id s) := by
  unfold execLoadReply
  grind [forwardReply_wf, leavesWf_next, loadReply_wf]
theorem forwardExpired_wf (core : Nat) (f : Fwd) : (s.forwardExpired core f).mem.wf = true := by
  unfold State.forwardExpired
  grind [forward_wf, modCore_mem]
theorem execForwardingEntryExpiry_wf (core n : Nat) : LeavesWf (execForwardingEntryExpiry core n s) := by
  unfold execForwardingEntryExpiry
  grind [forwardExpired_wf, leavesWf_next]
theorem settleDue_wf (at_ : Nat) : (s.settleDue at_).mem.wf = true := by
  unfold State.settleDue
  grind [foldl_wf, forwardExpired_wf, storesSettle_wf]
theorem passTime_wf (n : Nat) : (passTime s n).mem.wf = true := by
  unfold passTime
  grind [settleDue_wf, tick_wf]

/-! ### Token slots -/

theorem checkMove_wf (k : Nat) : (s.checkMove k).mem.wf = true := h
theorem checkMoves_wf (before : State) : (s.checkMoves before).mem.wf = true := by
  unfold State.checkMoves
  grind [checkMove_wf, foldl_wf]
theorem hintDropped_wf (core : Nat) : (s.hintDropped core).mem.wf = true := h
theorem jobWrite32_wf (core : Nat) (asid : BitVec 16) (svc : Bool) (va : Nat) (bytes : List Byte) :
    (s.jobWrite32 core asid svc va bytes).1.mem.wf = true := by
  unfold State.jobWrite32
  grind [jobCells_wf, modMem_mem, writePa_wf, writeSp_wf]
theorem recordOut_wf (core slot : Nat) : (s.recordOut core slot).mem.wf = true := by
  unfold State.recordOut
  grind [hintDropped_wf, jobWrite32_wf]
theorem countBytes_wf (core : Nat) (o : Op) (n : Nat) (err : Bool) : (s.countBytes core o n err).mem.wf = true := by
  unfold State.countBytes
  grind [fabSend_mem, launchPkt_wf]
theorem notifyPkg_wf (core pkg dest chan : Nat) (tag asid : BitVec 16) (ws : List Word) (r : Option (Nat × Nat)) :
    (s.notifyPkg core pkg dest chan tag asid ws r).mem.wf = true := by
  unfold State.notifyPkg
  grind [fabSend_mem, injectRetiring_wf, notifyFrom_mem, takeSerial_wf]
theorem opNotice_wf (core slot : Nat) : (s.opNotice core slot).mem.wf = true := by
  unfold State.opNotice
  grind [notifyFrom_mem, notifyPkg_wf]
theorem wakeWaiters_wf (core slot : Nat) : (s.wakeWaiters core slot).mem.wf = true := by
  unfold State.wakeWaiters
  grind [foldl_wf, modCtx_mem]
theorem lowerCounter_wf (o : Op) : (s.lowerCounter o).mem.wf = true := h
theorem leaveLanes_wf (core slot : Nat) : (s.leaveLanes core slot).mem.wf = true := h
theorem queueOp_wf (core slot : Nat) (o : Op) : (s.queueOp core slot o).mem.wf = true := h
theorem endOp_wf (core slot : Nat) (st : TokState) (status cause : BitVec 8) (word2 : Word) :
    (s.endOp core slot st status cause word2).mem.wf = true := by
  unfold State.endOp
  grind [checkMoves_wf, countBytes_wf, leaveLanes_wf, lowerCounter_wf, modCore_mem, opNotice_wf, recordOut_wf, setOp_mem, wakeWaiters_wf]
theorem releaseDependents_wf (core n : Nat) : (s.releaseDependents core n).mem.wf = true := by
  induction n generalizing s with
  | zero => exact h
  | succ n ih =>
    unfold State.releaseDependents
    grind [queueOp_wf, endOp_wf]
theorem retireOp_wf (core slot : Nat) : (s.retireOp core slot).mem.wf = true := h
theorem retireKilled_wf (core : Nat) : (s.retireKilled core).mem.wf = true := by
  unfold State.retireKilled
  grind [foldl_wf, retireOp_wf]
theorem finishOp_wf (core slot : Nat) (st : TokState) (status cause : BitVec 8) (word2 : Word) :
    (s.finishOp core slot st status cause word2).mem.wf = true := by
  unfold State.finishOp
  grind [endOp_wf, releaseDependents_wf, retireKilled_wf]
theorem suspendOp_wf (core slot : Nat) (cause : BitVec 8) (word2 : Word) : (s.suspendOp core slot cause word2).mem.wf = true := by
  unfold State.suspendOp
  grind [leaveLanes_wf, modOp_mem, opNotice_wf, recordOut_wf]
theorem decideOp_wf (core slot : Nat) (status cause : BitVec 8) (word2 : Word) : (s.decideOp core slot status cause word2).mem.wf = true := h
theorem cancelOp_wf (core slot : Nat) (cause : BitVec 8) : (s.cancelOp core slot cause).mem.wf = true := by
  unfold State.cancelOp
  grind [finishOp_wf, modOp_mem]
theorem trapToken_wf (t : Word) : LeavesWf (trapToken s t) := by
  unfold trapToken
  grind [leavesWf_next, takeTrap_wf]
theorem createOp_wf (r : FormRules) (d : Reg) (det : Bool) (pri : Nat) (ntf bar : Bool) (rec' : BitVec 512) (after : Word)
    (ranges : List (Nat × Nat)) (slot : Nat) :
    LeavesWf (createOp r d det pri ntf bar rec' after ranges slot s) := by
  unfold createOp
  grind [bump_mem, finishOp_wf, leavesWf_next, modCore_mem, retireWith_mem, setOp_mem]
theorem issueOp_wf (r : FormRules) (d a b : Reg) (x : BitVec 1) (p : BitVec 2) (n k : BitVec 1) : LeavesWf (issueOp r d a b x p n k s) := by
  refine leavesWf_ite (leavesWf_next.2 (trapAt_wf h _ _)) (readNow_wf h _ _ fun t bs ht => ?_)
  have trap (c : BitVec 8) (w : Word) : LeavesWf (.next (trapAt t c w)) := leavesWf_next.2 (trapAt_wf ht c w)
  have block : LeavesWf (.next (blockOn t .nothing 0)) := leavesWf_next.2 (blockOn_wf ht _ _)
  refine leavesWf_ite (trap _ _) <| leavesWf_ite (trapToken_wf ht _) <| leavesWf_ite (trap _ _) <| leavesWf_ite (chanBadAt_wf ht _) <|
    leavesWf_ite (sendBad_wf ht _) ?_
  split
  · exact trap _ _
  · extract_lets full
    split
    · exact block
    · exact leavesWf_ite block (createOp_wf ht _ _ _ _ _ _ _ _ _ _)
theorem acquire_wf (core : Nat) : (s.acquire core).mem.wf = true := h
theorem giveStatus_wf (d : Reg) (slot : Nat) (retires : Bool) : LeavesWf (giveStatus s d slot retires) := by
  unfold giveStatus
  grind [acquire_wf, retireOp_wf, setG_wf]
theorem statusOp_wf (d a : Reg) (waits retires : Bool) : LeavesWf (statusOp s d a waits retires) := by
  unfold statusOp
  grind [acquire_wf, blockOn_wf, giveStatus_wf, leavesWf_next, retireOp_wf, setG_wf, trapToken_wf]
theorem execTwait_wf (d a : Reg) : LeavesWf (execTwait d a s) := statusOp_wf h _ _ _ _
theorem execTstat_wf (d a : Reg) : LeavesWf (execTstat d a s) := statusOp_wf h _ _ _ _
theorem execTstatR_wf (d a : Reg) : LeavesWf (execTstatR d a s) := statusOp_wf h _ _ _ _
theorem onToken_wf (a : Reg) {f : State → Nat → State} (hf : ∀ (t : State) (n : Nat), t.mem.wf = true → (f t n).mem.wf = true) :
    LeavesWf (onToken s a f) := by
  unfold onToken
  grind [trapToken_wf, retire_mem, leavesWf_next]
theorem execTcancel_wf (a : Reg) : LeavesWf (execTcancel a s) := by
  unfold execTcancel
  grind [cancelOp_wf, leavesWf_next, onToken_wf]
theorem execTresume_wf (a : Reg) : LeavesWf (execTresume a s) := by
  unfold execTresume
  grind [leavesWf_next, onToken_wf, queueOp_wf]
theorem execTdet_wf (a : Reg) : LeavesWf (execTdet a s) := by
  unfold execTdet
  grind [leavesWf_next, lowerCounter_wf, onToken_wf, setOp_mem]
theorem execTrec_wf (a b : Reg) : LeavesWf (execTrec a b s) := by
  unfold execTrec
  grind [issueStore_wf, leavesWf_next, trapAt_wf, trapToken_wf]
theorem execTfence_wf (c : BitVec 4) : LeavesWf (execTfence c s) := by
  unfold execTfence
  grind [acquire_wf, blockOn_wf, leavesWf_next, retire_mem]
theorem execOpTerminal_wf (core slot : Nat) : LeavesWf (execOpTerminal core slot s) := by
  unfold execOpTerminal
  grind [finishOp_wf, leavesWf_next]

/-! ### Copies -/

theorem pages_wf (cluster : Nat) (asid : BitVec 16) (svc : Bool) (need : Need) (l : List Nat) :
    (s.pages cluster asid svc need l).1.mem.wf = true := by
  induction l generalizing s with
  | nil => exact h
  | cons p l ih => exact ih (translate_wf s cluster asid (p * 65536) need svc h)
theorem placeWrite_wf {asid : BitVec 16} {svc : Bool} {cells : List Host.Cell} {t : State} (e : s.placeWrite asid svc cells = some (.ok t)) :
    t.mem.wf = true := by
  unfold State.placeWrite at e
  grind [writePa_wf, modMem_mem, writeSp_wf]
theorem copySettled_wf (core slot : Nat) : (s.copySettled core slot).mem.wf = true := by
  unfold State.copySettled
  grind [setOp_mem, suspendOp_wf]
theorem dropBeats_wf (core slot : Nat) : (s.dropBeats core slot).mem.wf = true := by
  unfold State.dropBeats
  grind [countBytes_wf, foldl_wf, modOp_mem, placeWrite_wf, refreshBy_mem]
theorem takeChunk_wf (core slot : Nat) (o : Op) (p : Plan) : (s.takeChunk core slot o p).mem.wf = true := by
  unfold State.takeChunk
  grind [copySettled_wf, decideOp_wf, dropBeats_wf, pages_wf, refreshBy_mem, setOp_mem]
theorem lookAhead_wf (core slot : Nat) (o : Op) (p : Plan) (entry phys : Nat) : (s.lookAhead core slot o p entry phys).mem.wf = true := by
  unfold State.lookAhead
  grind [fabSend_mem, foldl_wf, setOp_mem]
theorem execCopyChunk_wf (core slot : Nat) : LeavesWf (execCopyChunk core slot s) := by
  unfold execCopyChunk
  grind [leaveLanes_wf, leavesWf_next, lookAhead_wf, queueOp_wf, setOp_mem, takeChunk_wf]
theorem beatDone_wf (core slot n : Nat) : (s.beatDone core slot n).mem.wf = true := by
  unfold State.beatDone
  grind [countBytes_wf, modOp_mem]
theorem execCopyBeat_wf (core slot n : Nat) : LeavesWf (execCopyBeat core slot n s) := by
  unfold execCopyBeat
  grind [beatDone_wf, copySettled_wf, decideOp_wf, dropBeats_wf, fabSend_mem, leavesWf_next, placeWrite_wf, setOp_mem]
theorem startCopy_wf (k : Nat) (o : Op) : (s.startCopy k o).mem.wf = true := h
theorem execCopySchedule_wf (cluster : Nat) : LeavesWf (execCopySchedule cluster s) := by
  unfold execCopySchedule
  grind [leavesWf_next, startCopy_wf]

/-! ### Matrix commands -/

theorem placeImage_wf (e k : Nat) (codes : Nat → List (BitVec 16)) (r : Resent) : (s.placeImage e k codes r).mem.wf = true :=
  List.foldlRecOn (motive := fun m : Mem => m.wf = true) _ _ h fun _ hm _ _ => writeSp_wf _ hm
theorem putBank_wf (e : Nat) (back : Bool) (codes : Nat → List (BitVec 16)) : (s.putBank e back codes).mem.wf = true := h
theorem loadBack_wf (e k : Nat) : (s.loadBack e k).mem.wf = true := by
  unfold State.loadBack
  grind [modEngine_mem, putBank_wf]
theorem dropImages_wf (e : Nat) (asid : BitVec 16) : (s.dropImages e asid).mem.wf = true := by
  unfold State.dropImages
  grind [modEngine_mem, putBank_wf]
theorem execEngineInboxEntry_wf (core slot : Nat) : LeavesWf (execEngineInboxEntry core slot s) := by
  unfold execEngineInboxEntry
  grind [bump_mem, checkMove_wf, leavesWf_next, setOp_mem]
theorem migrate_wf (core slot f : Nat) : (s.migrate core slot f).mem.wf = true := by
  unfold State.migrate
  grind [bump_mem, checkMoves_wf, modOp_mem]
theorem execMigration_wf (engine core slot : Nat) : LeavesWf (execMigration engine core slot s) := by
  unfold execMigration
  grind [leavesWf_next, migrate_wf, setOp_mem]
theorem startImage_wf (o : Op) (e : Nat) (A : List Nat) : (s.startImage o e A).1.mem.wf = true := by
  unfold State.startImage
  grind [placeImage_wf, refresh_mem]
theorem startMmx_wf (core slot e : Nat) : (s.startMmx core slot e).mem.wf = true := by
  unfold State.startMmx
  grind [checkMoves_wf, decideOp_wf, migrate_wf, modEngine_mem, refresh_mem, setOp_mem, startImage_wf]
theorem execLaneDispatch_wf (engine lane : Nat) : LeavesWf (execLaneDispatch engine lane s) := by
  unfold execLaneDispatch
  grind [decideOp_wf, leavesWf_next, modEngine_mem, setOp_mem, startMmx_wf]
theorem runVectors_wf (core slot : Nat) (l : Lane) (ns : List Nat) : (s.runVectors core slot l ns).mem.wf = true := by
  unfold State.runVectors
  grind [beatDone_wf, foldl_wf, modMem_mem, writeSp_wf]
theorem countPasses_wf (e : Nat) (l : Lane) (ran : Nat → Nat) : (s.countPasses e l ran).mem.wf = true := by
  unfold State.countPasses
  grind [foldl_wf, modDeck_mem]
theorem stopMmx_wf (core slot : Nat) (l : Lane) (status cause : BitVec 8) : (s.stopMmx core slot l status cause).mem.wf = true := by
  unfold State.stopMmx
  grind [countPasses_wf, decideOp_wf, refreshBy_mem, runVectors_wf]
theorem execMmxCompletion_wf (engine : Nat) : LeavesWf (execMmxCompletion engine s) := by
  unfold execMmxCompletion
  grind [countPasses_wf, decideOp_wf, leavesWf_next, refreshBy_mem, runVectors_wf, stopMmx_wf]
theorem deckLost_wf (d : Nat) : (s.deckLost d).mem.wf = true := by
  unfold State.deckLost
  grind [refresh_mem, stopMmx_wf]
theorem gather_wf {core : Nat} {o : Op} {as : List Nat} {t : State} {x : Except (BitVec 8 × Nat) (List Byte)}
    (e : s.gather core o as = some (t, x)) : t.mem.wf = true := by
  unfold State.gather at e
  grind [pages_wf]
theorem bankLoaded_wf (core slot e k : Nat) : (s.bankLoaded core slot e k).mem.wf = true := by
  unfold State.bankLoaded
  grind [decideOp_wf, loadBack_wf]
theorem entryWritten_wf (core slot e k : Nat) (bank : Bool) : (s.entryWritten core slot e k bank).mem.wf = true := by
  unfold State.entryWritten
  grind [bankLoaded_wf, decideOp_wf, modEngine_mem]
theorem execPhldExecution_wf (engine : Nat) : LeavesWf (execPhldExecution engine s) := by
  unfold execPhldExecution
  split
  · exact leavesWf_next.2 h
  · refine leavesWf_ite (leavesWf_next.2 h) ?_
    split
    · exact leavesWf_next.2 h
    · next e => exact leavesWf_next.2 (decideOp_wf (gather_wf h e) ..)
    · next e =>
      have ht := gather_wf h e
      rw [← refresh_mem] at ht
      exact leavesWf_next.2 (entryWritten_wf (placeImage_wf ht ..) ..)
theorem execPhdecExecution_wf (engine : Nat) : LeavesWf (execPhdecExecution engine s) := by
  unfold execPhdecExecution
  split
  · exact leavesWf_next.2 h
  · refine leavesWf_ite (leavesWf_next.2 h) ?_
    split
    · exact leavesWf_next.2 h
    · next e => exact leavesWf_next.2 (decideOp_wf (gather_wf h e) ..)
    · next e =>
      have ht := gather_wf h e
      dsimp only
      split
      · exact leavesWf_next.2 (decideOp_wf ht ..)
      · rw [← refresh_mem] at ht
        exact leavesWf_next.2 (entryWritten_wf (placeImage_wf ht ..) ..)
theorem execPhresExecution_wf (engine : Nat) : LeavesWf (execPhresExecution engine s) := by
  unfold execPhresExecution
  grind [decideOp_wf, entryWritten_wf, leavesWf_next, refresh_mem]
theorem execBackBankLoad_wf (engine : Nat) : LeavesWf (execBackBankLoad engine s) := by
  unfold execBackBankLoad
  grind [bankLoaded_wf, leavesWf_next]
theorem swapOwn_wf (core slot engine : Nat) : (s.swapOwn core slot engine).mem.wf = true := by
  unfold State.swapOwn
  grind [decideOp_wf, modEngine_mem, modPh_mem, placeImage_wf]
theorem swapOther_wf (core slot engine k : Nat) : (s.swapOther core slot engine k).mem.wf = true := by
  unfold State.swapOther
  grind [decideOp_wf, modEngine_mem, modPh_mem, putBank_wf]
theorem execPhswpExecution_wf (engine : Nat) : LeavesWf (execPhswpExecution engine s) := by
  unfold execPhswpExecution
  grind [decideOp_wf, leavesWf_next, refresh_mem, swapOther_wf, swapOwn_wf]
theorem execPhdropExecution_wf (engine : Nat) : LeavesWf (execPhdropExecution engine s) := by
  unfold execPhdropExecution
  grind [decideOp_wf, leavesWf_next, modEngine_mem]
theorem stopPh_wf (core slot engine : Nat) (l : Lane) (status cause : BitVec 8) (word2 : Word) :
    (s.stopPh core slot engine l status cause word2).mem.wf = true := by
  unfold State.stopPh
  grind [decideOp_wf, modEngine_mem, putBank_wf, refreshBy_mem]
theorem faultAt_wf (core slot : Nat) (c : BitVec 8) (a : Nat) : (s.faultAt core slot c a).mem.wf = true := h
theorem tileBeats_wf (core slot : Nat) (bs : List (List Host.Cell)) : (s.tileBeats core slot bs).mem.wf = true := by
  induction bs generalizing s with
  | nil => exact h
  | cons b bs ih =>
    unfold State.tileBeats
    grind [placeWrite_wf, beatDone_wf, faultAt_wf]
theorem bpVector_wf (core slot n : Nat) {t : State} (e : s.bpVector core slot n = some t) : t.mem.wf = true := by
  unfold State.bpVector at e
  grind [faultAt_wf, gather_wf, setOp_mem, tileBeats_wf]
theorem accRow_wf (core slot n : Nat) {t : State} (e : s.accRow core slot n = some t) : t.mem.wf = true := by
  unfold State.accRow at e
  grind [beatDone_wf, faultAt_wf, foldl_wf, pages_wf, placeWrite_wf, setOp_mem]
theorem transferRun_wf (core slot : Nat) {one : State → Nat → Option State}
    (ho : ∀ (t u : State) (n : Nat), t.mem.wf = true → one t n = some u → u.mem.wf = true) (total n k : Nat) :
    (s.transferRun core slot one total n k).mem.wf = true := by
  induction k generalizing s n with
  | zero =>
    unfold State.transferRun
    grind [modOp_mem]
  | succ k ih =>
    unfold State.transferRun
    grind
theorem transferStep_wf (core slot : Nat) (o : Op) (total chunk : Nat) {one : State → Nat → Option State}
    (ho : ∀ (t u : State) (n : Nat), t.mem.wf = true → one t n = some u → u.mem.wf = true) :
    LeavesWf (transferStep s core slot o total chunk one) := by
  unfold transferStep
  grind [transferRun_wf, leaveLanes_wf, setOp_mem, leavesWf_next]
theorem execTcopyBpExecution_wf (engine : Nat) : LeavesWf (execTcopyBpExecution engine s) := by
  unfold execTcopyBpExecution
  grind [bpVector_wf, leavesWf_next, transferStep_wf]
theorem execTcopyAccExecution_wf (engine : Nat) : LeavesWf (execTcopyAccExecution engine s) := by
  unfold execTcopyAccExecution
  grind [accRow_wf, leavesWf_next, transferStep_wf]
theorem cancelMat_wf (core slot : Nat) : (s.cancelMat core slot).mem.wf = true := by
  unfold State.cancelMat
  grind [decideOp_wf, stopMmx_wf, stopPh_wf]
theorem execMatSwitchTimeout_wf (engine lane : Nat) : LeavesWf (execMatSwitchTimeout engine lane s) := by
  unfold execMatSwitchTimeout
  grind [leavesWf_next, stopMmx_wf, stopPh_wf]
theorem trimPut_wf (e off : Nat) (v : Word) : (s.trimPut e off v).mem.wf = true := h
theorem execTrimApply_wf (engine : Nat) : LeavesWf (execTrimApply engine s) := by
  unfold execTrimApply
  grind [foldl_wf, leavesWf_next, modEngine_mem, trimPut_wf]

/-! ### Rings, decks and heat -/

theorem thPut_wf (ws : List Word) : (s.thPut ws).mem.wf = true := by
  unfold State.thPut
  grind [modPh_mem, putLocal_wf]
theorem thRecord_wf (type deck bank ring : Nat) (data aux : Word) : (s.thRecord type deck bank ring data aux).mem.wf = true := by
  unfold State.thRecord
  grind [thPut_wf]
theorem setAvail_wf (d : Nat) (new : BitVec 2) : (s.setAvail d new).mem.wf = true := by
  unfold State.setAvail
  grind [deckLost_wf, modDeck_mem, thRecord_wf]
theorem execDeckStateApply_wf (engine deck : Nat) : LeavesWf (execDeckStateApply engine deck s) := by
  unfold execDeckStateApply
  grind [leavesWf_next, setAvail_wf]
theorem deckctlPut_wf (deck : Nat) (v : Word) : (s.deckctlPut deck v).mem.wf = true := h
theorem execDeckctlWrite_wf (deck : Nat) (v : Word) : LeavesWf (execDeckctlWrite deck v s) := leavesWf_next.2 h
theorem execLaserLoss_wf (m : Nat) : LeavesWf (execLaserLoss m s) := by
  unfold execLaserLoss
  grind [fabctl_mem, foldl_wf, leavesWf_next, modPh_mem, modPort_mem, rasReport_wf, setAvail_wf]
theorem deckSettles_wf (d : Nat) : (s.deckSettles d).mem.wf = true := by
  unfold State.deckSettles
  grind [setAvail_wf]
theorem execLaserModuleRelit_wf (m : Nat) : LeavesWf (execLaserModuleRelit m s) := by
  unfold execLaserModuleRelit
  grind [deckSettles_wf, foldl_wf, leavesWf_next, modPh_mem]
theorem execLaserRelight_wf (m : Nat) : LeavesWf (execLaserRelight m s) := by
  unfold execLaserRelight
  grind [foldl_wf, leavesWf_next, modPort_mem]
theorem modRing_wf (bk r : Nat) (f : Ring → Ring) : (s.modRing bk r f).mem.wf = true := h
theorem modBank_wf (bk : Nat) (f : Bank → Bank) : (s.modBank bk f).mem.wf = true := h
theorem abandonWear_wf (bk : Nat) : (s.abandonWear bk).mem.wf = true := by
  unfold State.abandonWear
  grind [modBank_wf, modPh_mem]
theorem ringPut_wf (deck bank ring : Nat) (v : Word) : (s.ringPut deck bank ring v).mem.wf = true := by
  unfold State.ringPut
  grind [abandonWear_wf, modRing_wf]
theorem execRingWrite_wf (deck bank ring : Nat) (v : Word) : LeavesWf (execRingWrite deck bank ring v s) := by
  unfold execRingWrite
  grind [leavesWf_next, ringPut_wf]
theorem moveWave_wf (deck bank src dst : Nat) (wear : Bool) : (s.moveWave deck bank src dst wear).mem.wf = true := by
  unfold State.moveWave
  grind [modRing_wf, thRecord_wf]
theorem applyMove_wf (deck bank : Nat) : (s.applyMove deck bank).mem.wf = true := by
  unfold State.applyMove
  grind [modBank_wf, modPh_mem, moveWave_wf]
theorem ringmovePut_wf (deck bank : Nat) (v : Word) : (s.ringmovePut deck bank v).mem.wf = true := by
  unfold State.ringmovePut
  grind [abandonWear_wf, applyMove_wf, modBank_wf]
theorem execRingmoveWrite_wf (deck bank : Nat) (v : Word) : LeavesWf (execRingmoveWrite deck bank v s) := by
  unfold execRingmoveWrite
  grind [leavesWf_next, ringmovePut_wf]
theorem execRingMoveApply_wf (deck bank : Nat) : LeavesWf (execRingMoveApply deck bank s) := by
  unfold execRingMoveApply
  grind [applyMove_wf, leavesWf_next]
theorem execWearMove_wf (deck bank spare : Nat) (heater : BitVec 12) : LeavesWf (execWearMove deck bank spare heater s) := by
  unfold execWearMove
  grind [applyMove_wf, leavesWf_next, modBank_wf, modRing_wf]
theorem sampleRing_wf (deck : Nat) (x : Nat × BitVec 12 × List Int) : (s.sampleRing deck x).mem.wf = true := by
  unfold State.sampleRing
  grind [modRing_wf, notice_mem, refresh_mem, thPut_wf, thRecord_wf]
theorem execMonitorSample_wf (deck : Nat) (temp : BitVec 16) (samples : List (Nat × BitVec 12 × List Int)) :
    LeavesWf (execMonitorSample deck temp samples s) := by
  unfold execMonitorSample
  grind [foldl_wf, leavesWf_next, modDeck_mem, rasReport_wf, sampleRing_wf, setAvail_wf, thRecord_wf]
theorem execTempRecordTimer_wf (deck : Nat) : LeavesWf (execTempRecordTimer deck s) := by
  unfold execTempRecordTimer
  grind [leavesWf_next, modDeck_mem, thRecord_wf]
theorem execProbeCalibration_wf (engine deck : Nat) (mebc : BitVec 4) (nprobe : BitVec 16) :
    LeavesWf (execProbeCalibration engine deck mebc nprobe s) := by
  unfold execProbeCalibration
  grind [leavesWf_next, modDeck_mem]
theorem measured_wf : (s.measured).mem.wf = true := h
theorem execPowerAlert_wf (watts : BitVec 32) : LeavesWf (execPowerAlert watts s) := by
  unfold execPowerAlert
  grind [leavesWf_next, measured_wf, modPh_mem, notice_mem, thPut_wf]
theorem execThringWrite_wf (v : Word) : LeavesWf (execThringWrite v s) := leavesWf_next.2 h
theorem execScrub_wf (deck code : Nat) (bad : Bool) : LeavesWf (execScrub deck code bad s) := by
  unfold execScrub
  grind [leavesWf_next, modDeck_mem, rasCorrected_wf, rasReport_wf]

/-! ### System registers -/

theorem sysClear_wf (core n : Nat) : (s.sysClear core n).mem.wf = true := by
  unfold State.sysClear
  grind [modCore_mem]
theorem sysPut_wf (key n : Nat) (v : Word) : (s.sysPut key n v).mem.wf = true := by
  unfold State.sysPut
  grind [deckctlPut_wf, modChan_mem, modCore_mem, modCtx_mem, ringPut_wf, ringmovePut_wf]
theorem execSysrd_wf (d : Reg) (n : BitVec 12) : LeavesWf (execSysrd d n s) := by
  unfold execSysrd
  grind [leavesWf_next, setG_wf, sysClear_wf, trapNow_wf]
theorem execSyswr_wf (a : Reg) (n : BitVec 12) : LeavesWf (execSyswr a n s) := by
  unfold execSyswr
  grind [leavesWf_next, retire_mem, sysPut_wf, trapNow_wf]
theorem msixSend_wf (v : Nat) : (s.msixSend v).mem.wf = true := h
theorem msixRaise_wf (v : Nat) : (s.msixRaise v).mem.wf = true := by
  unfold State.msixRaise
  grind [modDev_mem, msixSend_wf]
theorem execIrq_wf (a : Reg) : LeavesWf (execIrq a s) := by
  unfold execIrq
  grind [blockOn_wf, leavesWf_next, msixRaise_wf, released_wf, retire_mem, trapAt_wf]

/-! ### The buffers of collectives -/

theorem runOp_wf (k : Nat) : (s.runOp k).mem.wf = true := h
theorem closeAt_wf (k : Nat) (status cause : BitVec 8) (word2 : Word) : (s.closeAt k status cause word2).mem.wf = true := h
theorem collRead_wf (k a n : Nat) : (s.collRead k a n).1.mem.wf = true := by
  unfold State.collRead
  grind [pages_wf]
theorem collReads_wf (ks : List Nat) (l : List (Nat × Nat)) : (s.collReads ks l).1.mem.wf = true := by
  induction l generalizing s with
  | nil => exact h
  | cons p l ih => exact ih (collRead_wf h ..)
theorem collBeats_wf {k : Nat} {pick : Nat → Bool} {i : Nat} {bs : List Beat} {t : State} {x : Option (Nat × BitVec 8)}
    (e : s.collBeats k pick i bs = some (t, x)) : t.mem.wf = true := by
  induction bs generalizing s i with
  | nil => grind [State.collBeats]
  | cons b bs ih =>
    unfold State.collBeats at e
    grind [placeWrite_wf, countBytes_wf, modOp_mem]
theorem collWrite_wf {k : Nat} {pick : Nat → Bool} {out : List (Nat × List Byte)} {t : State} {x : Option (Nat × BitVec 8)}
    (e : s.collWrite k pick out = some (t, x)) : t.mem.wf = true := by
  unfold State.collWrite at e
  grind [pages_wf, collBeats_wf]
theorem collAbsent_wf (g k : Nat) : (s.collAbsent g k).mem.wf = true := by
  unfold State.collAbsent
  grind [collReads_wf, collWrite_wf, refreshBy_mem, setGroup_mem]

/-! ### Barriers and groups -/

theorem fireNote_wf (k : Nat) (n : Note) : (s.fireNote k n).mem.wf = true := h
theorem flipBar_wf (k : Nat) (p : Word) (e : Bool) (w : Nat) (selfW tree : Bool) : (s.flipBar k p e w selfW tree).mem.wf = true := by
  unfold State.flipBar
  grind [fireNote_wf, foldl_wf, launchPkt_wf, setBar_mem]
theorem numberOps_wf (n : Nat) (ks : List Nat) : (s.numberOps n ks).mem.wf = true := by
  induction ks generalizing s n with
  | nil =>
    unfold State.numberOps
    exact h
  | cons k ks ih =>
    unfold State.numberOps
    grind [modOp_mem]
theorem onCoreOf_wf (asid : BitVec 16) (core : Nat) {f : State → State} (hf : ∀ t : State, t.mem.wf = true → (f t).mem.wf = true) :
    (s.onCoreOf asid core f).mem.wf = true := by
  unfold State.onCoreOf
  grind [modCore_mem]
theorem onGroupCore_wf (g core : Nat) {f : State → State} (hf : ∀ t : State, t.mem.wf = true → (f t).mem.wf = true) :
    (s.onGroupCore g core f).mem.wf = true := by
  unfold State.onGroupCore
  grind [onCoreOf_wf]
theorem unbindBar_wf (m : Member) : (s.unbindBar m).mem.wf = true := by
  unfold State.unbindBar
  grind [setBar_mem]
theorem boundary_wf (g : Nat) : (s.boundary g).mem.wf = true := by
  unfold State.boundary
  grind [decideOp_wf, foldl_wf, numberOps_wf, onGroupCore_wf, setBar_mem, setGroup_mem, unbindBar_wf]
theorem groupPhase_wf (g : Nat) : (s.groupPhase g).1.mem.wf = true := by
  unfold State.groupPhase
  grind [boundary_wf, flipBar_wf, foldl_wf, refresh_mem, setGroup_mem]
theorem bringState_wf (g core : Nat) (st : Word × Bool × Nat) : (s.bringState g core st).mem.wf = true := h
theorem completeBar_wf (k : Nat) : (s.completeBar k).1.mem.wf = true := by
  unfold State.completeBar
  grind [bringState_wf, flipBar_wf, groupPhase_wf, launchPkt_wf, setBar_mem]
theorem settleBars_wf (n : Nat) (ks : List Nat) : (s.settleBars n ks).mem.wf = true := by
  induction n generalizing s ks with
  | zero => exact h
  | succ n ih =>
    cases ks with
    | nil => exact h
    | cons k ks =>
      unfold State.settleBars
      grind [completeBar_wf, setBar_mem]
theorem restBars_wf (ks : List Nat) : (s.restBars ks).mem.wf = true := by
  unfold State.restBars
  grind [settleBars_wf]
theorem barEvent_wf (k : Nat) (e : BEvent) : (s.barEvent k e).mem.wf = true := by
  unfold State.barEvent
  grind [restBars_wf, setBar_mem]
theorem withdrawOps_wf (g core : Nat) (status cause : BitVec 8) (drainOut : Bool) :
    (s.withdrawOps g core status cause drainOut).mem.wf = true := by
  unfold State.withdrawOps
  grind [collAbsent_wf, decideOp_wf, finishOp_wf, foldl_wf, numberOps_wf]
theorem boundaryIfIdle_wf (g : Nat) : (s.boundaryIfIdle g).mem.wf = true := by
  unfold State.boundaryIfIdle
  grind [boundary_wf]
theorem goOn_wf (g : Nat) : (s.goOn g).mem.wf = true := by
  unfold State.goOn
  grind [boundaryIfIdle_wf, groupPhase_wf, restBars_wf]
theorem withdraw_wf (g core : Nat) (status cause : BitVec 8) (drainOut : Bool) : (s.withdraw g core status cause drainOut).mem.wf = true := by
  unfold State.withdraw
  grind [decideOp_wf, flipBar_wf, foldl_wf, goOn_wf, onGroupCore_wf, restBars_wf, setGroup_mem, unbindBar_wf, withdrawOps_wf]
theorem execGroupWithdrawal_wf (group core : Nat) : LeavesWf (execGroupWithdrawal group core s) := by
  unfold execGroupWithdrawal
  grind [leavesWf_next, withdraw_wf]
theorem farWord_wf (g pkg core : Nat) (w : FarWord) : (s.farWord g pkg core w).mem.wf = true := by
  unfold State.farWord
  grind [boundary_wf, collAbsent_wf, goOn_wf, setGroup_mem]
theorem execGroupExchangeRound_wf (group rank : Nat) (pay : Word) (err : Bool) (wdn : Nat) (far : Option (Nat × Nat × FarWord)) :
    LeavesWf (execGroupExchangeRound group rank pay err wdn far s) := by
  unfold execGroupExchangeRound
  grind [bringState_wf, farWord_wf, goOn_wf, groupPhase_wf, leavesWf_next, restBars_wf, setGroup_mem]
theorem execBarrierEvent_wf (id : Nat) : LeavesWf (execBarrierEvent id s) := by
  unfold execBarrierEvent
  grind [answer_mem, barEvent_wf, dropFlight_wf, fireNote_wf, leavesWf_next, modCore_mem, refresh_mem, setBar_mem, withdraw_wf]
theorem execParentFlip_wf (id : Nat) : LeavesWf (execParentFlip id s) := by
  unfold execParentFlip
  grind [dropFlight_wf, flipBar_wf, leavesWf_next, restBars_wf]
theorem barBad_wf (x : Word) : LeavesWf (barBad s x) := by
  unfold barBad
  grind [leavesWf_next, trapAt_wf]
theorem withBar_wf (own : Bool) (a : Reg) {k : Word → Nat → Out} (hk : ∀ x n, LeavesWf (k x n)) : LeavesWf (withBar own a s k) := by
  unfold withBar
  grind [barBad_wf]
theorem ownerWait_wf : LeavesWf (ownerWait s) := by
  unfold ownerWait
  grind [blockOn_wf, leavesWf_next]
theorem sendCounted_wf (body : Pkt) : LeavesWf (sendCounted s body) := leavesWf_next.2 h
theorem sendEvent_wf (k : Nat) (e : BEvent) : LeavesWf (sendEvent s k e) := by
  unfold sendEvent
  grind [blockOn_wf, leavesWf_next, released_wf, sendCounted_wf]
theorem execBinit_wf (a b : Reg) : LeavesWf (execBinit a b s) := by
  unfold execBinit
  grind [barBad_wf, leavesWf_next, ownerWait_wf, readNow_wf, restBars_wf, retire_mem, setBar_mem, trapAt_wf, withBar_wf]
theorem execBarr_wf (a b : Reg) : LeavesWf (execBarr a b s) := by
  unfold execBarr
  grind [leavesWf_next, sendEvent_wf, withBar_wf]
theorem execBwdraw_wf (a : Reg) : LeavesWf (execBwdraw a s) := by
  unfold execBwdraw
  grind [leavesWf_next, sendEvent_wf, withBar_wf, withdraw_wf]
theorem execBbytes_wf (a b : Reg) : LeavesWf (execBbytes a b s) := by
  unfold execBbytes
  grind [sendEvent_wf, withBar_wf]
theorem execBnote_wf (a b : Reg) : LeavesWf (execBnote a b s) := by
  unfold execBnote
  grind [barBad_wf, chanBadAt_wf, leavesWf_next, modCore_mem, ownerWait_wf, sendCounted_wf, withBar_wf]
theorem execBwait_wf (d a : Reg) : LeavesWf (execBwait d a s) := by
  unfold execBwait
  grind [acquire_wf, blockOn_wf, leavesWf_next, ownerWait_wf, setG_wf, withBar_wf]
theorem execBstat_wf (d a : Reg) : LeavesWf (execBstat d a s) := by
  unfold execBstat
  grind [leavesWf_next, ownerWait_wf, setG_wf, withBar_wf]
theorem execBlink_wf (a b : Reg) : LeavesWf (execBlink a b s) := by
  unfold execBlink
  grind [barBad_wf, leavesWf_next, ownerWait_wf, retire_mem, setBar_mem, withBar_wf]
theorem execBbind_wf (a b : Reg) : LeavesWf (execBbind a b s) := by
  unfold execBbind
  grind [barBad_wf, boundary_wf, leavesWf_next, ownerWait_wf, retire_mem, setGroup_mem, withBar_wf]

/-! ### Collectives -/

theorem countIssued_wf (core slot : Nat) : (s.countIssued core slot).mem.wf = true := by
  unfold State.countIssued
  grind [setGroup_mem, setOp_mem]
theorem issueColl_wf (f : Form) (d a b : Reg) (x : BitVec 1) (p : BitVec 2) (n k : BitVec 1) : LeavesWf (issueColl f d a b x p n k s) := by
  unfold issueColl
  grind [countIssued_wf, issueOp_wf, leavesWf_next]
theorem takeUp_wf (g k : Nat) : (s.takeUp g k).mem.wf = true := by
  unfold State.takeUp
  grind [boundaryIfIdle_wf, closeAt_wf, runOp_wf, setGroup_mem]
theorem collOver_wf (g : Nat) : (s.collOver g).mem.wf = true := by
  unfold State.collOver
  grind [boundary_wf, foldl_wf, goOn_wf, onGroupCore_wf, restBars_wf, setGroup_mem]
theorem startRanks_wf (r : Nat) (ks : List Nat) : (s.startRanks r ks).mem.wf = true := by
  induction ks generalizing s r with
  | nil => 
    unfold State.startRanks
    exact h
  | cons k ks ih =>
    unfold State.startRanks
    grind [modOp_mem]
theorem sendExchanges_wf (ps : List (Nat × Nat)) (ks : List Nat) : (s.sendExchanges ps ks).mem.wf = true := by
  unfold State.sendExchanges
  grind [fabSend_mem, foldl_wf]
theorem execCollectiveStart_wf (group : Nat) : LeavesWf (execCollectiveStart group s) := by
  unfold execCollectiveStart
  grind [closeAt_wf, collOver_wf, foldl_wf, leavesWf_next, sendExchanges_wf, setGroup_mem, startRanks_wf, takeUp_wf]
theorem collAcquire_wf (core : Nat) (asid : BitVec 16) (bufs : List (Nat × Nat)) : (s.collAcquire core asid bufs).mem.wf = true := by
  unfold State.collAcquire
  grind [foldl_wf, modCore_mem]
theorem collGive_wf {g : Nat} {live : List Nat} {ins : List CollIn} {l : List Nat} {t : State} (e : s.collGive g live ins l = some t) :
    t.mem.wf = true := by
  induction l generalizing s with
  | nil => grind [State.collGive]
  | cons i l ih =>
    unfold State.collGive at e
    grind [collWrite_wf, collAcquire_wf, decideOp_wf]
theorem execCollectiveComplete_wf (group : Nat) (far : List (Nat × Nat × List Byte)) : LeavesWf (execCollectiveComplete group far s) := by
  unfold execCollectiveComplete
  grind [collGive_wf, collOver_wf, collReads_wf, decideOp_wf, foldl_wf, leavesWf_next]
theorem execCollectiveDrainTimeout_wf (group core : Nat) : LeavesWf (execCollectiveDrainTimeout group core s) := by
  unfold execCollectiveDrainTimeout
  grind [leavesWf_next, withdraw_wf]
theorem cancelColl_wf (core slot : Nat) : (s.cancelColl core slot).mem.wf = true := by
  unfold State.cancelColl
  grind [collAbsent_wf, decideOp_wf, setGroup_mem]

/-! ### Coherence, windows and page moves -/

theorem xremove_wf (x : XReq) : (s.xremove x).mem.wf = true := h
theorem execXinv_wf (lo hi : Word) : LeavesWf (execXinv lo hi s) := by
  unfold execXinv
  grind [Mem.wf, leavesWf_next, modMem_mem, xremove_wf]
theorem execXinvComplete_wf : LeavesWf (execXinvComplete s) := by
  unfold execXinvComplete
  grind [Mem.wf, leavesWf_next, modMem_mem, xremove_wf]
theorem cohLocal_wf (pa : Nat) (write : Bool) : (s.cohLocal pa write).mem.wf = true := by
  unfold State.cohLocal
  grind [Mem.wf, lineLost_wf, startTrans_cells]
theorem execCohLocalRead_wf (pa : Nat) : LeavesWf (execCohLocalRead pa s) := by
  unfold execCohLocalRead
  grind [cohLocal_wf, leavesWf_next]
theorem execCohLocalWrite_wf (pa : Nat) : LeavesWf (execCohLocalWrite pa s) := by
  unfold execCohLocalWrite
  grind [cohLocal_wf, leavesWf_next]
theorem noteGetx_wf (pa : Nat) : (s.noteGetx pa).mem.wf = true := h
theorem cohReply_wf (pa member : Nat) : (s.cohReply pa member).mem.wf = true := by
  unfold State.cohReply
  grind [cohSend_mem]
theorem execCohGets_wf (pa member : Nat) : LeavesWf (execCohGets pa member s) := by
  unfold execCohGets
  grind [Mem.wf, cohReply_wf, leavesWf_next, lineLost_wf, setLine_cells, startTrans_cells]
theorem execCohGetx_wf (pa member : Nat) : LeavesWf (execCohGetx pa member s) := by
  unfold execCohGetx
  grind [Mem.wf, cohReply_wf, leavesWf_next, lineLost_wf, noteGetx_wf, setLine_cells, startTrans_cells]
theorem execCohEviction_wf (pa member kind : Nat) (data : VWord) : LeavesWf (execCohEviction pa member kind data s) := by
  unfold execCohEviction
  grind [Mem.wf, leavesWf_next, lineData_wf, setLine_cells]
theorem execCohProbe_wf (pa kind : Nat) : LeavesWf (execCohProbe pa kind s) := by
  unfold execCohProbe
  grind [Mem.wf, cohReply_wf, leavesWf_next, modMem_mem]
theorem execCohTransactionComplete_wf (pa : Nat) (written : Bool) (data : VWord) : LeavesWf (execCohTransactionComplete pa written data s) := by
  unfold execCohTransactionComplete
  grind [completeTrans_wf, leavesWf_next]
theorem execProbeTimeout_wf (pa member : Nat) : LeavesWf (execProbeTimeout pa member s) := by
  unfold execProbeTimeout
  split
  · exact leavesWf_next.2 h
  · exact leavesWf_ite (leavesWf_next.2 h) (leavesWf_next.2 (transFails_wf s pa member h))
theorem modWindow_wf (k : Nat) (f : Window → Window) : (s.modWindow k f).mem.wf = true := h
theorem execTransientDeadline_wf (k : Nat) : LeavesWf (execTransientDeadline k s) := by
  unfold execTransientDeadline
  grind [leavesWf_next, modWindow_wf]
theorem execTransientRearm_wf (k : Nat) : LeavesWf (execTransientRearm k s) := by
  unfold execTransientRearm
  grind [Mem.wf, leavesWf_next, modMem_mem, modWindow_wf]
theorem execDeadlineWrite_wf (k : Nat) (v : Word) : LeavesWf (execDeadlineWrite k v s) := by
  unfold execDeadlineWrite
  grind [leavesWf_next, modWindow_wf]
theorem execRemapError_wf (tower : Nat) (both : Bool) (base extent : Nat) : LeavesWf (execRemapError tower both base extent s) := by
  unfold execRemapError
  grind [Mem.wf, leavesWf_next, modMem_mem, rasCorrected_wf, rasReport_wf]
theorem execRefreshPreemption_wf (tower : Nat) : LeavesWf (execRefreshPreemption tower s) := by
  unfold execRefreshPreemption
  grind [Mem.wf, leavesWf_next, modMem_mem]
theorem execMemoryEccError_wf (source unit addr : Nat) : LeavesWf (execMemoryEccError source unit addr s) := by
  unfold execMemoryEccError
  repeat' split
  all_goals grind [lineLost_wf, rasCorrected_wf, rasReport_wf, modMem_mem, Mem.wf, Mem.setMeta, leavesWf_next]
theorem execRasFoldExpiry_wf (source unit : Nat) : LeavesWf (execRasFoldExpiry source unit s) := by
  unfold execRasFoldExpiry
  grind [foldReport_wf, leavesWf_next, modDev_mem]
theorem moveStatus_wf (pa status attempts : Nat) : (s.moveStatus pa status attempts).mem.wf = true := putLocal_getD_wf h _ _
theorem recallFrame_wf (lines : List Nat) : (s.recallFrame lines).mem.wf = true := by
  unfold State.recallFrame
  grind [foldl_wf, obtainLine_wf]
theorem moveReady_wf (pa : Nat) : (s.moveReady pa).mem.wf = true := by
  unfold State.moveReady
  grind [obtainLine_wf, readyWalk_wf]
theorem execPageMove_wf (pa : Nat) : LeavesWf (execPageMove pa s) := by
  unfold execPageMove
  grind [Mem.wf, leavesWf_next, modMem_mem, moveReady_wf, moveStatus_wf]
theorem moveFails_wf (v : PageMove) (status attempts : Nat) : (s.moveFails v status attempts).mem.wf = true := by
  unfold State.moveFails
  grind [Mem.wf, memWrite_wf, modMem_mem, moveStatus_wf, rasReport_wf, refreshBy_mem]
theorem moveSwitch_wf (v : PageMove) : (s.moveSwitch v).mem.wf = true := by
  unfold State.moveSwitch
  grind [Mem.wf, memWrite_wf, modMem_mem, moveStatus_wf, xremove_wf]
theorem execPageMoveCheck_wf : LeavesWf (execPageMoveCheck s) := by
  unfold execPageMoveCheck
  grind [Mem.wf, leavesWf_next, modMem_mem, moveFails_wf, moveSwitch_wf, obtainLine_wf, recallFrame_wf, writeDram_wf]

/-! ### The decode and format tables -/

theorem execDtwr_wf (a b : Reg) : LeavesWf (execDtwr a b s) := leavesWf_next.2 h
theorem execDtrd_wf (d a : Reg) : LeavesWf (execDtrd d a s) := leavesWf_next.2 h
theorem execDtmode_wf (a : Reg) : LeavesWf (execDtmode a s) := leavesWf_next.2 h
theorem execFtwr_wf (a b : Reg) : LeavesWf (execFtwr a b s) := by
  unfold execFtwr
  grind [leavesWf_next, modCore_mem, readNow_wf, retire_mem, trapAt_wf, trapNow_wf]
theorem execFtrd_wf (a b : Reg) : LeavesWf (execFtrd a b s) := by
  unfold execFtrd
  grind [issueStore_wf, leavesWf_next, trapAt_wf]

/-! ### Integer instructions -/

theorem execWwr_wf (d : Fld3) (b : Reg) : LeavesWf (execWwr d b s) := leavesWf_next.2 h
theorem execWclr_wf : LeavesWf (execWclr s) := leavesWf_next.2 h
theorem immAddi_wf (d a : Reg) (c : Word) : LeavesWf (immAddi d a c s) := leavesWf_next.2 h
theorem immAndi_wf (d a : Reg) (c : Word) : LeavesWf (immAndi d a c s) := leavesWf_next.2 h
theorem immOri_wf (d a : Reg) (c : Word) : LeavesWf (immOri d a c s) := leavesWf_next.2 h
theorem immXori_wf (d a : Reg) (c : Word) : LeavesWf (immXori d a c s) := leavesWf_next.2 h
theorem immSlti_wf (d a : Reg) (c : Word) : LeavesWf (immSlti d a c s) := leavesWf_next.2 h
theorem immSltni_wf (d a : Reg) (c : Word) : LeavesWf (immSltni d a c s) := leavesWf_next.2 h
theorem immMuli_wf (d a : Reg) (c : Word) : LeavesWf (immMuli d a c s) := leavesWf_next.2 h
theorem immMovi_wf (d _a : Reg) (c : Word) : LeavesWf (immMovi d _a c s) := leavesWf_next.2 h
theorem immMovh_wf (d a : Reg) (c : Word) : LeavesWf (immMovh d a c s) := leavesWf_next.2 h
theorem immAddpi_wf (d a : Reg) (c : Word) : LeavesWf (immAddpi d a c s) := leavesWf_next.2 h

/-! ### Extended instructions -/

theorem extImm_wf (w : IWord) (c : BitVec 42) : LeavesWf (extImm w c s) := by
  unfold extImm
  grind [immAddi_wf, immAddpi_wf, immAndi_wf, immMovh_wf, immMovi_wf, immMuli_wf, immOri_wf, immSlti_wf, immSltni_wf, immXori_wf,
    leavesWf_next, trapNow_wf]
theorem extMem_wf (w : IWord) (off : BitVec 52) : LeavesWf (extMem w off s) := by
  unfold extMem
  grind [loadG_wf, loadV_wf, storeG_wf, storeV_wf]
theorem extBranch_wf (w : IWord) (disp : BitVec 52) : LeavesWf (extBranch w disp s) := by
  unfold extBranch
  grind [branch_wf, checkSlots_trap_wf, checkSlots_wf, leavesWf_next, trapNow_wf]
theorem execExt_wf (i : BitVec 26) : LeavesWf (execExt i s) := by
  unfold execExt
  grind [extBranch_wf, extImm_wf, extMem_wf, fetch_wf, jump_wf, leavesWf_next, modMe_mem, trapFetch_wf, trapNow_wf]

/-! ### Semaphores -/

theorem withSem_wf (a : Reg) {k : Nat → Out} (hk : ∀ n, LeavesWf (k n)) : LeavesWf (withSem a s k) := by
  unfold withSem
  grind [trapAt_wf, leavesWf_next]
theorem sendSem_wf (load : Bool) (dst : Dst) (n : Nat) (op : SemOp) : LeavesWf (sendSem s load dst n op) := leavesWf_next.2 h
theorem semUpdateOp_wf (n : Nat) (op : SemOp) : LeavesWf (semUpdateOp s n op) := by
  unfold semUpdateOp
  grind [blockOn_wf, leavesWf_next, released_wf, sendSem_wf]
theorem execSemadd_wf (a b : Reg) : LeavesWf (execSemadd a b s) := by
  unfold execSemadd
  grind [leavesWf_next, semUpdateOp_wf, withSem_wf]
theorem execSemset_wf (a b : Reg) : LeavesWf (execSemset a b s) := by
  unfold execSemset
  grind [leavesWf_next, semUpdateOp_wf, withSem_wf]
theorem execSemrd_wf (d a : Reg) : LeavesWf (execSemrd d a s) := by
  unfold execSemrd
  grind [blockOn_wf, leavesWf_next, sendSem_wf, withSem_wf]
theorem execSemwait_wf (a b : Reg) : LeavesWf (execSemwait a b s) := by
  unfold execSemwait
  grind [acquire_wf, blockOn_wf, launchPkt_wf, leavesWf_next, retire_mem, withSem_wf]
theorem execSemwaitN_wf (a b : Reg) (c : BitVec 6) : LeavesWf (execSemwaitN a b c s) := by
  unfold execSemwaitN
  grind [blockOn_wf, chanBadAt_wf, leavesWf_next, sendSem_wf, withSem_wf]
theorem fireSem_wf (w : Armed) (v : Word) : (s.fireSem w v).mem.wf = true := h
theorem wakeSem_wf (n : Nat) (v : Word) : (s.wakeSem n v).mem.wf = true := h
theorem semUpdate_wf (n : Nat) (v : Word) : (s.semUpdate n v).mem.wf = true := by
  unfold State.semUpdate
  grind [fireSem_wf, foldl_wf, wakeSem_wf]
theorem execSemUnitOp_wf (id : Nat) : LeavesWf (execSemUnitOp id s) := by
  unfold execSemUnitOp
  grind [answer_mem, dropFlight_wf, fireSem_wf, leavesWf_next, semUpdate_wf, wakeSem_wf]
theorem execSemvalWrite_wf (n : Nat) (v : Word) : LeavesWf (execSemvalWrite n v s) := by
  unfold execSemvalWrite
  grind [leavesWf_next, semUpdate_wf]
theorem execSemincWrite_wf (n : Nat) (v : Word) : LeavesWf (execSemincWrite n v s) := by
  unfold execSemincWrite
  grind [leavesWf_next, semUpdate_wf]

/-! ### Circuits, ports and packets -/

theorem execPgate_wf (d a b : Reg) (x : BitVec 1) (p : BitVec 2) (n k : BitVec 1) : LeavesWf (execPgate d a b x p n k s) := by
  unfold execPgate
  grind [issueOp_wf, leavesWf_next, trapNow_wf]
theorem execPwake_wf (d a b : Reg) (x : BitVec 1) (p : BitVec 2) (n k : BitVec 1) : LeavesWf (execPwake d a b x p n k s) := by
  unfold execPwake
  grind [issueOp_wf, leavesWf_next, trapNow_wf]
theorem portDown_wf (p : Nat) : (s.portDown p).mem.wf = true := by
  unfold State.portDown
  grind [fabctl_mem, modPort_mem]
theorem execCircExecution_wf (core slot : Nat) : LeavesWf (execCircExecution core slot s) := by
  unfold execCircExecution
  grind [closeAt_wf, leavesWf_next, modPort_mem, portDown_wf, runOp_wf]
theorem setupFails_wf (p : Nat) (status cause : BitVec 8) (reason : Nat) : (s.setupFails p status cause reason).mem.wf = true := by
  unfold State.setupFails
  grind [decideOp_wf, modPort_mem]
theorem execSetupAnswer_wf (port : Nat) (ack far : Bool) : LeavesWf (execSetupAnswer port ack far s) := by
  unfold execSetupAnswer
  grind [leavesWf_next, modPort_mem, setupFails_wf]
theorem execSetupBackoffExpiry_wf (port : Nat) : LeavesWf (execSetupBackoffExpiry port s) := by
  unfold execSetupBackoffExpiry
  grind [leavesWf_next, modPort_mem, setupFails_wf]
theorem execSetupRequest_wf (port phys farPort : Nat) (asid : BitVec 16) : LeavesWf (execSetupRequest port phys farPort asid s) := by
  unfold execSetupRequest
  grind [leavesWf_next, modFab_mem, modPort_mem]
theorem execCircuitTrained_wf (port skew : Nat) : LeavesWf (execCircuitTrained port skew s) := by
  unfold execCircuitTrained
  grind [decideOp_wf, fabctl_mem, leavesWf_next, modPort_mem]
theorem execTeardownReceived_wf (port : Nat) : LeavesWf (execTeardownReceived port s) := by
  unfold execTeardownReceived
  grind [leavesWf_next, modPort_mem, portDown_wf]
theorem execCircTExecution_wf (core slot : Nat) : LeavesWf (execCircTExecution core slot s) := by
  unfold execCircTExecution
  grind [closeAt_wf, leavesWf_next, portDown_wf]
theorem execPgateExecution_wf (core slot : Nat) : LeavesWf (execPgateExecution core slot s) := by
  unfold execPgateExecution
  grind [closeAt_wf, foldl_wf, leavesWf_next, modPort_mem]
theorem execPwakeExecution_wf (core slot : Nat) : LeavesWf (execPwakeExecution core slot s) := by
  unfold execPwakeExecution
  grind [closeAt_wf, foldl_wf, leavesWf_next, modPort_mem]
theorem dropRetry_wf (id : Nat) : (s.dropRetry id).mem.wf = true := h
theorem beatAnswered_wf (core slot va n : Nat) (cause : BitVec 8) : (s.beatAnswered core slot va n cause).mem.wf = true := by
  unfold State.beatAnswered
  grind [beatDone_wf, copySettled_wf, decideOp_wf, dropBeats_wf, modOp_mem, setOp_mem]
theorem endDrain_wf (core slot : Nat) (status cause : BitVec 8) : (s.endDrain core slot status cause).mem.wf = true := by
  unfold State.endDrain
  grind [decideOp_wf, modFab_mem, modFam_mem, releaseHeld_wf]
theorem copyFails_wf (core slot : Nat) (cause : BitVec 8) : (s.copyFails core slot cause).mem.wf = true := by
  unfold State.copyFails
  grind [decideOp_wf, dropBeats_wf]
theorem exchangeFails_wf (core slot seq : Nat) (cause : BitVec 8) : (s.exchangeFails core slot seq cause).mem.wf = true := by
  unfold State.exchangeFails
  grind [collAbsent_wf, decideOp_wf]
theorem ckptStatus_wf (desc status npoison first : Nat) : (s.ckptStatus desc status npoison first).mem.wf = true := putLocal_getD_wf h _ _
theorem ckptFails_wf (desc npoison first : Nat) : (s.ckptFails desc npoison first).mem.wf = true := by
  unfold State.ckptFails
  grind [ckptStatus_wf, rasReport_wf]
theorem ckptUnreached_wf : (s.ckptUnreached).mem.wf = true := by
  unfold State.ckptUnreached
  grind [ckptFails_wf, modDev_mem, modFab_mem]
theorem packetFails_wf (r : Retry) (cause : BitVec 8) : (s.packetFails r cause).mem.wf = true := by
  unfold State.packetFails
  grind [answer_mem, beatAnswered_wf, ckptUnreached_wf, copyFails_wf, endDrain_wf, exchangeFails_wf, lineLost_wf, transFails_wf]
theorem execPacketAck_wf (id : Nat) (answer : FabAns) : LeavesWf (execPacketAck id answer s) := by
  unfold execPacketAck
  grind [answer_mem, beatAnswered_wf, dropRetry_wf, leavesWf_next, retireSlot_wf]
theorem execPacketRetry_wf (id : Nat) : LeavesWf (execPacketRetry id s) := leavesWf_next.2 h
theorem execPacketLifetimeExpiry_wf (id : Nat) : LeavesWf (execPacketLifetimeExpiry id s) := by
  unfold execPacketLifetimeExpiry
  grind [dropRetry_wf, leavesWf_next, packetFails_wf, stalled_mem]
theorem execDeadTagExpiry_wf (n : Nat) : LeavesWf (execDeadTagExpiry n s) := by
  unfold execDeadTagExpiry
  grind [answer_mem, foldl_wf, leavesWf_next]
theorem execFamwrExecution_wf (core slot : Nat) : LeavesWf (execFamwrExecution core slot s) := by
  unfold execFamwrExecution
  grind [closeAt_wf, dropRetry_wf, fabSend_mem, foldl_wf, leavesWf_next, modFab_mem, modFam_mem, packetFails_wf, runOp_wf]
theorem execDrainMarkerAck_wf (core slot : Nat) : LeavesWf (execDrainMarkerAck core slot s) := by
  unfold execDrainMarkerAck
  grind [decideOp_wf, dropRetry_wf, leavesWf_next, modFab_mem, modFam_mem, releaseHeld_wf]
theorem farMsg_wf (src : Nat) (words : Vector Word 8) (asid : BitVec 16) (pkg : BitVec 12) : (s.farMsg src words asid pkg).mem.wf = true := h
theorem packetEffect_wf {src : Nat} {p : FabIn} {t : State} (e : s.packetEffect src p = some t) : t.mem.wf = true := by
  unfold State.packetEffect at e
  grind [farMsg_wf, pages_wf, placeWrite_wf, launchPkt_wf, obtainLine_wf, modMem_mem, writeDram_wf, execCohGets_wf, execCohGetx_wf,
    execCohEviction_wf, execCohProbe_wf, LeavesWf]
theorem packetTaken_wf (src seq : Nat) (body : FabIn) : (s.packetTaken src seq body).mem.wf = true := h
theorem execPacketArrival_wf (src seq : Nat) (body : FabIn) : LeavesWf (execPacketArrival src seq body s) := by
  unfold execPacketArrival
  grind [leavesWf_next, packetEffect_wf, packetTaken_wf]
theorem execCancelAtEngine_wf (core slot : Nat) : LeavesWf (execCancelAtEngine core slot s) := by
  unfold execCancelAtEngine
  grind [cancelColl_wf, cancelMat_wf, decideOp_wf, dropBeats_wf, endDrain_wf, leavesWf_next, setupFails_wf]

/-! ### Killed tasks -/

theorem endKilled_wf (key : Nat) : (s.endKilled key).mem.wf = true := by
  unfold State.endKilled
  grind [answer_mem, freeMySlot_wf, modCtx_mem]
theorem mapTasks_wf (asid : BitVec 16) (f : TaskRec → TaskRec) : (s.mapTasks asid f).mem.wf = true := h
theorem execTkill_wf (a : Reg) : LeavesWf (execTkill a s) := by
  unfold execTkill
  grind [blockOn_wf, bump_mem, holdBack_wf, leavesWf_next, mapTasks_wf, modMe_mem, retire_mem, sendBad_wf, trapNow_wf]
theorem killSlot_wf (k : Kill) (core n : Nat) : (s.killSlot k core n).1.mem.wf = true := by
  unfold State.killSlot
  grind [cancelOp_wf, opNotice_wf, retireOp_wf, setOp_mem]
theorem execTkillPurge_wf (n core : Nat) : LeavesWf (execTkillPurge n core s) := by
  unfold execTkillPurge
  generalize List.range 8 = contexts, List.range 32 = regions, List.range 256 = groups, List.range 128 = slots
  grind [foldl_wf, foldl_fst_wf, endKilled_wf, freeSlot_wf, answer_mem, setRegion_mem, withdraw_wf, killSlot_wf, retireKilled_wf,
    modCore_mem, leavesWf_next]
theorem deathNotice_wf (k : Kill) (pkg dest chan : Nat) (parent : BitVec 16) : (s.deathNotice k pkg dest chan parent).mem.wf = true := by
  unfold State.deathNotice
  grind [fabSend_mem, inject_wf, takeSerial_wf]
theorem execTkillComplete_wf (n : Nat) : LeavesWf (execTkillComplete n s) := by
  unfold execTkillComplete
  grind [deathNotice_wf, endKilled_wf, foldl_wf, leavesWf_next]

/-! ### Jobs -/

theorem takeLocal_wf (a n : Nat) : (s.takeLocal a n).1.mem.wf = true := by
  unfold State.takeLocal
  grind [foldl_wf, obtainLine_wf]
theorem allotCore_wf (j : Job) (dt : List (BitVec 19) × Bool) (ft : Tab (BitVec 256)) (core : Nat) :
    (s.allotCore j dt ft core).mem.wf = true := by
  unfold State.allotCore
  grind [clearRegion_wf, foldl_wf, modChan_mem, modCore_mem, setBar_mem, setRegion_mem]
theorem startLevel0_wf (j : Job) : (s.startLevel0 j).mem.wf = true := by
  unfold State.startLevel0
  grind [foldl_wf, inject_wf]
theorem launchJob_wf (j : Job) : (s.launchJob j).mem.wf = true := by
  unfold State.launchJob
  grind [allotCore_wf, foldl_wf, modDev_mem, startLevel0_wf, takeLocal_wf]
theorem refuseLaunch_wf (reason word : Nat) (asid : BitVec 16) : (s.refuseLaunch reason word asid).mem.wf = true := h
theorem execLaunch_wf (v : Word) : LeavesWf (execLaunch v s) := by
  unfold execLaunch
  grind [launchJob_wf, leavesWf_next, refuseLaunch_wf, takeLocal_wf]
theorem stopOp_wf (core slot : Nat) : (s.stopOp core slot).mem.wf = true := by
  unfold State.stopOp
  grind [cancelColl_wf, cancelMat_wf, dropBeats_wf, endDrain_wf, modFab_mem, modOp_mem, setupFails_wf]
theorem endJobOp_wf (core slot : Nat) : (s.endJobOp core slot).mem.wf = true := by
  unfold State.endJobOp
  grind [endOp_wf, retireOp_wf, setOp_mem, stopOp_wf]
theorem endOnCore_wf (core : Nat) : (s.endOnCore core).mem.wf = true := by
  unfold State.endOnCore
  grind [answer_mem, endKilled_wf, foldl_wf, modCore_mem, modCtx_mem]
theorem endSavedOp_wf (core slot : Nat) (o : Op) : (s.endSavedOp core slot o).mem.wf = true := by
  unfold State.endSavedOp
  grind [jobWrite32_wf]
theorem endJob_wf (j : Job) : (s.endJob j).mem.wf = true := by
  unfold State.endJob
  grind [Mem.wf, answer_mem, endJobOp_wf, endOnCore_wf, endSavedOp_wf, foldl_wf, modPh_mem]
theorem reclaimJob_wf (j : Job) (cores : List Nat) : (s.reclaimJob j cores).mem.wf = true := by
  unfold State.reclaimJob
  extract_lets s1 s2 s3
  have h1 : s1.mem.wf = true := foldl_wf (fun t c ht => by
    rw [modCore_mem]
    exact foldl_wf (fun u _ hu => by rwa [setBar_mem]) _ (foldl_wf (fun u i hu => wf_ite hu (by rwa [setRegion_mem])) _ ht)) _ h
  have h2 : s2.mem.wf = true := foldl_wf (fun t k ht => by rwa [modFam_mem]) _ h1
  have h3 : s3.mem.wf = true := foldl_wf (fun t e ht => dropImages_wf ht e _) _ h2
  exact h3
theorem execJobend_wf (v : Word) : LeavesWf (execJobend v s) := by
  unfold execJobend
  grind [endJob_wf, leavesWf_next, reclaimJob_wf]
theorem execJobSwitch_wf (v : Word) : LeavesWf (execJobSwitch v s) := by
  unfold execJobSwitch
  grind [leavesWf_next, modDev_mem]
theorem untake_wf (core slot : Nat) : (s.untake core slot).mem.wf = true := by
  unfold State.untake
  grind [setGroup_mem, setOp_mem]
theorem emptyCore_wf (core : Nat) : (s.emptyCore core).mem.wf = true := by
  unfold State.emptyCore
  grind [clearRegion_wf, foldl_wf, modCore_mem]
theorem saveJob_wf (w : Switch) (asid : BitVec 16) (cores : List Nat) : (s.saveJob w asid cores).mem.wf = true := by
  unfold State.saveJob
  extract_lets n slots s1 digest x s2 s3
  have h1 : s1.mem.wf = true := by
    rw [refreshBy_mem]
    exact foldl_wf (fun t c ht => foldl_wf (fun u i hu => untake_wf hu c i) _ ht) _ h
  have h2 : s2.mem.wf = true := foldl_wf (fun t c ht => emptyCore_wf ht c) _ h1
  exact putLocal_getD_wf (putLocal_getD_wf h2 _ _) _ _
theorem restoreCore_wf (x : Saved) (core : Nat) : (s.restoreCore x core).mem.wf = true := by
  unfold State.restoreCore
  grind [foldl_wf, modCore_mem, queueOp_wf]
theorem loadJob_wf (w : Switch) (asid : BitVec 16) (digest : BitVec 256) (cores : List Nat) : (s.loadJob w asid digest cores).mem.wf = true := by
  unfold State.loadJob
  grind [Mem.wf, foldl_wf, memWrite_wf, modMem_mem, restoreCore_wf]
theorem execJobSwitchComplete_wf : LeavesWf (execJobSwitchComplete s) := by
  unfold execJobSwitchComplete
  grind [leavesWf_next, loadJob_wf, saveJob_wf]

/-! ### The host's windows -/

theorem tellHost_wf (o : HostOut) : (s.tellHost o).mem.wf = true := h
theorem tlpPoisoned_wf : (s.tlpPoisoned).mem.wf = true := h
theorem mwDropped_wf : (s.mwDropped).mem.wf = true := h
theorem execMemoryWindowWrite_wf (off : Nat) (ep : Bool) (bytes : List Byte) : LeavesWf (execMemoryWindowWrite off ep bytes s) := by
  unfold execMemoryWindowWrite
  grind [foldl_wf, leavesWf_next, modDev_mem, modMem_mem, mwDropped_wf, obtainLine_wf, tlpPoisoned_wf, writeDram_wf]
theorem execMemoryWindowRead_wf (off len : Nat) : LeavesWf (execMemoryWindowRead off len s) := by
  unfold execMemoryWindowRead
  grind [foldl_wf, leavesWf_next, obtainLine_wf, tellHost_wf]
theorem amRefuse_wf (page reason : Nat) (word0 : Word) : (s.amRefuse page reason word0).mem.wf = true := h
theorem amBlock_wf (page : Nat) (b : Vector Word 8) : (s.amBlock page b).mem.wf = true := by
  unfold State.amBlock
  grind [amRefuse_wf, inject_wf, modDev_mem]
theorem execActiveMessageBlock_wf (page : Nat) (whole ep : Bool) (blocks : List (Vector Word 8)) :
    LeavesWf (execActiveMessageBlock page whole ep blocks s) := by
  unfold execActiveMessageBlock
  grind [amBlock_wf, amRefuse_wf, foldl_wf, leavesWf_next, refresh_mem, tlpPoisoned_wf]
theorem msixFlush_wf : (s.msixFlush).mem.wf = true := by
  unfold State.msixFlush
  grind [foldl_wf, msixSend_wf]
theorem execMsixUnmask_wf (vec : Nat) : LeavesWf (execMsixUnmask vec s) := by
  unfold execMsixUnmask
  grind [leavesWf_next, modDev_mem, msixFlush_wf]
theorem execCheckpoint_wf (v : Word) : LeavesWf (execCheckpoint v s) := by
  unfold execCheckpoint
  grind [ckptFails_wf, ckptStatus_wf, leavesWf_next, modDev_mem, takeLocal_wf]
theorem ckptSend_wf (c : Ckpt) (n : Nat) : (s.ckptSend c n).mem.wf = true := by
  unfold State.ckptSend
  grind [fabSend_mem, foldl_wf, modDev_mem]
theorem ckptRead_wf (n : Nat) : (s.ckptRead n).mem.wf = true := by
  unfold State.ckptRead
  grind [foldl_wf, obtainLine_wf]
theorem execCheckpointComplete_wf (ok : Bool) : LeavesWf (execCheckpointComplete ok s) := by
  unfold execCheckpointComplete
  grind [ckptFails_wf, ckptRead_wf, ckptSend_wf, ckptStatus_wf, leavesWf_next, modDev_mem, refresh_mem]
theorem execPcieLinkTraining_wf (rate width : Nat) : LeavesWf (execPcieLinkTraining rate width s) := by
  unfold execPcieLinkTraining
  grind [leavesWf_next, modDev_mem]
omit h in
theorem execPackageReset_wf : LeavesWf (execPackageReset s) := leavesWf_next.2 rfl

/-! ### Firmware and attestation -/

theorem bootFails_wf (reason : BitVec 8) : (bootFails s reason).mem.wf = true := h
theorem startService_wf (core : Nat) : (s.startService core).mem.wf = true := by
  unfold State.startService
  grind [bump_mem, modMem_mem, setCtx_mem, writeSp_wf]
theorem execBootgo_wf (v : Word) : LeavesWf (execBootgo v s) := by
  unfold execBootgo
  grind [leavesWf_next, modDev_mem]
theorem bootEnds_wf : (s.bootEnds).mem.wf = true := by
  unfold State.bootEnds
  grind [bootFails_wf, foldl_wf, modDev_mem, startService_wf]
theorem elapse_wf (n : Nat) : (elapse s n).mem.wf = true := by
  unfold elapse
  grind [bootEnds_wf, passTime_wf]
theorem execFirmwareReady_wf : LeavesWf (execFirmwareReady s) := by
  unfold execFirmwareReady
  extract_lets kept s1 s2 s3
  have h2 : s2.mem.wf = true := filter_wf _ h
  have h3 : s3.mem.wf = true := foldl_wf (fun t c ht => by rwa [modCore_mem]) _ h2
  refine leavesWf_ite (leavesWf_next.2 h) (leavesWf_next.2 ?_)
  rwa [modDev_mem]
theorem execSvnburn_wf (v : Word) : LeavesWf (execSvnburn v s) := by
  unfold execSvnburn
  grind [leavesWf_next, modDev_mem]
theorem execAttestationGo_wf (v : Word) : LeavesWf (execAttestationGo v s) := by
  unfold execAttestationGo
  grind [leavesWf_next, modDev_mem]
theorem execAttestationDone_wf : LeavesWf (execAttestationDone s) := by
  unfold execAttestationDone
  grind [leavesWf_next, modDev_mem, refresh_mem]

/-! ### The control window -/

theorem clearReg_wf (off : Nat) : (s.clearReg off).mem.wf = true := by
  have dev (f : Device → Device) : (s.modDev f).mem.wf = true := h
  have ph (f : Photonic → Photonic) : (s.modPh f).mem.wf = true := h
  unfold State.clearReg
  exact wf_ite (dev _) <| wf_ite (dev _) <| wf_ite (dev _) <| wf_ite (dev _) <| wf_ite h <| wf_ite h <| wf_ite (ph _) <| wf_ite (ph _) <|
    wf_ite (ph _) <| wf_ite h h
theorem execReadClear_wf (off : Nat) : LeavesWf (execReadClear off s) := by
  unfold execReadClear
  grind [clearReg_wf, leavesWf_next, refresh_mem, tellHost_wf]
theorem writeDevice_wf (off : Nat) (v : Word) : LeavesWf (s.writeDevice off v) := by
  have kept (f : Device → Device) : LeavesWf (.next (s.modDev f)) := leavesWf_next.2 h
  unfold State.writeDevice
  exact leavesWf_ite (execLaunch_wf h v) <| leavesWf_ite (execJobend_wf h v) <| leavesWf_ite (kept _) <| leavesWf_ite (execJobSwitch_wf h v) <|
    leavesWf_ite (kept _) <| leavesWf_ite (kept _) <| leavesWf_ite (kept _) <| leavesWf_ite (kept _) <| leavesWf_ite (kept _) <|
    leavesWf_ite (execCheckpoint_wf h v) (leavesWf_next.2 h)
theorem writeIdentity_wf (off : Nat) (v : Word) : LeavesWf (s.writeIdentity off v) := by
  unfold State.writeIdentity
  grind [execAttestationGo_wf, execBootgo_wf, execSvnburn_wf, leavesWf_next, modDev_mem]
theorem writeWindow_wf (k i : Nat) (v : Word) : LeavesWf (s.writeWindow k i v) := by
  unfold State.writeWindow
  grind [execDeadlineWrite_wf, execTransientRearm_wf, leavesWf_next, modWindow_wf]
theorem writeMemory_wf (off : Nat) (v : Word) : LeavesWf (s.writeMemory off v) := by
  unfold State.writeMemory
  grind [Mem.wf, execPageMove_wf, execXinv_wf, leavesWf_next, modMem_mem, writeWindow_wf]
theorem writeMsix_wf (off : Nat) (v : Word) : LeavesWf (s.writeMsix off v) := by
  unfold State.writeMsix
  grind [execMsixUnmask_wf, leavesWf_next, modDev_mem]
theorem writeThermal_wf (off : Nat) (v : Word) : LeavesWf (s.writeThermal off v) := by
  unfold State.writeThermal
  grind [execLaserRelight_wf, execThringWrite_wf, leavesWf_next, modPh_mem]
theorem writeEngine_wf (e off : Nat) (v : Word) : (s.writeEngine e off v).mem.wf = true := by
  unfold State.writeEngine
  grind [modDeck_mem, modEngine_mem, trimPut_wf]
theorem writeFabric_wf (off : Nat) (v : Word) : (s.writeFabric off v).mem.wf = true := by
  unfold State.writeFabric
  grind [modFab_mem, modFam_mem, modPort_mem]
theorem writeReg_wf (off : Nat) (v : Word) : LeavesWf (s.writeReg off v) := by
  have same : LeavesWf (.next s) := leavesWf_next.2 h
  have flush : LeavesWf (.next ((s.modDev (fun d => { d with msixEnable := v.getLsbD 15, msixFunctionMask := v.getLsbD 14 })).msixFlush)) :=
    leavesWf_next.2 (msixFlush_wf h)
  unfold State.writeReg
  exact leavesWf_ite same <| leavesWf_ite (writeDevice_wf h off v) <| leavesWf_ite (writeIdentity_wf h _ v) <|
    leavesWf_ite (writeMemory_wf h _ v) <| leavesWf_ite (execSemvalWrite_wf h _ v) <| leavesWf_ite (execSemincWrite_wf h _ v) <|
    leavesWf_ite (writeMsix_wf h _ v) <| leavesWf_ite (writeThermal_wf h _ v) <|
    leavesWf_ite (leavesWf_next.2 (writeEngine_wf h _ _ v)) <| leavesWf_ite (leavesWf_next.2 (writeFabric_wf h _ v)) <| leavesWf_ite flush same
theorem execRegisterWrite_wf (off : Nat) (ep : Bool) (v : Word) : LeavesWf (execRegisterWrite off ep v s) := by
  unfold execRegisterWrite
  grind [leavesWf_next, modDev_mem, tlpPoisoned_wf, writeReg_wf]

/-! ### Scalar floating point -/

theorem setF_wf (d : Reg) (t r : Fld3) (x : FVal × BitVec 5) : LeavesWf (setF s d t r x) := leavesWf_next.2 h
theorem setFlagged_wf (d : Reg) (x : Nat × BitVec 5) : LeavesWf (setFlagged s d x) := leavesWf_next.2 h
theorem setInt_wf (d : Reg) (r : Fld3) (lo hi : Int) (x : FVal) : LeavesWf (setInt s d r lo hi x) := leavesWf_next.2 h

/-! ### Vectors -/

theorem vLanes_wf (d : Reg) (mask : Word) (t : Nat) (f : Nat → Word → Nat × BitVec 5 × Word) :
    LeavesWf (vLanes s d mask t f) := leavesWf_next.2 h
theorem vBoth_wf (d a b : Reg) (m t : Fld3) (f : FVal → FVal → FVal × BitVec 5) (g : Int → Int → Int) :
    LeavesWf (vBoth s d a b m t f g) := leavesWf_next.2 h
theorem vBits_wf (d a b : Reg) (m t : Fld3) (f : Nat → Nat → Nat × BitVec 5) : LeavesWf (vBits s d a b m t f) := leavesWf_next.2 h
theorem vNatural_wf (d a b : Reg) (m t : Fld3) (g : Int → Int → Int) : LeavesWf (vNatural s d a b m t g) := leavesWf_next.2 h
theorem execVadd_wf (d a b : Reg) (m t : Fld3) : LeavesWf (execVadd d a b m t s) := vBoth_wf h _ _ _ _ _ _ _
theorem execVsub_wf (d a b : Reg) (m t : Fld3) : LeavesWf (execVsub d a b m t s) := vBoth_wf h _ _ _ _ _ _ _
theorem execVmul_wf (d a b : Reg) (m t : Fld3) : LeavesWf (execVmul d a b m t s) := vBoth_wf h _ _ _ _ _ _ _
theorem execVdiv_wf (d a b : Reg) (m t : Fld3) : LeavesWf (execVdiv d a b m t s) := vBoth_wf h _ _ _ _ _ _ _
theorem execVsqrt_wf (d a : Reg) (m t : Fld3) : LeavesWf (execVsqrt d a m t s) := vBoth_wf h _ _ _ _ _ _ _
theorem vMinMax_wf (d a b : Reg) (m t : Fld3) (wantMax : Bool) : LeavesWf (vMinMax s d a b m t wantMax) := leavesWf_next.2 h
theorem execVmin_wf (d a b : Reg) (m t : Fld3) : LeavesWf (execVmin d a b m t s) := vMinMax_wf h _ _ _ _ _ _
theorem execVmax_wf (d a b : Reg) (m t : Fld3) : LeavesWf (execVmax d a b m t s) := vMinMax_wf h _ _ _ _ _ _
theorem execVminn_wf (d a b : Reg) (m t : Fld3) : LeavesWf (execVminn d a b m t s) := vNatural_wf h _ _ _ _ _ _
theorem execVmaxn_wf (d a b : Reg) (m t : Fld3) : LeavesWf (execVmaxn d a b m t s) := vNatural_wf h _ _ _ _ _ _
theorem execVabs_wf (d a : Reg) (m t : Fld3) : LeavesWf (execVabs d a m t s) := leavesWf_next.2 h
theorem execVneg_wf (d a : Reg) (m t : Fld3) : LeavesWf (execVneg d a m t s) := leavesWf_next.2 h
theorem execVadds_wf (d a b : Reg) (m t : Fld3) : LeavesWf (execVadds d a b m t s) := leavesWf_next.2 h
theorem execVsubs_wf (d a b : Reg) (m t : Fld3) : LeavesWf (execVsubs d a b m t s) := leavesWf_next.2 h
theorem execVaddsn_wf (d a b : Reg) (m t : Fld3) : LeavesWf (execVaddsn d a b m t s) := vNatural_wf h _ _ _ _ _ _
theorem execVsubsn_wf (d a b : Reg) (m t : Fld3) : LeavesWf (execVsubsn d a b m t s) := vNatural_wf h _ _ _ _ _ _
theorem execVand_wf (d a b : Reg) (m t : Fld3) : LeavesWf (execVand d a b m t s) := vBits_wf h _ _ _ _ _ _
theorem execVor_wf (d a b : Reg) (m t : Fld3) : LeavesWf (execVor d a b m t s) := vBits_wf h _ _ _ _ _ _
theorem execVxor_wf (d a b : Reg) (m t : Fld3) : LeavesWf (execVxor d a b m t s) := vBits_wf h _ _ _ _ _ _
theorem execVsll_wf (d a b : Reg) (m t : Fld3) : LeavesWf (execVsll d a b m t s) := vBits_wf h _ _ _ _ _ _
theorem execVsrl_wf (d a b : Reg) (m t : Fld3) : LeavesWf (execVsrl d a b m t s) := vBits_wf h _ _ _ _ _ _
theorem execVsra_wf (d a b : Reg) (m t : Fld3) : LeavesWf (execVsra d a b m t s) := leavesWf_next.2 h
theorem execVmov_wf (d a : Reg) (m t : Fld3) : LeavesWf (execVmov d a m t s) := vBits_wf h _ _ _ _ _ _
theorem execVsplat_wf (d a : Reg) (m t : Fld3) : LeavesWf (execVsplat d a m t s) := vBits_wf h _ _ _ _ _ _
theorem vFused_wf (d a b : Reg) (m t : Fld3) (negProd negAcc : Bool) : LeavesWf (vFused s d a b m t negProd negAcc) := leavesWf_next.2 h
theorem execVfma_wf (d a b : Reg) (m t : Fld3) : LeavesWf (execVfma d a b m t s) := vFused_wf h _ _ _ _ _ _ _
theorem execVfms_wf (d a b : Reg) (m t : Fld3) : LeavesWf (execVfms d a b m t s) := vFused_wf h _ _ _ _ _ _ _
theorem execVfnma_wf (d a b : Reg) (m t : Fld3) : LeavesWf (execVfnma d a b m t s) := vFused_wf h _ _ _ _ _ _ _
theorem execVfnms_wf (d a b : Reg) (m t : Fld3) : LeavesWf (execVfnms d a b m t s) := vFused_wf h _ _ _ _ _ _ _
theorem execVmac_wf (d a b : Reg) (m t : Fld3) : LeavesWf (execVmac d a b m t s) := leavesWf_next.2 h
theorem vCompare_wf (d : Fld3) (a b : Reg) (m t : Fld3) (f : FVal → FVal → Bool × BitVec 5) (g : Nat → Nat → Bool) :
    LeavesWf (vCompare s d a b m t f g) := leavesWf_next.2 h
theorem execVceq_wf (d : Fld3) (a b : Reg) (m t : Fld3) : LeavesWf (execVceq d a b m t s) := vCompare_wf h _ _ _ _ _ _ _
theorem execVcne_wf (d : Fld3) (a b : Reg) (m t : Fld3) : LeavesWf (execVcne d a b m t s) := vCompare_wf h _ _ _ _ _ _ _
theorem execVclt_wf (d : Fld3) (a b : Reg) (m t : Fld3) : LeavesWf (execVclt d a b m t s) := vCompare_wf h _ _ _ _ _ _ _
theorem execVcle_wf (d : Fld3) (a b : Reg) (m t : Fld3) : LeavesWf (execVcle d a b m t s) := vCompare_wf h _ _ _ _ _ _ _
theorem execVcltn_wf (d : Fld3) (a b : Reg) (m t : Fld3) : LeavesWf (execVcltn d a b m t s) := vCompare_wf h _ _ _ _ _ _ _
theorem execVclen_wf (d : Fld3) (a b : Reg) (m t : Fld3) : LeavesWf (execVclen d a b m t s) := vCompare_wf h _ _ _ _ _ _ _
theorem execVcun_wf (d : Fld3) (a b : Reg) (m t : Fld3) : LeavesWf (execVcun d a b m t s) := vCompare_wf h _ _ _ _ _ _ _
theorem execVsel_wf (d a b : Reg) (m t : Fld3) : LeavesWf (execVsel d a b m t s) := leavesWf_next.2 h
theorem setM_wf (d : Fld3) (x : Word) : LeavesWf (setM s d x) := leavesWf_next.2 h
theorem execVperm_wf (d a b : Reg) (m t : Fld3) : LeavesWf (execVperm d a b m t s) := leavesWf_next.2 h
theorem execVzip_wf (d a b : Reg) (m t : Fld3) : LeavesWf (execVzip d a b m t s) := leavesWf_next.2 h
theorem execVunzip_wf (d a b : Reg) (m t : Fld3) : LeavesWf (execVunzip d a b m t s) := leavesWf_next.2 h
theorem execVrotl_wf (d a b : Reg) (m t : Fld3) : LeavesWf (execVrotl d a b m t s) := leavesWf_next.2 h
theorem execVext_wf (d a b : Reg) (t : Fld3) : LeavesWf (execVext d a b t s) := leavesWf_next.2 h
theorem execVins_wf (d a b : Reg) (t : Fld3) : LeavesWf (execVins d a b t s) := leavesWf_next.2 h
theorem vReduce_wf (d a : Reg) (m t : Fld3) (op : Nat → Nat → Word → Nat × BitVec 5 × Word) (ident : Nat) :
    LeavesWf (vReduce s d a m t op ident) := leavesWf_next.2 h
theorem execVrsum_wf (d a : Reg) (m t : Fld3) : LeavesWf (execVrsum d a m t s) := vReduce_wf h _ _ _ _ _ _
theorem vExtreme_wf (d a : Reg) (m t : Fld3) (wantMax : Bool) : LeavesWf (vExtreme s d a m t wantMax) := leavesWf_next.2 h
theorem execVrmin_wf (d a : Reg) (m t : Fld3) : LeavesWf (execVrmin d a m t s) := vExtreme_wf h _ _ _ _ _
theorem execVrmax_wf (d a : Reg) (m t : Fld3) : LeavesWf (execVrmax d a m t s) := vExtreme_wf h _ _ _ _ _
theorem execVrand_wf (d a : Reg) (m t : Fld3) : LeavesWf (execVrand d a m t s) := vReduce_wf h _ _ _ _ _ _
theorem execVror_wf (d a : Reg) (m t : Fld3) : LeavesWf (execVror d a m t s) := vReduce_wf h _ _ _ _ _ _
theorem execVrxor_wf (d a : Reg) (m t : Fld3) : LeavesWf (execVrxor d a m t s) := vReduce_wf h _ _ _ _ _ _
theorem vConvert_wf (d a : Reg) (ts m td r : Fld3) (sat : Bool) : LeavesWf (vConvert s d a ts m td r sat) := by
  unfold vConvert
  grind [leavesWf_next, trapNow_wf, vLanes_wf]
theorem execVcvt_wf (d a : Reg) (ts m td r : Fld3) : LeavesWf (execVcvt d a ts m td r s) := vConvert_wf h _ _ _ _ _ _ _
theorem execVcvts_wf (d a : Reg) (ts m td r : Fld3) : LeavesWf (execVcvts d a ts m td r s) := vConvert_wf h _ _ _ _ _ _ _
theorem execVqnt_wf (d a : Reg) (ix : BitVec 4) (m t r : Fld3) : LeavesWf (execVqnt d a ix m t r s) := by
  unfold execVqnt
  grind [leavesWf_next, readNow_wf, retireWith_mem, trapNow_wf]
theorem execVdqnt_wf (d a : Reg) (ix : BitVec 4) (m t r : Fld3) : LeavesWf (execVdqnt d a ix m t r s) := by
  unfold execVdqnt
  grind [leavesWf_next, trapNow_wf, vLanes_wf]
theorem execVdot_wf (d a b : Reg) (m t : Fld3) : LeavesWf (execVdot d a b m t s) := leavesWf_next.2 h
theorem execVdotSp_wf (d a b : Reg) (m t : Fld3) : LeavesWf (execVdotSp d a b m t s) := by
  unfold execVdotSp
  grind [leavesWf_next, trapNow_wf, vLanes_wf]

/-! ### Every instruction and event -/

/-- The meaning of every instruction and event leaves memory canonical. -/
theorem exec_wf (i : Instr) : LeavesWf (exec i s) := by
  cases i with
  | add | sub | and | or | xor | andn | nor | xnor | slt | sltn | min | max | minn | maxn | sll | srl | sra | ror | mul | mulh
      | mulhn | div | divn | rem | remn | clz | ctz | popc | sxb | sxh | sxw | qrd | slli | srli | srai | rori | addp | subp
      | tagget | tagset | pclr | mget | mpopc | fclass => exact setG_wf h _ _
  | addi => exact immAddi_wf h _ _ _
  | andi => exact immAndi_wf h _ _ _
  | ori => exact immOri_wf h _ _ _
  | xori => exact immXori_wf h _ _ _
  | slti => exact immSlti_wf h _ _ _
  | sltni => exact immSltni_wf h _ _ _
  | muli => exact immMuli_wf h _ _ _
  | movi => exact immMovi_wf h _ 0 _
  | movh => exact immMovh_wf h _ _ _
  | addpi => exact immAddpi_wf h _ _ _
  | ldB | ldBn | ldH | ldHn | ldW | ldWn | ldD => exact loadG_wf h _ _ _ _ _ _
  | stB | stH | stW | stD => exact storeG_wf h _ _ _ _ _
  | vld => exact loadV_wf h _ _ _ _
  | vst => exact storeV_wf h _ _ _ _
  | ldAcq => exact issueLoad_wf h _ _ _ _ _ _
  | prefResPin | prefResUnpin => exact prefRes_wf h _ _ _ _
  | atomAdd | atomAnd | atomOr | atomXor | atomSwap | atomCas | atomMin | atomMax | atomMinn | atomMaxn | atomFadd =>
    exact atomOp_wf h _ _ _ _ _ _
  | brEq | brNe | brLt | brGe | brLtn | brGen => exact branch_wf h _ _
  | j | jl => exact jump_wf h _ _
  | jr | jlr => exact jumpReg_wf h _ _
  | send | sendC => exact sendOp_wf h _
  | chen | chdis | chpri => exact chanOp_wf h _ _ _
  | mand | mor | mxor | mandn | mnot | mset => exact setM_wf h _ _
  | fadd | fsub | fmul | fdiv | fsqrt | fma | itof | ntof | fcvt => exact setF_wf h _ _ _ _
  | fmin | fmax | fceq | fclt | fcle | fabs | fneg => exact setFlagged_wf h _ _
  | ftoi | fton => exact setInt_wf h _ _ _ _ _
  | cpy | cpyX | cpySp | cpyR | cpyF | mmx | mmxA | phld | phdec | phswp | phres | phdrop | tcopy | tcopyBp | tcopyAcc | circ
      | circT | famwr => exact issueOp_wf h _ _ _ _ _ _ _ _
  | gjoin | gleave | cred | cbcast | cgath | crscat | ca2a => exact issueColl_wf h _ _ _ _ _ _ _ _
  | wwr => exact execWwr_wf h _ _
  | wclr => exact execWclr_wf h
  | stRel => exact execStRel_wf h _ _ _ _
  | vldf => exact execVldf_wf h _ _ _
  | vstf => exact execVstf_wf h _ _ _
  | pref => exact execPref_wf h _ _
  | fence => exact execFence_wf h _ _
  | l1inv => exact execL1inv_wf h _ _
  | l1wb => exact execL1wb_wf h _ _
  | rpt => exact execRpt_wf h _ _ _ _ _
  | waitc => exact execWaitc_wf h _ _ _ _
  | start => exact execStart_wf h _ _
  | spawn => exact execSpawn_wf h _ _
  | endAct => exact execEndAct_wf h
  | yield => exact execYield_wf h
  | migr => exact execMigr_wf h _
  | align => exact execAlign_wf h
  | ralloc => exact execRalloc_wf h _ _ _
  | rfree => exact execRfree_wf h _
  | tkill => exact execTkill_wf h _
  | sysrd => exact execSysrd_wf h _ _
  | syswr => exact execSyswr_wf h _ _
  | trap => exact execTrap_wf h _
  | irq => exact execIrq_wf h _
  | vadd => exact execVadd_wf h _ _ _ _ _
  | vsub => exact execVsub_wf h _ _ _ _ _
  | vmul => exact execVmul_wf h _ _ _ _ _
  | vmin => exact execVmin_wf h _ _ _ _ _
  | vmax => exact execVmax_wf h _ _ _ _ _
  | vabs => exact execVabs_wf h _ _ _ _
  | vneg => exact execVneg_wf h _ _ _ _
  | vdiv => exact execVdiv_wf h _ _ _ _ _
  | vsqrt => exact execVsqrt_wf h _ _ _ _
  | vminn => exact execVminn_wf h _ _ _ _ _
  | vmaxn => exact execVmaxn_wf h _ _ _ _ _
  | vadds => exact execVadds_wf h _ _ _ _ _
  | vsubs => exact execVsubs_wf h _ _ _ _ _
  | vaddsn => exact execVaddsn_wf h _ _ _ _ _
  | vsubsn => exact execVsubsn_wf h _ _ _ _ _
  | vand => exact execVand_wf h _ _ _ _ _
  | vor => exact execVor_wf h _ _ _ _ _
  | vxor => exact execVxor_wf h _ _ _ _ _
  | vsll => exact execVsll_wf h _ _ _ _ _
  | vsrl => exact execVsrl_wf h _ _ _ _ _
  | vsra => exact execVsra_wf h _ _ _ _ _
  | vmov => exact execVmov_wf h _ _ _ _
  | vsplat => exact execVsplat_wf h _ _ _ _
  | vfma => exact execVfma_wf h _ _ _ _ _
  | vfms => exact execVfms_wf h _ _ _ _ _
  | vfnma => exact execVfnma_wf h _ _ _ _ _
  | vfnms => exact execVfnms_wf h _ _ _ _ _
  | vmac => exact execVmac_wf h _ _ _ _ _
  | vceq => exact execVceq_wf h _ _ _ _ _
  | vcne => exact execVcne_wf h _ _ _ _ _
  | vclt => exact execVclt_wf h _ _ _ _ _
  | vcle => exact execVcle_wf h _ _ _ _ _
  | vcltn => exact execVcltn_wf h _ _ _ _ _
  | vclen => exact execVclen_wf h _ _ _ _ _
  | vcun => exact execVcun_wf h _ _ _ _ _
  | vsel => exact execVsel_wf h _ _ _ _ _
  | vperm => exact execVperm_wf h _ _ _ _ _
  | vzip => exact execVzip_wf h _ _ _ _ _
  | vunzip => exact execVunzip_wf h _ _ _ _ _
  | vrotl => exact execVrotl_wf h _ _ _ _ _
  | vext => exact execVext_wf h _ _ _ _
  | vins => exact execVins_wf h _ _ _ _
  | vrsum => exact execVrsum_wf h _ _ _ _
  | vrmin => exact execVrmin_wf h _ _ _ _
  | vrmax => exact execVrmax_wf h _ _ _ _
  | vrand => exact execVrand_wf h _ _ _ _
  | vror => exact execVror_wf h _ _ _ _
  | vrxor => exact execVrxor_wf h _ _ _ _
  | vcvt => exact execVcvt_wf h _ _ _ _ _ _
  | vcvts => exact execVcvts_wf h _ _ _ _ _ _
  | vqnt => exact execVqnt_wf h _ _ _ _ _ _
  | vdqnt => exact execVdqnt_wf h _ _ _ _ _ _
  | vdot => exact execVdot_wf h _ _ _ _ _
  | vdotSp => exact execVdotSp_wf h _ _ _ _ _
  | dtwr => exact execDtwr_wf h _ _
  | dtrd => exact execDtrd_wf h _ _
  | ftwr => exact execFtwr_wf h _ _
  | ftrd => exact execFtrd_wf h _ _
  | dtmode => exact execDtmode_wf h _
  | twait => exact execTwait_wf h _ _
  | tstat => exact execTstat_wf h _ _
  | tstatR => exact execTstatR_wf h _ _
  | tcancel => exact execTcancel_wf h _
  | tfence => exact execTfence_wf h _
  | tresume => exact execTresume_wf h _
  | trec => exact execTrec_wf h _ _
  | tdet => exact execTdet_wf h _
  | binit => exact execBinit_wf h _ _
  | barr => exact execBarr_wf h _ _
  | bwait => exact execBwait_wf h _ _
  | bnote => exact execBnote_wf h _ _
  | bwdraw => exact execBwdraw_wf h _
  | bstat => exact execBstat_wf h _ _
  | bbytes => exact execBbytes_wf h _ _
  | blink => exact execBlink_wf h _ _
  | bbind => exact execBbind_wf h _ _
  | semadd => exact execSemadd_wf h _ _
  | semset => exact execSemset_wf h _ _
  | semrd => exact execSemrd_wf h _ _
  | semwait => exact execSemwait_wf h _ _
  | semwaitN => exact execSemwaitN_wf h _ _ _
  | pgate => exact execPgate_wf h _ _ _ _ _ _ _
  | pwake => exact execPwake_wf h _ _ _ _ _ _ _
  | ext => exact execExt_wf h _
  | lateStoreFault => exact execLateStoreFault_wf h _ _
  | deferredFault => exact execDeferredFault_wf h _
  | budgetExpiry => exact execBudgetExpiry_wf h _
  | waittimeExpiry => exact execWaittimeExpiry_wf h _
  | messageArrival => exact execMessageArrival_wf h _
  | channelSelection => exact execChannelSelection_wf h _
  | spillActivation => exact execSpillActivation_wf h _
  | replayActivation => exact execReplayActivation_wf h _
  | atomicHandlerActivation => exact execAtomicHandlerActivation_wf h _
  | loadReply => exact execLoadReply_wf h _ _
  | storeAck => exact execStoreAck_wf h _ _
  | forwardingEntryExpiry => exact execForwardingEntryExpiry_wf h _ _
  | alignRelease => exact execAlignRelease_wf h _
  | channelControlPacket => exact execChannelControlPacket_wf h _
  | remoteLoad => exact execRemoteLoad_wf h _
  | remoteStore => exact execRemoteStore_wf h _
  | storeBufferDrain => exact execStoreBufferDrain_wf h _ _
  | l2StoreAccept => exact execL2StoreAccept_wf h _
  | translationWalk => exact execTranslationWalk_wf h _ _ _
  | regionReclaim => exact execRegionReclaim_wf h _ _
  | builtinAtomic => exact execBuiltinAtomic_wf h _
  | atomicReply => exact execAtomicReply_wf h _ _
  | cohLocalRead => exact execCohLocalRead_wf h _
  | cohLocalWrite => exact execCohLocalWrite_wf h _
  | cohGets => exact execCohGets_wf h _ _
  | cohGetx => exact execCohGetx_wf h _ _
  | cohEviction => exact execCohEviction_wf h _ _ _ _
  | cohProbe => exact execCohProbe_wf h _ _
  | cohTransactionComplete => exact execCohTransactionComplete_wf h _ _ _
  | probeTimeout => exact execProbeTimeout_wf h _ _
  | xinv => exact execXinv_wf h _ _
  | xinvComplete => exact execXinvComplete_wf h
  | pageMove => exact execPageMove_wf h _
  | pageMoveCheck => exact execPageMoveCheck_wf h
  | transientDeadline => exact execTransientDeadline_wf h _
  | transientRearm => exact execTransientRearm_wf h _
  | deadlineWrite => exact execDeadlineWrite_wf h _ _
  | remapError => exact execRemapError_wf h _ _ _ _
  | refreshPreemption => exact execRefreshPreemption_wf h _
  | memoryEccError => exact execMemoryEccError_wf h _ _ _
  | rasFoldExpiry => exact execRasFoldExpiry_wf h _ _
  | copySchedule => exact execCopySchedule_wf h _
  | copyChunk => exact execCopyChunk_wf h _ _
  | copyBeat => exact execCopyBeat_wf h _ _ _
  | cancelAtEngine => exact execCancelAtEngine_wf h _ _
  | opTerminal => exact execOpTerminal_wf h _ _
  | engineInboxEntry => exact execEngineInboxEntry_wf h _ _
  | laneDispatch => exact execLaneDispatch_wf h _ _
  | migration => exact execMigration_wf h _ _ _
  | mmxCompletion => exact execMmxCompletion_wf h _
  | phldExecution => exact execPhldExecution_wf h _
  | phdecExecution => exact execPhdecExecution_wf h _
  | backBankLoad => exact execBackBankLoad_wf h _
  | phresExecution => exact execPhresExecution_wf h _
  | phswpExecution => exact execPhswpExecution_wf h _
  | phdropExecution => exact execPhdropExecution_wf h _
  | tcopyBpExecution => exact execTcopyBpExecution_wf h _
  | tcopyAccExecution => exact execTcopyAccExecution_wf h _
  | trimApply => exact execTrimApply_wf h _
  | deckStateApply => exact execDeckStateApply_wf h _ _
  | probeCalibration => exact execProbeCalibration_wf h _ _ _ _
  | matSwitchTimeout => exact execMatSwitchTimeout_wf h _ _
  | barrierEvent => exact execBarrierEvent_wf h _
  | parentFlip => exact execParentFlip_wf h _
  | groupExchangeRound => exact execGroupExchangeRound_wf h _ _ _ _ _ _
  | groupWithdrawal => exact execGroupWithdrawal_wf h _ _
  | collectiveStart => exact execCollectiveStart_wf h _
  | collectiveComplete => exact execCollectiveComplete_wf h _ _
  | collectiveDrainTimeout => exact execCollectiveDrainTimeout_wf h _ _
  | packetArrival => exact execPacketArrival_wf h _ _ _
  | packetAck => exact execPacketAck_wf h _ _
  | packetRetry => exact execPacketRetry_wf h _
  | packetLifetimeExpiry => exact execPacketLifetimeExpiry_wf h _
  | deadTagExpiry => exact execDeadTagExpiry_wf h _
  | circExecution => exact execCircExecution_wf h _ _
  | setupRequest => exact execSetupRequest_wf h _ _ _ _
  | setupAnswer => exact execSetupAnswer_wf h _ _ _
  | setupBackoffExpiry => exact execSetupBackoffExpiry_wf h _
  | circuitTrained => exact execCircuitTrained_wf h _ _
  | teardownReceived => exact execTeardownReceived_wf h _
  | circTExecution => exact execCircTExecution_wf h _ _
  | famwrExecution => exact execFamwrExecution_wf h _ _
  | drainMarkerAck => exact execDrainMarkerAck_wf h _ _
  | pgateExecution => exact execPgateExecution_wf h _ _
  | pwakeExecution => exact execPwakeExecution_wf h _ _
  | laserLoss => exact execLaserLoss_wf h _
  | laserRelight => exact execLaserRelight_wf h _
  | tkillPurge =>
    rw [exec_tkillPurge]
    exact execTkillPurge_wf h _ _
  | tkillComplete => exact execTkillComplete_wf h _
  | jobSwitch => exact execJobSwitch_wf h _
  | jobSwitchComplete => exact execJobSwitchComplete_wf h
  | launch =>
    rw [exec_launch]
    exact execLaunch_wf h _
  | jobend => exact execJobend_wf h _
  | activeMessageBlock => exact execActiveMessageBlock_wf h _ _ _ _
  | memoryWindowWrite => exact execMemoryWindowWrite_wf h _ _ _
  | memoryWindowRead => exact execMemoryWindowRead_wf h _ _
  | semUnitOp => exact execSemUnitOp_wf h _
  | semvalWrite => exact execSemvalWrite_wf h _ _
  | semincWrite => exact execSemincWrite_wf h _ _
  | msixUnmask => exact execMsixUnmask_wf h _
  | checkpoint => exact execCheckpoint_wf h _
  | checkpointComplete => exact execCheckpointComplete_wf h _
  | packageReset => exact execPackageReset_wf
  | pcieLinkTraining => exact execPcieLinkTraining_wf h _ _
  | monitorSample => exact execMonitorSample_wf h _ _ _
  | tempRecordTimer => exact execTempRecordTimer_wf h _
  | ringWrite => exact execRingWrite_wf h _ _ _ _
  | ringmoveWrite => exact execRingmoveWrite_wf h _ _ _
  | ringMoveApply => exact execRingMoveApply_wf h _ _
  | wearMove => exact execWearMove_wf h _ _ _ _
  | deckctlWrite => exact execDeckctlWrite_wf h _ _
  | powerAlert => exact execPowerAlert_wf h _
  | thringWrite => exact execThringWrite_wf h _
  | scrub => exact execScrub_wf h _ _ _
  | bootgo => exact execBootgo_wf h _
  | firmwareReady => exact execFirmwareReady_wf h
  | svnburn => exact execSvnburn_wf h _
  | attestationGo => exact execAttestationGo_wf h _
  | attestationDone => exact execAttestationDone_wf h
  | readClear => exact execReadClear_wf h _
  | registerWrite => exact execRegisterWrite_wf h _ _ _
  | illegalInstruction => exact execIllegalInstruction_wf h _
  | instructionFetchFault => exact execInstructionFetchFault_wf h _
  | laserModuleRelit => exact execLaserModuleRelit_wf h _

/-! ### The step -/

/-- An issue of a core keeps the form where what it executes does. -/
theorem issueFrom_wf {ex : Instr → State → Host.Outcome State Fault Refusal} (hex : ∀ i (t : State), t.mem.wf = true → LeavesWf (ex i t))
    (ks : List Nat) : LeavesWf (issueFrom ex s ks) := by
  induction ks generalizing s with
  | nil => exact leavesWf_next.2 h
  | cons k ks ih =>
    have hk := hex (nextInstr (atContext s k) k).2 _ (nextInstr_wf (atContext_wf h k) k)
    unfold issueFrom
    grind [LeavesWf, stillWaits_mem]
/-- A choice carried out keeps the form where what it executes does. -/
theorem perform_wf {ex : Instr → State → Host.Outcome State Fault Refusal} (hex : ∀ i (t : State), t.mem.wf = true → LeavesWf (ex i t))
    (a : Action) : LeavesWf (perform ex a s) := by
  cases a with
  | issue core => exact issueFrom_wf h hex _
  | tick n => exact leavesWf_next.2 (elapse_wf h n)
  | event i => exact leavesWf_ite (leavesWf_next.2 h) (hex i s h)
/-- A step keeps the form: the environment's choice, or the model's own after a cycle has passed. -/
theorem step_wf : LeavesWf (step s) := by
  unfold step takeStep
  split
  · refine perform_wf ?_ (fun i t ht => exec_wf ht i) _
    exact h
  · refine perform_wf (elapse_wf ?_ 1) (fun i t ht => exec_wf ht i) _
    exact h

end

/-- Settles O56: every operation that writes cells keeps the form, so every meaning does, and so does a step. -/
theorem stepsKeepMemoryCanonical : Obligations.StepsKeepMemoryCanonical :=
  fun _ _ hs e => step_wf hs _ e

end Sys2Proof.Proofs
end

section
/-!
System registers (R143, R144, R395) and IRQ (R390).
-/
namespace Sys2Proof.Proofs

open Sys2Proof.Machine Sys2Proof.Laws Sys2Proof.Claims

/-! ### What the memory side's own accesses leave -/

/-- Nothing has happened but on the memory side: memory, the packets of the fabric, and the numbers taken for them. -/
def OnMemorySide (s t : State) : Prop :=
  t = { s with sched := { s.sched with fresh := t.sched.fresh, nextId := t.sched.nextId }, mem := t.mem, fabric := t.fabric }

namespace OnMemorySide

theorem refl (s : State) : OnMemorySide s s := rfl
theorem trans {s t u : State} (h : OnMemorySide s t) (h' : OnMemorySide t u) : OnMemorySide s u := by
  unfold OnMemorySide at *
  rw [h', h]
theorem foldl {α : Type} {f : State → α → State} (hf : ∀ s a, OnMemorySide s (f s a)) (l : List α) (s : State) :
    OnMemorySide s (l.foldl f s) :=
  List.foldlRecOn (motive := fun t => OnMemorySide s t) l f (refl s) fun _ ht a _ => ht.trans (hf _ a)
theorem ite {s t u : State} {c : Prop} [Decidable c] (ht : OnMemorySide s t) (hu : OnMemorySide s u) :
    OnMemorySide s (if c then t else u) := by
  split <;> assumption
theorem modMem (s : State) (f : Mem → Mem) : OnMemorySide s (s.modMem f) := rfl
theorem refreshBy (s : State) (n : Nat) : OnMemorySide s (s.refreshBy n) := rfl
theorem refresh (s : State) : OnMemorySide s s.refresh := rfl
theorem fabSend (s : State) (asid : BitVec 16) (entry : Nat) (ordered : Bool) (bound : Option Nat) (key op : Nat) (b : FabOut) :
    OnMemorySide s (s.fabSend asid entry ordered bound key op b) := ite rfl rfl
theorem cohSend (s : State) (member : Nat) (b : FabOut) : OnMemorySide s (s.cohSend member b) :=
  foldl (fun s _ => fabSend s ..) _ _
theorem endTrans (s : State) (pa : Nat) : OnMemorySide s (s.endTrans pa) := rfl
theorem setLine (s : State) (pa state : Nat) (mask : BitVec 4) (owner : Nat) : OnMemorySide s (s.setLine pa state mask owner) := rfl
theorem lineData (s : State) (pa : Nat) (data : VWord) : OnMemorySide s (s.lineData pa data) := rfl
theorem evicted (s : State) (line : Nat) (x : RLine) : OnMemorySide s (s.evicted line x) := ite (refl s) (cohSend ..)
theorem copyPut (s : State) (pa : Nat) (x : RLine) : OnMemorySide s (s.copyPut pa x) := by
  unfold State.copyPut
  extract_lets t beside put
  have hput (kept : Tab RLine) : OnMemorySide s (put kept) := modMem ..
  clear_value put beside
  refine ite (hput _) ?_
  split
  · exact (hput _).trans (evicted ..)
  · exact hput _
theorem completeTrans (s : State) (t : Trans) (written : Bool) (data : VWord) : OnMemorySide s (s.completeTrans t written data) := by
  have he := endTrans s (t.line * 64)
  have back : OnMemorySide s ((s.endTrans (t.line * 64)).lineData (t.line * 64) data) := he.trans (lineData ..)
  have copy (x : RLine) : OnMemorySide s (((s.endTrans (t.line * 64)).copyPut (t.line * 64) x).refresh) :=
    (he.trans (copyPut ..)).trans (refresh _)
  unfold State.completeTrans
  split
  · exact (ite back he).trans (setLine ..)
  · exact (ite back he).trans (setLine ..)
  · exact copy _
  · exact copy _
  · exact (ite (he.trans (setLine ..)) (ite (he.trans (setLine ..)) (ite (he.trans (setLine ..)) (ite (he.trans (setLine ..)) he)))).trans
      (cohSend ..)
  · exact (he.trans (setLine ..)).trans (cohSend ..)
theorem settleLine (s : State) (line : Nat) : OnMemorySide s (s.settleLine line) := by
  unfold State.settleLine
  split
  · exact (completeTrans ..).trans (refreshBy ..)
  · exact refl s
theorem returned (s : State) (line : Nat) : OnMemorySide s (s.returned line) := rfl
theorem recallLine (s : State) (line : Nat) : OnMemorySide s (s.recallLine line) :=
  (settleLine s line).trans (ite (refl _) ((ite (refl _) (returned ..)).trans (modMem ..)))
theorem putLocal {s t : State} {a : Nat} {bytes : List Byte} (e : s.putLocal a bytes = some t) : OnMemorySide s t := by
  unfold State.putLocal at e
  dsimp only at e
  split at e
  · cases e
  · cases e
    exact (foldl (fun s l => recallLine s l) _ _).trans (modMem ..)

end OnMemorySide

/-! ### What a write of a photonic register leaves -/

/-- Every context is as it was, and the same one is at work. -/
def KeepsContexts (s t : State) : Prop := t.ctxs = s.ctxs ∧ t.sched.cur = s.sched.cur

namespace KeepsContexts

theorem refl (s : State) : KeepsContexts s s := ⟨rfl, rfl⟩
theorem trans {s t u : State} (h : KeepsContexts s t) (h' : KeepsContexts t u) : KeepsContexts s u :=
  ⟨h'.1.trans h.1, h'.2.trans h.2⟩
theorem ite {s t u : State} {c : Prop} [Decidable c] (ht : KeepsContexts s t) (hu : KeepsContexts s u) :
    KeepsContexts s (if c then t else u) := by
  split <;> assumption
theorem ctx {s t : State} (h : KeepsContexts s t) (k : Nat) : t.ctx k = s.ctx k := by rw [State.ctx, h.1]; rfl
theorem modPh (s : State) (f : Photonic → Photonic) : KeepsContexts s (s.modPh f) := ⟨rfl, rfl⟩
theorem modBank (s : State) (bk : Nat) (f : Bank → Bank) : KeepsContexts s (s.modBank bk f) := modPh ..
theorem modRing (s : State) (bk r : Nat) (f : Ring → Ring) : KeepsContexts s (s.modRing bk r f) := modPh ..
theorem putLocal {s t : State} {a : Nat} {bytes : List Byte} (e : s.putLocal a bytes = some t) : KeepsContexts s t := by
  rw [OnMemorySide.putLocal e]; exact ⟨rfl, rfl⟩
/-- A thermal record is written to memory, or counted as dropped. -/
theorem thPut (s : State) (ws : List Word) : KeepsContexts s (s.thPut ws) := by
  unfold State.thPut
  refine ite (refl s) (ite (modPh ..) ?_)
  split
  next e => exact (putLocal e).trans (modPh ..)
  next => exact modPh ..
theorem moveWave (s : State) (deck bank src dst : Nat) (wear : Bool) : KeepsContexts s (s.moveWave deck bank src dst wear) :=
  have moved := ((modRing s ..).trans (modRing ..)).trans (thPut ..)
  ite (moved.trans (thPut ..)) moved
theorem applyMove (s : State) (deck bank : Nat) : KeepsContexts s (s.applyMove deck bank) := by
  unfold State.applyMove
  refine ite ?_ ((modBank ..).trans (moveWave ..))
  split
  · exact ((modBank ..).trans (modPh ..)).trans (moveWave ..)
  · exact refl s
theorem abandonWear (s : State) (bk : Nat) : KeepsContexts s (s.abandonWear bk) := ite ((modBank ..).trans (modPh ..)) (refl s)
theorem ringPut (s : State) (deck bank ring : Nat) (v : Word) : KeepsContexts s (s.ringPut deck bank ring v) :=
  (abandonWear ..).trans (modRing ..)
theorem ringmovePut (s : State) (deck bank : Nat) (v : Word) : KeepsContexts s (s.ringmovePut deck bank v) := by
  unfold State.ringmovePut
  extract_lets bk f t s1 s2 s3
  have h2 : KeepsContexts s s2 := (abandonWear s bk).trans (ite (modBank ..) (refl _))
  have h3 : KeepsContexts s s3 := h2.trans (modBank ..)
  exact ite h2 (ite (ite (h3.trans (applyMove ..)) h3) (h2.trans (modBank ..)))

end KeepsContexts

/-! ### The accesses of a system register, and their privilege -/

theorem svNumber_iff (n : Nat) : svNumber n = true ↔ serviceNumber n := by
  simp [svNumber, serviceNumber, or_assoc]
/-- No access that meets its level is refused. -/
theorem not_privileged {n key : Nat} {s : State} (h : serviceNumber n → s.svc key = true) : (svNumber n && !s.svc key) = false := by
  by_cases hn : serviceNumber n
  · simp [h hn]
  · simp [mt (svNumber_iff n).mp hn]
theorem exec_sysrd_permitted (d : Reg) (n : BitVec 12) (s : State) (h : serviceNumber n.toNat → s.svc s.sched.cur = true) :
    exec (.sysrd d n) s = setG (s.sysClear s.myCore n.toNat) d (s.sysValue s.sched.cur n.toNat) := by
  rw [exec_sysrd, execSysrd, not_privileged h]; rfl
theorem exec_syswr_permitted (a : Reg) (n : BitVec 12) (s : State) (h : serviceNumber n.toNat → s.svc s.sched.cur = true) :
    exec (.syswr a n) s = .next (retire (s.sysPut s.sched.cur n.toNat (rdG s.me a))) := by
  rw [exec_syswr, execSyswr, not_privileged h]; rfl
theorem exec_sysrd_privileged (d : Reg) (n : BitVec 12) (s : State) (hn : serviceNumber n.toNat) (h : s.svc s.sched.cur = false) :
    exec (.sysrd d n) s = .next (trapNow s cPRIV) := by
  rw [exec_sysrd, execSysrd, (svNumber_iff _).mpr hn, h]; rfl
theorem exec_syswr_privileged (a : Reg) (n : BitVec 12) (s : State) (hn : serviceNumber n.toNat) (h : s.svc s.sched.cur = false) :
    exec (.syswr a n) s = .next (trapNow s cPRIV) := by
  rw [exec_syswr, execSyswr, (svNumber_iff _).mpr hn, h]; rfl

/-! ### Reads -/

/-- A job-level register is no service register, and reads as the model has it. -/
theorem jobRegister_eq_some {s : State} {n : Nat} {x : Word} (h : jobRegister s n = some x) :
    x = s.sysValue s.sched.cur n ∧ ¬ serviceNumber n := by
  unfold jobRegister at h
  split at h
  case h_22 => cases h
  all_goals
    cases h
    exact ⟨rfl, by unfold serviceNumber; omega⟩
/-- A read clears counters of its core alone. -/
theorem sysClear_frame (s : State) (c n : Nat) : s.sysClear c n = { s with cores := (s.sysClear c n).cores } := by
  unfold State.sysClear
  repeat' split
  all_goals rfl
/-- A read of a job-level register clears HINTDROP, where it is the one read. -/
theorem sysClear_core (s : State) (c n : Nat) (h : ¬ serviceNumber n) :
    (s.sysClear c n).core c = { s.core c with hintDrop := if n = 0x028 then 0 else (s.core c).hintDrop } := by
  obtain ⟨h0, h1, h2⟩ : n ≠ 0x800 ∧ n ≠ 0x801 ∧ n ≠ 0x802 := by unfold serviceNumber at h; omega
  unfold State.sysClear
  by_cases hn : n = 0x028
  · rw [if_pos hn, core_modCore, if_pos rfl, if_pos hn]
  · rw [if_neg hn, if_neg h0, if_neg h1, if_neg h2, if_neg hn]
/-- A permitted read ends with the value in its register. -/
theorem sysrd_ends (d : Reg) (n : BitVec 12) (s : State) (h : serviceNumber n.toNat → s.svc s.sched.cur = true) :
    ∃ t, exec (.sysrd d n) s = .next t ∧ t = { s.sysClear s.myCore n.toNat with ctxs := t.ctxs } ∧
      (∀ k, k ≠ s.sched.cur → t.ctx k = s.ctx k) ∧
      (∀ r, rdG t.me r = if r = d ∧ d ≠ 0 then s.sysValue s.sched.cur n.toNat else rdG s.me r) ∧
      t.me = { advance (settled s.me) with g := t.me.g } := by
  obtain ⟨t, ht, hs, hk, hr, hme⟩ := setG_next (s.sysClear s.myCore n.toNat) d (s.sysValue s.sched.cur n.toNat)
  rw [sysClear_frame] at hk hr hme
  exact ⟨t, (exec_sysrd_permitted d n s h).trans ht, hs, hk, hr, hme⟩

/-! ### Writes -/

theorem ended_waitLimit (c : Ctx) (w : BitVec 32) :
    advance (settled { c with waitLimit := w }) = { advance (settled c) with waitLimit := w } := by
  unfold advance settled; grind
theorem ended_fflags (c : Ctx) (f : BitVec 5) : advance (settled { c with fflags := f }) = { advance (settled c) with fflags := f } := by
  unfold advance settled; grind
theorem ended_frm (c : Ctx) (r : BitVec 3) : advance (settled { c with frm := r }) = { advance (settled c) with frm := r } := by
  unfold advance settled; grind
theorem ended_seed (c : Ctx) (x : Word) : advance (settled { c with seed := x }) = { advance (settled c) with seed := x } := by
  unfold advance settled; grind
/-- The four registers of a context that SYSWR sets: an instruction's end neither reads nor changes them. -/
theorem ended_written (c : Ctx) (w : BitVec 32) (f : BitVec 5) (r : BitVec 3) (x : Word) :
    advance (settled { c with waitLimit := w, fflags := f, frm := r, seed := x }) =
      { advance (settled c) with waitLimit := w, fflags := f, frm := r, seed := x } := by
  rw [ended_seed { c with waitLimit := w, fflags := f, frm := r }, ended_frm { c with waitLimit := w, fflags := f },
    ended_fflags { c with waitLimit := w }, ended_waitLimit]
/-- The context at work, after its instruction ends with a change of it. -/
theorem retire_modCtx_me (s : State) (f : Ctx → Ctx) : (retire (s.modCtx s.sched.cur f)).me = advance (settled (f s.me)) :=
  (retire_me _).trans (by simp [State.me])
/-- A write of a system register leaves the other contexts, and all of its own but four registers. -/
theorem sysPut_contexts (s : State) (key n : Nat) (v : Word) :
    (s.sysPut key n v).sched.cur = s.sched.cur ∧ (∀ k, k ≠ key → (s.sysPut key n v).ctx k = s.ctx k) ∧
      ∃ w f r x, (s.sysPut key n v).ctx key = { s.ctx key with waitLimit := w, fflags := f, frm := r, seed := x } := by
  have kept {t : State} (h : KeepsContexts s t) : t.sched.cur = s.sched.cur ∧ (∀ k, k ≠ key → t.ctx k = s.ctx k) ∧
      ∃ w f r x, t.ctx key = { s.ctx key with waitLimit := w, fflags := f, frm := r, seed := x } :=
    ⟨h.2, fun k _ => h.ctx k, _, _, _, _, h.ctx key⟩
  have own (f : Ctx → Ctx) (hf : ∀ c, ∃ w g r x, f c = { c with waitLimit := w, fflags := g, frm := r, seed := x }) :
      (s.modCtx key f).sched.cur = s.sched.cur ∧ (∀ k, k ≠ key → (s.modCtx key f).ctx k = s.ctx k) ∧
      ∃ w g r x, (s.modCtx key f).ctx key = { s.ctx key with waitLimit := w, fflags := g, frm := r, seed := x } :=
    ⟨rfl, fun k hk => by simp [Ne.symm hk], by simpa using hf (s.ctx key)⟩
  unfold State.sysPut
  dsimp only
  split
  · split <;> exact kept ⟨rfl, rfl⟩
  split
  · exact kept (KeepsContexts.ringPut ..)
  split
  case h_1 | h_2 | h_3 | h_4 => exact own _ fun c => ⟨_, _, _, _, rfl⟩
  case h_8 => exact kept (KeepsContexts.ringmovePut ..)
  all_goals exact kept ⟨rfl, rfl⟩
/-- A permitted write ends. -/
theorem syswr_ends (a : Reg) (n : BitVec 12) (s : State) (h : serviceNumber n.toNat → s.svc s.sched.cur = true) :
    ∃ t, exec (.syswr a n) s = .next t ∧ (∀ k, k ≠ s.sched.cur → t.ctx k = s.ctx k) ∧
      t.me = { advance (settled s.me) with waitLimit := t.me.waitLimit, fflags := t.me.fflags, frm := t.me.frm, seed := t.me.seed } := by
  obtain ⟨hcur, hk, w, f, r, x, hme⟩ := sysPut_contexts s s.sched.cur n.toNat (rdG s.me a)
  refine ⟨_, exec_syswr_permitted a n s h, fun k hne => ?_, ?_⟩
  · rw [retire_ctx _ _ (by rwa [hcur]), hk k hne]
  · rw [retire_me, State.me, hcur, hme, ended_written]; rfl

/-- SYSRD of a job-level register. -/
theorem systemRegistersRead : SystemRegistersRead := by
  intro d n s x hx
  obtain ⟨rfl, hn⟩ := jobRegister_eq_some hx
  obtain ⟨t, ht, hs, hk, hr, hme⟩ := sysrd_ends d n s fun h => absurd h hn
  refine ⟨t, ht, fun _ => ?_, hr, hme, hk, ?_⟩
  · rw [hs, sysClear_frame]
  · have hcore : t.core s.myCore = (s.sysClear s.myCore n.toNat).core s.myCore := by rw [hs]; rfl
    rw [hcore, sysClear_core _ _ _ hn]
    have h28 : (n.toNat = 0x028) = (n = 0x028) := propext (BitVec.toNat_inj (y := 0x028))
    simp only [h28]
/-- Every permitted access completes. -/
theorem systemRegisterAccessesComplete : SystemRegisterAccessesComplete := by
  intro d a n s h
  obtain ⟨t, ht, hs, hk, hr, hme⟩ := sysrd_ends d n s h
  exact ⟨⟨t, ht, fun _ => by rw [hs, sysClear_frame], hk, hr, hme⟩, syswr_ends a n s h⟩

/-- The low bits of a word, by its value. -/
theorem extractLsb'_zero_eq_ofNat (k : Nat) (v : Word) : v.extractLsb' 0 k = BitVec.ofNat k v.toNat := rfl
/-- Of the job-level registers five can be written; a write of any other does nothing. -/
theorem sysPut_ignored (s : State) (key n : Nat) (v : Word) (h : ¬ serviceNumber n)
    (hn : n ≠ 0x012 ∧ n ≠ 0x018 ∧ n ≠ 0x019 ∧ n ≠ 0x01A ∧ n ≠ 0x01B) : s.sysPut key n v = s := by
  obtain ⟨h1, h2, h3, h4, h5⟩ := hn
  have : ¬(0x400 ≤ n ∧ n ≤ 0x47F) ∧ ¬ 0xC10 ≤ n ∧ n ≠ 0xC00 ∧ n ≠ 0xC02 ∧ n ≠ 0xC04 := by
    unfold serviceNumber at h; omega
  obtain ⟨k1, k2, k3, k4, k5⟩ := this
  unfold State.sysPut
  rw [if_neg k1, if_neg k2]
  split
  case h_9 => rfl
  all_goals contradiction
theorem frm_code (v : Word) : (v.extractLsb' 0 3).toNat ≤ 4 ↔ v.toNat % 8 < 5 := by
  rw [extractLsb'_zero_eq_ofNat, BitVec.toNat_ofNat]; omega
theorem sysPut_waitLimit (s : State) (key : Nat) (v : Word) :
    s.sysPut key 0x012 v = s.modCtx key (fun c => { c with waitLimit := BitVec.ofNat 32 v.toNat }) := rfl
theorem sysPut_fflags (s : State) (key : Nat) (v : Word) :
    s.sysPut key 0x018 v = s.modCtx key (fun c => { c with fflags := BitVec.ofNat 5 v.toNat }) := rfl
theorem sysPut_frm (s : State) (key : Nat) (v : Word) :
    s.sysPut key 0x019 v = s.modCtx key (fun c => { c with frm := if v.toNat % 8 < 5 then BitVec.ofNat 3 v.toNat else 0 }) := by
  simp only [← frm_code]; rfl
theorem sysPut_seed (s : State) (key : Nat) (v : Word) :
    s.sysPut key 0x01A v = s.modCtx key (fun c => { c with seed := if v = 0 then BitVec.ofNat 64 (2 ^ 63) else v }) := rfl
theorem sysPut_aflags (s : State) (key : Nat) (v : Word) :
    s.sysPut key 0x01B v = s.modCore (coreOf key) (fun k => { k with aflags := k.aflags &&& ~~~(BitVec.ofNat 5 v.toNat) }) := rfl
theorem myCore_eq (s : State) : s.myCore = coreOf s.sched.cur := rfl
/-- SYSWR of a job-level register. -/
theorem systemRegistersWritten : SystemRegistersWritten := by
  intro a n s x hx v ro
  have hn := (jobRegister_eq_some hx).2
  have hex := exec_syswr_permitted a n s fun h => absurd h hn
  obtain ⟨t, ht, hk, -⟩ := syswr_ends a n s fun h => absurd h hn
  cases ht.symm.trans hex
  have h1b : (n = 0x01B) = (n.toNat = 0x01B) := propext (BitVec.toNat_inj (y := 0x01B)).symm
  suffices SameMemory s (s.sysPut s.sched.cur n.toNat v) ∧ (retire (s.sysPut s.sched.cur n.toNat v)).me = _ ∧
      (s.sysPut s.sched.cur n.toNat v).core s.myCore = _ from ⟨_, hex, this.1, hk, this.2⟩
  simp only [h1b]
  generalize n.toNat = m at hn
  by_cases hm : m ≠ 0x012 ∧ m ≠ 0x018 ∧ m ≠ 0x019 ∧ m ≠ 0x01A ∧ m ≠ 0x01B
  · rw [sysPut_ignored _ _ _ _ hn hm]
    exact ⟨fun _ => rfl, by simp [hm, ro], by simp [hm]⟩
  obtain rfl | rfl | rfl | rfl | rfl : m = 0x012 ∨ m = 0x018 ∨ m = 0x019 ∨ m = 0x01A ∨ m = 0x01B := by omega
  case inl => exact ⟨fun _ => rfl, by rw [sysPut_waitLimit, retire_modCtx_me, ended_waitLimit]; rfl, rfl⟩
  case inr.inl => exact ⟨fun _ => rfl, by rw [sysPut_fflags, retire_modCtx_me, ended_fflags]; rfl, rfl⟩
  case inr.inr.inl => exact ⟨fun _ => rfl, by rw [sysPut_frm, retire_modCtx_me, ended_frm]; rfl, rfl⟩
  case inr.inr.inr.inl => exact ⟨fun _ => rfl, by rw [sysPut_seed, retire_modCtx_me, ended_seed]; rfl, rfl⟩
  case inr.inr.inr.inr => exact ⟨fun _ => rfl, retire_me _, by rw [sysPut_aflags, myCore_eq, core_modCore, if_pos rfl]; rfl⟩

/-! ### IRQ -/

/-- Where nothing is to be released, the instruction goes on at once. -/
theorem released_of_clear {s : State} {scope : Nat} (h : ReleaseClear s scope) (k : State → Out) : released scope s k = k s := by
  obtain ⟨hf, hl, hst, hsb, hq⟩ := h
  have hdrain : scope ≠ 0 → s.drainWhere s.myCore (fun _ => true) = s := fun h0 => by simp [State.drainWhere, hsb h0]
  have hl2 (n : Nat) : s.mem.l2q.any (fun e => e.core == s.myCore && decide (e.id < n)) = false :=
    List.any_eq_false.mpr fun e he => by simp [hq e he]
  unfold released
  split
  case h_1 n e => exact absurd e (hf n)
  case h_2 =>
    by_cases h0 : scope = 0
    · simp [h0, hl, h0 ▸ hst]
    · simp [h0, hdrain h0, hl, hst, hl2]
/-- A vector's interrupt changes the vectors pending and what goes out. -/
theorem msixRaise_frame (s : State) (v : Nat) : s.msixRaise v =
    { s with dev := { s.dev with msixPending := (s.msixRaise v).dev.msixPending, out := (s.msixRaise v).dev.out } } := by
  unfold State.msixRaise
  split <;> rfl
theorem msixSend_sends (s : State) (v : Nat) : ∃ addr data, (s.msixSend v).dev.out = s.dev.out ++ [.msix v addr data] ∧
    v ∉ (s.msixSend v).dev.msixPending :=
  ⟨_, _, rfl, by simp [State.msixSend]⟩
theorem msixRaise_of_lets {s : State} {v : Nat} (h : s.dev.msixLets v = true) : s.msixRaise v = s.msixSend v := if_pos h
theorem msixRaise_pends {s : State} {v : Nat} (h : s.dev.msixLets v = false) :
    (s.msixRaise v).dev.out = s.dev.out ∧ v ∈ (s.msixRaise v).dev.msixPending := by
  unfold State.msixRaise
  rw [h]
  refine ⟨rfl, ?_⟩
  by_cases hp : v ∈ s.dev.msixPending <;> simp [hp]
/-- IRQ. -/
theorem irqRaisesItsVector : IrqRaisesItsVector := by
  intro a s j hj x v
  refine ⟨fun h => ?_, fun hx hrel hst hpend => ?_⟩
  · rw [exec_irq, execIrq, hj]
    exact if_pos h
  · have hbusy : ¬(63 ≤ s.me.st ∨ s.me.pend.any (fun p => !p.load && decide (p.route = .unit) && !p.performed) = true) := by
      simp only [List.any_eq_true, not_or, not_exists]
      refine ⟨by omega, fun p ⟨hp, h⟩ => ?_⟩
      simp only [Bool.and_eq_true, Bool.not_eq_true', decide_eq_true_eq] at h
      obtain ⟨⟨hload, hroute⟩, hperf⟩ := h
      rw [hpend p hp hload hroute] at hperf
      cases hperf
    have hex : exec (.irq a) s = .next (retire (s.msixRaise v)) := by
      rw [exec_irq, execIrq, hj]
      exact (if_neg (Nat.not_le.mpr hx)).trans ((if_neg hbusy).trans (released_of_clear hrel _))
    refine ⟨_, hex, ?_, fun _ => ?_, fun h => ?_, fun h => msixRaise_pends h⟩
    · rw [retire_me, msixRaise_frame]; rfl
    · rw [retire_mem, msixRaise_frame]
    · rw [msixRaise_of_lets h]
      exact msixSend_sends s v

/-! ### The service registers -/

/-- Bits [51:2] of a word. -/
theorem extractLsb'_two_eq_ofNat (v : Word) : v.extractLsb' 2 50 = BitVec.ofNat 50 (v.toNat / 4) := by
  rw [← Nat.shiftRight_eq_div_pow v.toNat 2]; rfl
/-- Going on does not depend on how the context waited. -/
theorem advance_settled_pc (c : Ctx) : (advance (settled c)).pc = (advance c).pc := by
  unfold advance settled; grind
theorem sysPut_handlerEntry (s : State) (key n : Nat) (v : Word) (hr : 0x400 ≤ n ∧ n ≤ 0x47F) (hn : n % 2 = 0) :
    s.sysPut key n v = s.modChan (coreOf key) ((n - 0x400) / 2) (fun h => { h with entry := v.extractLsb' 2 50 }) := by
  unfold State.sysPut
  exact (if_pos hr).trans (if_pos hn)
theorem sysPut_handlerControl (s : State) (key n : Nat) (v : Word) (hr : 0x400 ≤ n ∧ n ≤ 0x47F) (hn : n % 2 = 1) :
    s.sysPut key n v = s.modChan (coreOf key) ((n - 0x400) / 2) (fun h => { h with
      prio := v.extractLsb' 0 2, enable := v.getLsbD 2, allot := v.getLsbD 3, atomh := v.getLsbD 4 }) := by
  unfold State.sysPut
  exact (if_pos hr).trans (if_neg (by omega))
theorem retire_chan (s : State) (k c : Nat) : (retire s).chan k c = s.chan k c := rfl
/-- SYSRD and SYSWR of the service registers. -/
theorem serviceRegistersArePrivileged : ServiceRegistersArePrivileged := by
  intro d a n s hn
  refine ⟨fun h => ⟨exec_sysrd_privileged d n s hn h, exec_syswr_privileged a n s hn h⟩, fun h => ⟨?_, ?_⟩⟩
  · obtain ⟨t, ht, -, -, hr, hme⟩ := sysrd_ends d n s fun _ => h
    exact ⟨t, ht, fun hd => by rw [hr, if_pos ⟨rfl, hd⟩], by rw [hme]; exact advance_settled_pc _⟩
  · have hex := exec_syswr_permitted a n s fun _ => h
    obtain ⟨t, ht, -, hme⟩ := syswr_ends a n s fun _ => h
    cases ht.symm.trans hex
    refine ⟨_, hex, by rw [hme]; exact advance_settled_pc _, by rw [hme]; exact (ended_registers _).1, fun hlo hhi hpar => ?_,
      fun hlo hhi hpar => ?_⟩
    · rw [sysPut_handlerEntry _ _ _ _ ⟨hlo, hhi⟩ hpar, retire_chan, myCore_eq, chan_modChan, if_pos rfl]
      exact extractLsb'_two_eq_ofNat _
    · dsimp only
      rw [sysPut_handlerControl _ _ _ _ ⟨hlo, hhi⟩ hpar, retire_chan, myCore_eq, chan_modChan, if_pos rfl]
      exact ⟨rfl, rfl, rfl, rfl, rfl⟩

/-- Settles O16: each access ends with its own register's read or write, by the number's range; the photonic registers' writes leave every
context, even where a record of them goes to memory. -/
theorem systemRegistersAndIrq : Obligations.SystemRegistersAndIrq :=
  ⟨systemRegistersRead, systemRegistersWritten, systemRegisterAccessesComplete, serviceRegistersArePrivileged, irqRaisesItsVector⟩
end Sys2Proof.Proofs
end

section
/-!
The registers of the control window (R368 to R404).
-/
namespace Sys2Proof.Proofs

open Sys2Proof.Machine Sys2Proof.Laws Sys2Proof.Claims

/-! ### The blocks of the window -/

theorem exec_registerWrite_clean (off : Nat) (v : Word) (s : State) : exec (.registerWrite off false v) s = s.writeReg off v :=
  exec_registerWrite ..
theorem writeReg_device {off : Nat} (h8 : off % 8 = 0) (h : off < 0x8000) (s : State) (v : Word) :
    s.writeReg off v = s.writeDevice off v := by
  unfold State.writeReg
  rw [if_neg (by omega), if_pos h]
theorem readReg_device {off : Nat} (h8 : off % 8 = 0) (h : off < 0x8000) (s : State) : s.readReg off = s.readDevice off := by
  unfold State.readReg
  rw [if_neg (by omega), if_pos h]
theorem writeDevice_activePage (s : State) (v : Word) {j : Nat} (h : j < 64) : s.writeDevice (0x100 + 8 * j) v =
    .next (s.modDev (fun d => { d with amPage := tabSet d.amPage j (v.extractLsb' 0 17) })) := by
  have hj : (0x100 + 8 * j - 0x100) / 8 = j := by omega
  unfold State.writeDevice
  iterate 8 rw [if_neg (by omega)]
  rw [if_pos (by omega), hj]
theorem readDevice_activeError (s : State) {j : Nat} (h : j < 64) : s.readDevice (0x500 + 8 * j) = tabGet s.dev.amErr j 0 := by
  have hj : (0x500 + 8 * j - 0x500) / 8 = j := by omega
  unfold State.readDevice
  iterate 12 rw [if_neg (by omega)]
  rw [if_pos (by omega), hj]
theorem writeReg_semval (s : State) (v : Word) {n : Nat} (h : n < 1024) :
    s.writeReg (0x20000 + 8 * n) v = execSemvalWrite n v s := by
  have hn : (0x20000 + 8 * n - 0x20000) / 8 = n := by omega
  unfold State.writeReg
  iterate 4 rw [if_neg (by omega)]
  rw [if_pos (by omega), hn]
theorem writeReg_seminc (s : State) (v : Word) {n : Nat} (h : n < 1024) :
    s.writeReg (0x22000 + 8 * n) v = execSemincWrite n v s := by
  have hn : (0x22000 + 8 * n - 0x22000) / 8 = n := by omega
  unfold State.writeReg
  iterate 5 rw [if_neg (by omega)]
  rw [if_pos (by omega), hn]
theorem readReg_semval (s : State) {n : Nat} (h : n < 1024) : s.readReg (0x20000 + 8 * n) = s.sem n := by
  have hn : (0x20000 + 8 * n - 0x20000) / 8 = n := by omega
  unfold State.readReg
  iterate 4 rw [if_neg (by omega)]
  rw [if_pos (by omega), hn]
theorem readReg_seminc (s : State) {n : Nat} (h : n < 1024) : s.readReg (0x22000 + 8 * n) = s.sem n := by
  have hn : (0x22000 + 8 * n - 0x22000) / 8 = n := by omega
  unfold State.readReg
  iterate 5 rw [if_neg (by omega)]
  rw [if_pos (by omega), hn]
/-- LASERCTL of a module. -/
theorem writeReg_laser (s : State) (v : Word) {m : Nat} (h : m < 4) (hv : v.getLsbD 0 = true) :
    s.writeReg (0x100020 + 8 * m) v = execLaserRelight m s := by
  have hm : (0x100020 + 8 * m - 0x100000 - 0x20) / 8 = m := by omega
  unfold State.writeReg
  iterate 7 rw [if_neg (by omega)]
  rw [if_pos (by omega)]
  unfold State.writeThermal
  rw [if_pos (by omega), hv, hm]
  rfl

/-- An offset to which no register is assigned, below the configuration space. -/
def Unassigned (off : Nat) : Prop := (0x60 ≤ off ∧ off < 0x100) ∨ (0x808 ≤ off ∧ off < 0x8000) ∨ (0x24000 ≤ off ∧ off < 0x80000)

theorem writeDevice_unassigned (s : State) (v : Word) {off : Nat} (h : (0x60 ≤ off ∧ off < 0x100) ∨ 0x808 ≤ off) :
    s.writeDevice off v = .next s := by
  unfold State.writeDevice
  iterate 10 rw [if_neg (by omega)]
theorem readDevice_unassigned (s : State) {off : Nat} (h : (0x60 ≤ off ∧ off < 0x100) ∨ 0x808 ≤ off) : s.readDevice off = 0 := by
  unfold State.readDevice
  iterate 13 rw [if_neg (by omega)]
theorem writeReg_unassigned (s : State) (v : Word) {off : Nat} (h : Unassigned off) : s.writeReg off v = .next s := by
  by_cases h8 : off % 8 = 0
  · rcases h with h | h | h
    · rw [writeReg_device h8 (by omega), writeDevice_unassigned s v (.inl h)]
    · rw [writeReg_device h8 h.2, writeDevice_unassigned s v (.inr h.1)]
    · unfold State.writeReg
      iterate 11 rw [if_neg (by omega)]
  · exact if_pos h8
theorem readReg_unassigned (s : State) {off : Nat} (h : Unassigned off ∨ 0x2000000 ≤ off) : s.readReg off = 0 := by
  by_cases h8 : off % 8 = 0
  · rcases h with (h | h | h) | h
    · rw [readReg_device h8 (by omega), readDevice_unassigned s (.inl h)]
    · rw [readReg_device h8 h.2, readDevice_unassigned s (.inr h.1)]
    all_goals
      unfold State.readReg
      iterate 11 rw [if_neg (by omega)]
  · exact if_pos h8

/-! ### Reads answer the host -/

/-- What a read clears is none of what goes out to the host. -/
theorem clearReg_out (s : State) (off : Nat) : (s.clearReg off).dev.out = s.dev.out := by
  unfold State.clearReg
  repeat' split
  all_goals rfl
theorem readsAs (s : State) (off : Nat) : ReadsAs s off (s.readReg off) := by
  refine ⟨_, exec_readClear off s, ?_⟩
  split
  · exact congrArg (· ++ _) (clearReg_out s off)
  · rfl
theorem readsAs_of_eq {s : State} {off : Nat} {x : Word} (h : s.readReg off = x) : ReadsAs s off x := h ▸ readsAs s off
/-- The state after a read of an aligned offset: cleared, a free value used, and the host told. -/
theorem exec_readClear_aligned (s : State) {off : Nat} (h : off % 8 = 0) :
    exec (.readClear off) s = .next ((s.clearReg off).refresh.tellHost (.register off (s.readReg off))) :=
  (exec_readClear off s).trans (by rw [execReadClear, if_pos h])
theorem clearReg_activeDrops (s : State) {j : Nat} (h : j < 64) :
    s.clearReg (0x300 + 8 * j) = s.modDev (fun d => { d with amDrop := tabSet d.amDrop j 0 }) := by
  have hj : (0x300 + 8 * j - 0x300) / 8 = j := by omega
  unfold State.clearReg
  iterate 2 rw [if_neg (by omega)]
  rw [if_pos (by omega), hj]

/-! ### The values of single registers -/

theorem toNat_sat32 (x : BitVec 32) : (sat32 x).toNat = min (x.toNat + 1) (2 ^ 32 - 1) := by
  unfold sat32
  split
  next h => rw [h]; rfl
  next h =>
    have : x.toNat ≠ 2 ^ 32 - 1 := fun e => h (BitVec.eq_of_toNat_eq e)
    bv_omega
/-- A ring's address, cleared to a line, is itself where it is one. -/
theorem and_not_lineMask {v : Word} (h : v.toNat % 64 = 0) : v &&& ~~~0x3F#64 = v := by
  apply BitVec.eq_of_getLsbD_eq
  intro i hi
  have hlow : i < 6 → v.getLsbD i = false := fun h6 => by
    have : v.toNat.testBit i = (v.toNat % 2 ^ 6).testBit i := by rw [Nat.testBit_mod_two_pow]; simp [h6]
    rw [BitVec.getLsbD, this, show v.toNat % 2 ^ 6 = 0 from h, Nat.zero_testBit]
  by_cases h6 : i < 6
  · rw [BitVec.getLsbD_and, hlow h6, Bool.false_and]
  · have : (0x3F#64).getLsbD i = false := by
      rw [BitVec.getLsbD, Nat.testBit_lt_two_pow]
      exact Nat.lt_of_lt_of_le (by decide : (0x3F#64).toNat < 2 ^ 6) (Nat.pow_le_pow_right (by decide) (by omega))
    rw [BitVec.getLsbD_and, BitVec.getLsbD_not, this, decide_eq_true hi, Bool.not_false, Bool.and_true, Bool.and_true]
/-- A number put together from two. -/
theorem toNat_append_eq_add {m n : Nat} (x : BitVec m) (y : BitVec n) : (x ++ y).toNat = x.toNat * 2 ^ n + y.toNat := by
  rw [BitVec.toNat_append, ← Nat.shiftLeft_add_eq_or_of_lt y.isLt, Nat.shiftLeft_eq]
/-- The fields of LAUNCHSTAT (R377). -/
theorem launchstat_fields (d : Device) : fieldOf d.launchstat 1 0 = d.launchState.toNat ∧ fieldOf d.launchstat 9 2 = d.launchReason.toNat ∧
    fieldOf d.launchstat 17 10 = d.launchWord.toNat ∧ fieldOf d.launchstat 33 18 = d.launchAsid.toNat ∧ fieldOf d.launchstat 63 34 = 0 := by
  have ha := d.launchAsid.isLt
  have hw := d.launchWord.isLt
  have hr := d.launchReason.isLt
  have hs := d.launchState.isLt
  simp only [fieldOf, Device.launchstat, toNat_append_eq_add, show ((0 : BitVec 30)).toNat = 0 from rfl]
  omega

/-! ### The parts of the statement -/

/-- A poisoned write changes no register but the count of such writes, and is reported. -/
theorem registerWrite_poisoned (s : State) (v : Word) {off : Nat} (h : off < 0x1000000) :
    ∃ t, exec (.registerWrite off true v) s = .next t ∧
      t = { s with dev := { s.dev with cwDrop := t.dev.cwDrop, out := s.dev.out ++ [.poisonedTlp] } } ∧
      t.dev.cwDrop.toNat = min (s.dev.cwDrop.toNat + 1) (2 ^ 32 - 1) := by
  refine ⟨_, (exec_registerWrite ..).trans (if_pos rfl), ?_⟩
  rw [if_pos h]
  exact ⟨rfl, toNat_sat32 _⟩
theorem writeDevice_launch (s : State) (v : Word) : s.writeDevice 0x00 v = execLaunch v s := rfl
theorem writeDevice_jobend (s : State) (v : Word) : s.writeDevice 0x10 v = execJobend v s := rfl
theorem writeDevice_jobSwitch (s : State) (v : Word) : s.writeDevice 0x20 v = execJobSwitch v s := rfl
theorem writeDevice_checkpoint (s : State) (v : Word) : s.writeDevice 0x800 v = execCheckpoint v s := rfl
theorem writeDevice_rasRing (s : State) (v : Word) (h : v.toNat % 64 = 0) :
    s.writeDevice 0x40 v = .next { s with dev := { s.dev with rasRing := v } } := by
  rw [show s.writeDevice 0x40 v = .next (s.modDev (fun d => { d with rasRing := v &&& ~~~0x3F#64 })) from rfl, and_not_lineMask h]
  rfl
/-- AMPAGE of one slot takes its bits, and the others stay. -/
theorem registerWrite_activePage (s : State) (v : Word) {j : Nat} (h : j < 64) :
    ∃ t, exec (.registerWrite (0x100 + 8 * j) false v) s = .next t ∧ (tabGet t.dev.amPage j 0).toNat = v.toNat % 2 ^ 17 ∧
      ∀ k, k ≠ j → tabGet t.dev.amPage k 0 = tabGet s.dev.amPage k 0 := by
  refine ⟨_, (exec_registerWrite_clean ..).trans
    ((writeReg_device (by omega) (by omega) s v).trans (writeDevice_activePage s v h)), ?_, fun k hk => ?_⟩
  · rw [modDev_dev, tabGet_tabSet, if_pos rfl, extractLsb'_zero_eq_ofNat, BitVec.toNat_ofNat]
  · rw [modDev_dev, tabGet_tabSet, if_neg (Ne.symm hk)]
/-- AMDROP of one slot clears as it is read, and the others stay. -/
theorem readClear_activeDrops (s : State) {j : Nat} (h : j < 64) :
    ∃ t, exec (.readClear (0x300 + 8 * j)) s = .next t ∧ tabGet t.dev.amDrop j 0 = 0 ∧
      ∀ k, k ≠ j → tabGet t.dev.amDrop k 0 = tabGet s.dev.amDrop k 0 := by
  refine ⟨_, exec_readClear_aligned s (by omega), ?_⟩
  rw [clearReg_activeDrops s h]
  have htab (k : Nat) : tabGet (tabSet s.dev.amDrop j 0) k 0 = if j = k then 0 else tabGet s.dev.amDrop k 0 := by
    rw [tabGet_tabSet]
  exact ⟨(htab j).trans (if_pos rfl), fun k hk => (htab k).trans (if_neg (Ne.symm hk))⟩

/-- Settles O51, register by register: each offset falls in its block, and the block's own case answers it. -/
theorem controlWindowReadsAndWrites : Obligations.ControlWindowReadsAndWrites := by
  intro s v d write
  have hw (off : Nat) : write off = s.writeReg off v := exec_registerWrite_clean off v s
  have hdev {off : Nat} (h8 : off % 8 = 0) (h : off < 0x8000) : write off = s.writeDevice off v := (hw off).trans (writeReg_device h8 h s v)
  refine ⟨fun off h => registerWrite_poisoned s v h, ⟨?_, ?_, ?_, ?_, ?_, ?_, ?_, ?_, ?_, ?_, fun m hm hv => ?_, fun n hn => ⟨?_, ?_⟩⟩,
    ⟨hdev rfl (by decide), hdev rfl (by decide), hdev rfl (by decide), fun h => (hdev rfl (by decide)).trans (writeDevice_rasRing s v h),
      fun j hj => registerWrite_activePage s v hj⟩,
    fun off h => readsAs_of_eq (readReg_unassigned s (.inr h)),
    fun off h => ⟨(hw off).trans (writeReg_unassigned s v h), readsAs_of_eq (readReg_unassigned s (.inl h))⟩,
    ⟨readsAs s 0x18, readsAs s 0x30, readsAs s 0x38, readsAs s 0x40, readsAs s 0x8018, readsAs s 0x100090, readsAs s 0x100080,
      ⟨d.launchstat, readsAs s 0x08, launchstat_fields d⟩,
      fun n hn => ⟨readsAs_of_eq (readReg_semval s hn), readsAs_of_eq (readReg_seminc s hn)⟩,
      fun j hj => readsAs_of_eq ((readReg_device (by omega) (by omega) s).trans (readDevice_activeError s hj))⟩,
    ⟨_, exec_readClear_aligned s rfl, rfl, rfl⟩, ⟨_, exec_readClear_aligned s rfl, rfl, rfl⟩, fun j hj => readClear_activeDrops s hj⟩
  · rw [hdev rfl (by decide), writeDevice_launch, exec_launch]
  · rw [hdev rfl (by decide), writeDevice_jobend, exec_jobend]
  · rw [hdev rfl (by decide), writeDevice_jobSwitch, exec_jobSwitch]
  · rw [hdev rfl (by decide), writeDevice_checkpoint, exec_checkpoint]
  · rw [hw, exec_bootgo]; rfl
  · rw [hw, exec_svnburn]; rfl
  · rw [hw, exec_attestationGo]; rfl
  · rw [hw, exec_xinv]; rfl
  · rw [hw, exec_pageMove]; rfl
  · rw [hw, exec_thringWrite]; rfl
  · rw [hw, writeReg_laser s v hm hv, exec_laserRelight]
  · rw [hw, writeReg_semval s v hn, exec_semvalWrite]
  · rw [hw, writeReg_seminc s v hn, exec_semincWrite]
end Sys2Proof.Proofs
end

section
/-!
The link, the interrupts, the reset and the checkpoints (R367, R390 to R392).
-/
namespace Sys2Proof.Proofs

open Sys2Proof.Machine Sys2Proof.Laws Sys2Proof.Claims

/-! ### A descriptor that cannot be answered (R206, R331, R391) -/

/-- A package with a checkpoint running. Line 0 is HOME and free of poison, but its mask still names group 0, of which the map binds
member 1; no circuit to that member is up. -/
def unreachedHome : State :=
  { State.reset with
    mem := { Mem.initial with lmeta := [(0, { LMeta.initial with mask := 1 })] }
    fabric := { Fabric.initial with fam := [(0, { phys := 1, valid := true, coh := true, member := 1, drain := false })] }
    dev := { Device.initial with ckpt := some { desc := 64, peer := false, phys := 0, dest := 0, sent := none } } }

theorem unreachedHome_clean : Clean unreachedHome 0 32 := by
  refine ⟨by decide, fun l _ hl => ?_⟩
  obtain rfl : l = 0 := by omega
  decide
/-- A write of line 0 would have to be answered by member 1. -/
theorem unreachedHome_lineReached : unreachedHome.lineReached 0 1 = false := by decide
/-- STATUS is not written. -/
theorem unreachedHome_ckptStatus : unreachedHome.ckptStatus 0 3 0 0 = unreachedHome := by
  have hl : linesOf (cellsAt (0 + 16) (leBytes 16 3)) = [0] := by decide
  have hput : unreachedHome.putLocal (0 + 16) (leBytes 16 3) = none := by
    unfold State.putLocal
    dsimp only
    rw [hl]
    exact if_pos (by rw [List.all_cons, unreachedHome_lineReached]; simp)
  have hn : 3 + 2 ^ 32 * (if 0 < 2 ^ 32 then 0 else Config.ckptOver.toNat) + 2 ^ 64 * 0 = 3 := rfl
  unfold State.ckptStatus
  dsimp only
  rw [hn, hput]
  rfl
/-- The descriptor's line is HOME and idle, so that a read of it changes nothing. -/
theorem unreachedHome_obtainLine : unreachedHome.obtainLine 0 false = unreachedHome := by
  have htrans : unreachedHome.homeTrans (lineOf (0 % 2 ^ 40)) = none := by decide
  have hstate : (unreachedHome.lmeta (lineOf (0 % 2 ^ 40))).state = 0 := by decide
  unfold State.obtainLine
  rw [htrans]
  dsimp only
  unfold State.obtainFree
  exact if_pos (Or.inl hstate)
theorem unreachedHome_takeLocal : unreachedHome.takeLocal 0 32 = (unreachedHome, some (memBytes unreachedHome.mem.cells 0 32)) := by
  have hlines : (List.range ((0 + 32 + 63) / 64 - 0 / 64)).map (· + 0 / 64) = [0] := by decide
  have hclean : [0].any (fun l => unreachedHome.dramPoisoned (l * 64)) = false := by decide
  have hread : [0].foldl (fun s l => s.obtainLine (l * 64) false) unreachedHome = unreachedHome := unreachedHome_obtainLine
  unfold State.takeLocal
  dsimp only
  rw [hlines, hread, hclean]
  exact if_neg (by decide)
/-- The write of CKPTPTR answers nothing. -/
theorem unreachedHome_checkpoint : exec (.checkpoint 0) unreachedHome = .next unreachedHome := by
  rw [exec_checkpoint, execCheckpoint, show ((0 : Word).toNat % 2 ^ 40) = 0 from rfl, unreachedHome_takeLocal]
  exact congrArg Host.Outcome.next unreachedHome_ckptStatus
/-- A clean descriptor line does not make the write of its STATUS succeed: that also asks the members its mask names, which `Clean` leaves
open. -/
theorem not_checkpointsRun : ¬ CheckpointsRun := by
  intro h
  obtain ⟨hrefused, -⟩ := (h unreachedHome 0).1 unreachedHome_clean
  obtain ⟨t, ht, -, hstatus⟩ := hrefused (.inl (by decide))
  cases ht.symm.trans unreachedHome_checkpoint
  exact absurd hstatus (by decide)

/-- Refutes O49: in `unreachedHome` a checkpoint runs, and the descriptor at address 0 is whole, HOME, idle and free of poison, so a second
CHECKPOINT should leave STATUS 3 in it. But its line's mask still names group 0, whose member no circuit reaches: the write of the
descriptor is refused (R206, R331), and its byte 16 stays 0. -/
theorem not_linkResetAndCheckpoints : ¬ Obligations.LinkResetAndCheckpoints := by
  rintro ⟨-, hcheckpoints⟩
  exact not_checkpointsRun hcheckpoints
end Sys2Proof.Proofs
end

section
/-!
No instruction and no event stops the machine (R27, R72, R341). The meanings choose between next states by `if` and `match` alone, and
each branch ends in one: an error is a trap, a status, a record or a message, which is a state too. `X_goesOn` says so of the meaning
`X`, by its own branches; `exec_goesOn` collects the meanings, and an issue and a step go on with them.
-/
namespace Sys2Proof.Proofs

open Sys2Proof.Machine Sys2Proof.Laws Sys2Proof.Safety

/-! ### The branches of a meaning -/

/-- A next state goes on: also one that a shared operation answers, a trap or an ended instruction. -/
theorem goesOn_next (t : State) : GoesOn (.next t) := ⟨t, rfl⟩
theorem goesOn_ite {c : Prop} [Decidable c] {a b : Out} (ha : GoesOn a) (hb : GoesOn b) : GoesOn (if c then a else b) := by
  split <;> assumption
/-- A refusal or a wait before the rest of a meaning. -/
theorem goesOn_guard {c : Prop} [Decidable c] {t : State} {b : Out} (hb : GoesOn b) : GoesOn (if c then .next t else b) :=
  goesOn_ite (goesOn_next t) hb

/-! ### Loads, stores and bytes read at once -/

theorem issueLoad_goesOn (s : State) (ea z swz : Nat) (vector : Bool) (dst : Dst) (acq : Nat) :
    GoesOn (issueLoad s ea z swz vector dst acq) := by
  unfold issueLoad
  split
  · exact goesOn_next _
  · exact goesOn_guard <| goesOn_next _
theorem storeCells_goesOn (s : State) (ea : Nat) (cells : List Host.Cell) (done : State → State) :
    GoesOn (storeCells s ea cells done) := by
  unfold storeCells
  refine goesOn_guard <| goesOn_guard <| goesOn_guard ?_
  split <;> exact goesOn_next _
theorem issueStore_goesOn (s : State) (ea swz : Nat) (vector : Bool) (data : List Byte) : GoesOn (issueStore s ea swz vector data) := by
  unfold issueStore
  split
  · exact goesOn_next _
  · exact storeCells_goesOn ..
/-- Bytes read at once: a trap or a wait goes on, and so does what is done with the bytes, where it goes on. -/
theorem readNow_goesOn {s : State} {blocking : Bool} {addrs : List Nat} {k : State → List Byte → Out}
    (hk : ∀ t bs, GoesOn (k t bs)) : GoesOn (readNow s blocking addrs k) := by
  unfold readNow
  extract_lets
  split
  · exact goesOn_next _
  · split
    · exact goesOn_next _
    · refine goesOn_guard ?_
      split
      · exact goesOn_next _
      · exact goesOn_next _
      · exact hk _ _

/-! ### Branches, jumps and frames -/

theorem branch_goesOn (take : Bool) (disp : BitVec 52) (s : State) : GoesOn (branch take disp s) := by
  unfold branch
  split <;> exact goesOn_next _
theorem jump_goesOn (disp : BitVec 52) (link : Option Reg) (s : State) : GoesOn (jump disp link s) := by
  unfold jump
  split <;> exact goesOn_next _
theorem jumpReg_goesOn (a : Reg) (link : Option Reg) (s : State) : GoesOn (jumpReg a link s) := by
  unfold jumpReg
  split
  · exact goesOn_next _
  · exact goesOn_guard <| goesOn_next _
theorem execRpt_goesOn (n : BitVec 4) (c : BitVec 8) (d a b : Fld3) (s : State) : GoesOn (execRpt n c d a b s) := by
  unfold execRpt
  split <;> exact goesOn_next _

/-! ### Traps that come due -/

theorem execIllegalInstruction_goesOn (key : Nat) (s : State) : GoesOn (execIllegalInstruction key s) := by
  unfold execIllegalInstruction
  refine goesOn_ite ?_ (goesOn_next _)
  refine goesOn_ite ?_ ?_
  · split <;> exact goesOn_next _
  · refine goesOn_ite ?_ (goesOn_next _)
    split <;> exact goesOn_next _
theorem execInstructionFetchFault_goesOn (key : Nat) (s : State) : GoesOn (execInstructionFetchFault key s) := by
  unfold execInstructionFetchFault
  refine goesOn_ite ?_ (goesOn_next _)
  extract_lets
  split <;> exact goesOn_next _
theorem execDeferredFault_goesOn (key : Nat) (s : State) : GoesOn (execDeferredFault key s) := by
  unfold execDeferredFault
  extract_lets
  split
  · exact goesOn_guard <| goesOn_next _
  · exact goesOn_next _
theorem execLateStoreFault_goesOn (key id : Nat) (s : State) : GoesOn (execLateStoreFault key id s) := by
  unfold execLateStoreFault
  extract_lets
  split
  · split <;> exact goesOn_next _
  · exact goesOn_next _

/-! ### Memory instructions and the ends of their accesses -/

/-- A release goes on where what follows the wait does. -/
theorem released_goesOn {sc : Nat} {s : State} {k : State → Out} (hk : ∀ t, GoesOn (k t)) : GoesOn (released sc s k) :=
  goesOn_guard (hk _)
theorem execStRel_goesOn (a b : Reg) (sc z : BitVec 2) (s : State) : GoesOn (execStRel a b sc z s) := by
  unfold execStRel
  extract_lets
  split
  · exact goesOn_next _
  · exact released_goesOn fun _ => storeCells_goesOn ..
theorem execVldf_goesOn (v a : Reg) (m : Fld3) (s : State) : GoesOn (execVldf v a m s) := by
  unfold execVldf
  refine goesOn_guard ?_
  extract_lets
  split
  · exact goesOn_next _
  · refine goesOn_guard ?_
    split
    · exact goesOn_next _
    · exact goesOn_guard <| goesOn_next _
theorem execVstf_goesOn (v a : Reg) (m : Fld3) (s : State) : GoesOn (execVstf v a m s) := by
  unfold execVstf
  refine goesOn_guard <| goesOn_guard <| goesOn_guard ?_
  extract_lets
  split
  · exact goesOn_next _
  · refine goesOn_guard ?_
    split
    · exact goesOn_next _
    · exact goesOn_ite (storeCells_goesOn ..) <| readNow_goesOn fun _ _ => storeCells_goesOn ..
theorem execPref_goesOn (a : Reg) (l : BitVec 2) (s0 : State) : GoesOn (execPref a l s0) := by
  unfold execPref
  refine goesOn_guard ?_
  split
  · exact goesOn_next _
  · refine goesOn_ite ?_ (goesOn_next _)
    split <;> exact goesOn_next _
theorem prefRes_goesOn (pin : Bool) (a b : Reg) (l : BitVec 2) (s0 : State) : GoesOn (prefRes pin a b l s0) := by
  unfold prefRes
  refine goesOn_guard ?_
  split <;> exact goesOn_next _
theorem loadReply_goesOn (key id : Nat) (s : State) : GoesOn (loadReply key id s) := by
  unfold loadReply
  extract_lets
  split
  · exact goesOn_next _
  · refine goesOn_guard <| goesOn_ite ?_ (goesOn_next _)
    split <;> exact goesOn_next _
theorem execStoreAck_goesOn (key id : Nat) (s : State) : GoesOn (execStoreAck key id s) := by
  unfold execStoreAck
  extract_lets
  split
  · exact goesOn_next _
  · refine goesOn_guard <| goesOn_guard <| goesOn_ite ?_ (goesOn_next _)
    split
    · exact goesOn_guard <| goesOn_next _
    · exact goesOn_next _
theorem execRemoteLoad_goesOn (id : Nat) (s : State) : GoesOn (execRemoteLoad id s) := by
  unfold execRemoteLoad
  split
  · split
    · exact goesOn_guard <| goesOn_guard <| goesOn_guard <| goesOn_guard <| goesOn_next _
    · exact goesOn_next _
  · exact goesOn_next _
theorem execRemoteStore_goesOn (id : Nat) (s : State) : GoesOn (execRemoteStore id s) := by
  unfold execRemoteStore
  split
  · split
    · exact goesOn_guard <| goesOn_guard <| goesOn_guard <| goesOn_guard <| goesOn_next _
    · exact goesOn_next _
  · exact goesOn_next _
theorem execStoreBufferDrain_goesOn (core n : Nat) (s : State) : GoesOn (execStoreBufferDrain core n s) := by
  unfold execStoreBufferDrain
  split <;> exact goesOn_next _
theorem execL2StoreAccept_goesOn (id : Nat) (s : State) : GoesOn (execL2StoreAccept id s) := by
  unfold execL2StoreAccept
  split <;> exact goesOn_next _
theorem execTranslationWalk_goesOn (cluster : Nat) (asid : BitVec 16) (va : BitVec 52) (s : State) :
    GoesOn (execTranslationWalk cluster asid va s) := by
  unfold execTranslationWalk
  refine goesOn_ite ?_ (goesOn_next _)
  extract_lets
  split <;> exact goesOn_next _

/-! ### Atomics -/

theorem atomOp_goesOn (op : Nat) (d a b : Reg) (z : BitVec 2) (ret : Bool) (s : State) : GoesOn (atomOp op d a b z ret s) := by
  unfold atomOp
  extract_lets
  split
  · exact goesOn_next _
  · refine goesOn_guard ?_
    split
    · exact goesOn_next _
    · refine goesOn_guard ?_
      extract_lets
      split <;> exact goesOn_next _
theorem execBuiltinAtomic_goesOn (id : Nat) (s : State) : GoesOn (execBuiltinAtomic id s) := by
  unfold execBuiltinAtomic
  split
  · split
    · exact goesOn_guard <| goesOn_next _
    · exact goesOn_next _
    · exact goesOn_next _
  · split
    · split
      · exact goesOn_guard <| goesOn_next _
      · exact goesOn_next _
    · exact goesOn_next _
theorem execAtomicReply_goesOn (key id : Nat) (s : State) : GoesOn (execAtomicReply key id s) := by
  unfold execAtomicReply
  extract_lets
  split
  · exact goesOn_next _
  · split
    · exact goesOn_guard <| goesOn_guard <| goesOn_next _
    · exact goesOn_guard <| goesOn_next _
    · exact goesOn_guard <| goesOn_next _

/-! ### Messages, channels, regions and activations -/

theorem sendOp_goesOn (delayed : Bool) (s : State) : GoesOn (sendOp delayed s) :=
  goesOn_guard <| goesOn_guard <| goesOn_guard <| goesOn_guard <| goesOn_guard <| goesOn_guard <| goesOn_guard <| goesOn_guard <|
    goesOn_next _
theorem execSpawn_goesOn (a b : Reg) (s : State) : GoesOn (execSpawn a b s) := by
  unfold execSpawn
  extract_lets
  split
  · exact goesOn_next _
  · exact goesOn_guard <| goesOn_guard <| goesOn_guard <| goesOn_next _
theorem execYield_goesOn (s : State) : GoesOn (execYield s) := by
  unfold execYield
  refine goesOn_guard ?_
  extract_lets
  split <;> exact goesOn_next _
theorem chanOp_goesOn (act : Nat) (x : Word) (prio : BitVec 2) (s : State) : GoesOn (chanOp act x prio s) :=
  goesOn_guard <| goesOn_guard <| goesOn_guard <| goesOn_next _
theorem execChannelControlPacket_goesOn (id : Nat) (s : State) : GoesOn (execChannelControlPacket id s) := by
  unfold execChannelControlPacket
  split
  · split
    · exact goesOn_guard <| goesOn_guard <| goesOn_next _
    · exact goesOn_next _
  · exact goesOn_next _
theorem execRalloc_goesOn (d a b : Reg) (s : State) : GoesOn (execRalloc d a b s) := by
  unfold execRalloc
  refine goesOn_guard ?_
  extract_lets
  split
  · exact goesOn_next _
  · split
    · exact goesOn_next _
    · exact goesOn_guard <| goesOn_next _
theorem execChannelSelection_goesOn (core : Nat) (s : State) : GoesOn (execChannelSelection core s) := by
  unfold execChannelSelection
  refine goesOn_guard ?_
  split
  · split <;> exact goesOn_next _
  · exact goesOn_next _
theorem execSpillActivation_goesOn (core : Nat) (s : State) : GoesOn (execSpillActivation core s) := by
  unfold execSpillActivation
  refine goesOn_guard ?_
  split <;> exact goesOn_next _
theorem execReplayActivation_goesOn (core : Nat) (s : State) : GoesOn (execReplayActivation core s) := by
  unfold execReplayActivation
  refine goesOn_guard ?_
  split <;> exact goesOn_next _
theorem execAtomicHandlerActivation_goesOn (core : Nat) (s : State) : GoesOn (execAtomicHandlerActivation core s) := by
  unfold execAtomicHandlerActivation
  refine goesOn_guard ?_
  split
  · exact goesOn_guard <| goesOn_next _
  · exact goesOn_next _
theorem execMessageArrival_goesOn (id : Nat) (s : State) : GoesOn (execMessageArrival id s) := by
  unfold execMessageArrival
  split
  · exact goesOn_next _
  · exact goesOn_guard <| goesOn_guard <| goesOn_guard <| goesOn_guard <| goesOn_guard <|
      goesOn_ite (goesOn_guard <| goesOn_guard <| goesOn_next _) <| goesOn_guard <| goesOn_next _
theorem execLoadReply_goesOn (key id : Nat) (s : State) : GoesOn (execLoadReply key id s) := by
  unfold execLoadReply
  refine goesOn_ite (loadReply_goesOn ..) ?_
  extract_lets
  split
  · split <;> exact goesOn_next _
  · exact goesOn_next _
theorem execForwardingEntryExpiry_goesOn (core n : Nat) (s : State) : GoesOn (execForwardingEntryExpiry core n s) := by
  unfold execForwardingEntryExpiry
  split <;> exact goesOn_next _

/-! ### Child operations and their tokens -/

theorem issueOp_goesOn (r : FormRules) (d a b : Reg) (x : BitVec 1) (p : BitVec 2) (n k : BitVec 1) (s : State) :
    GoesOn (issueOp r d a b x p n k s) := by
  unfold issueOp
  refine goesOn_guard <| readNow_goesOn fun _ _ => goesOn_guard <| goesOn_guard <| goesOn_guard <| goesOn_guard <| goesOn_guard ?_
  split
  · exact goesOn_next _
  · extract_lets
    split
    · exact goesOn_next _
    · exact goesOn_guard <| goesOn_next _
theorem statusOp_goesOn (s : State) (d a : Reg) (waits retires : Bool) : GoesOn (statusOp s d a waits retires) := by
  unfold statusOp
  refine goesOn_guard ?_
  split
  · exact goesOn_next _
  · exact goesOn_guard <| goesOn_guard <| goesOn_guard <| goesOn_next _
theorem onToken_goesOn (s : State) (a : Reg) (f : State → Nat → State) : GoesOn (onToken s a f) :=
  goesOn_guard <| goesOn_guard <| goesOn_next _

/-! ### Copies -/

theorem execCopyChunk_goesOn (core slot : Nat) (s : State) : GoesOn (execCopyChunk core slot s) := by
  unfold execCopyChunk
  refine goesOn_guard <| goesOn_guard <| goesOn_guard ?_
  extract_lets
  split
  · exact goesOn_next _
  · exact goesOn_guard <| goesOn_guard <| goesOn_next _
  · exact goesOn_guard <| goesOn_next _
theorem execCopyBeat_goesOn (core slot n : Nat) (s : State) : GoesOn (execCopyBeat core slot n s) := by
  unfold execCopyBeat
  extract_lets
  split
  · exact goesOn_next _
  · refine goesOn_guard ?_
    extract_lets
    split
    · exact goesOn_next _
    · split <;> exact goesOn_next _
theorem execCopySchedule_goesOn (cluster : Nat) (s : State) : GoesOn (execCopySchedule cluster s) := by
  unfold execCopySchedule
  refine goesOn_guard ?_
  split <;> exact goesOn_next _

/-! ### Matrix engines -/

theorem execMigration_goesOn (engine core slot : Nat) (s : State) : GoesOn (execMigration engine core slot s) := by
  unfold execMigration
  refine goesOn_guard ?_
  split <;> exact goesOn_next _
theorem execLaneDispatch_goesOn (engine lane : Nat) (s : State) : GoesOn (execLaneDispatch engine lane s) := by
  unfold execLaneDispatch
  refine goesOn_guard ?_
  split
  · exact goesOn_next _
  · refine goesOn_guard ?_
    extract_lets
    split <;> exact goesOn_next _
theorem execMmxCompletion_goesOn (engine : Nat) (s : State) : GoesOn (execMmxCompletion engine s) := by
  unfold execMmxCompletion
  split
  · exact goesOn_next _
  · exact goesOn_guard <| goesOn_next _
theorem execPhldExecution_goesOn (engine : Nat) (s : State) : GoesOn (execPhldExecution engine s) := by
  unfold execPhldExecution
  split
  · exact goesOn_next _
  · refine goesOn_guard ?_
    split <;> exact goesOn_next _
theorem execPhdecExecution_goesOn (engine : Nat) (s : State) : GoesOn (execPhdecExecution engine s) := by
  unfold execPhdecExecution
  split
  · exact goesOn_next _
  · refine goesOn_guard ?_
    split
    · exact goesOn_next _
    · exact goesOn_next _
    · extract_lets
      split <;> exact goesOn_next _
theorem execPhresExecution_goesOn (engine : Nat) (s : State) : GoesOn (execPhresExecution engine s) := by
  unfold execPhresExecution
  split
  · exact goesOn_next _
  · refine goesOn_guard ?_
    split <;> exact goesOn_next _
theorem execBackBankLoad_goesOn (engine : Nat) (s : State) : GoesOn (execBackBankLoad engine s) := by
  unfold execBackBankLoad
  split
  · exact goesOn_next _
  · exact goesOn_guard <| goesOn_next _
theorem execPhswpExecution_goesOn (engine : Nat) (s : State) : GoesOn (execPhswpExecution engine s) := by
  unfold execPhswpExecution
  split
  · exact goesOn_next _
  · refine goesOn_guard <| goesOn_guard ?_
    split <;> exact goesOn_next _
theorem execPhdropExecution_goesOn (engine : Nat) (s : State) : GoesOn (execPhdropExecution engine s) := by
  unfold execPhdropExecution
  split <;> exact goesOn_next _
theorem transferStep_goesOn (s : State) (core slot : Nat) (o : Op) (total chunk : Nat) (one : State → Nat → Option State) :
    GoesOn (transferStep s core slot o total chunk one) :=
  goesOn_guard <| goesOn_guard <| goesOn_next _
theorem execTcopyBpExecution_goesOn (engine : Nat) (s : State) : GoesOn (execTcopyBpExecution engine s) := by
  unfold execTcopyBpExecution
  split
  · exact goesOn_next _
  · exact transferStep_goesOn ..
theorem execTcopyAccExecution_goesOn (engine : Nat) (s : State) : GoesOn (execTcopyAccExecution engine s) := by
  unfold execTcopyAccExecution
  split
  · exact goesOn_next _
  · exact transferStep_goesOn ..
theorem execMatSwitchTimeout_goesOn (engine lane : Nat) (s : State) : GoesOn (execMatSwitchTimeout engine lane s) := by
  unfold execMatSwitchTimeout
  split
  · exact goesOn_guard <| goesOn_guard <| goesOn_next _
  · exact goesOn_next _

/-! ### Thermal units -/

theorem execWearMove_goesOn (deck bank spare : Nat) (heater : BitVec 12) (s : State) :
    GoesOn (execWearMove deck bank spare heater s) := by
  unfold execWearMove
  extract_lets
  split
  · exact goesOn_guard <| goesOn_next _
  · split
    · exact goesOn_guard <| goesOn_next _
    · exact goesOn_next _

/-! ### Interrupts -/

theorem execIrq_goesOn (a : Reg) (s : State) : GoesOn (execIrq a s) := by
  unfold execIrq
  extract_lets
  split
  · exact goesOn_next _
  · exact goesOn_guard <| goesOn_guard <| released_goesOn fun _ => goesOn_next _

/-! ### Barriers and the exchange of groups -/

theorem execGroupWithdrawal_goesOn (group core : Nat) (s : State) : GoesOn (execGroupWithdrawal group core s) := by
  unfold execGroupWithdrawal
  split
  · split
    · exact goesOn_guard <| goesOn_next _
    · exact goesOn_next _
  · exact goesOn_next _
theorem execGroupExchangeRound_goesOn (group rank : Nat) (pay : Word) (err : Bool) (wdn : Nat)
    (far : Option (Nat × Nat × FarWord)) (s : State) : GoesOn (execGroupExchangeRound group rank pay err wdn far s) := by
  unfold execGroupExchangeRound
  split
  · exact goesOn_next _
  · split
    · exact goesOn_next _
    · split <;> exact goesOn_guard <| goesOn_next _
theorem execBarrierEvent_goesOn (id : Nat) (s : State) : GoesOn (execBarrierEvent id s) := by
  unfold execBarrierEvent
  split
  · exact goesOn_next _
  · refine goesOn_guard ?_
    extract_lets
    split
    · refine goesOn_ite (goesOn_guard <| goesOn_next _) <| goesOn_guard ?_
      split
      · exact goesOn_next _
      · exact goesOn_guard <| goesOn_next _
    · exact goesOn_ite (goesOn_guard <| goesOn_next _) <| goesOn_guard <| goesOn_guard <| goesOn_next _
    · exact goesOn_next _
theorem execParentFlip_goesOn (id : Nat) (s : State) : GoesOn (execParentFlip id s) := by
  unfold execParentFlip
  split
  · exact goesOn_next _
  · split
    · exact goesOn_ite (goesOn_guard <| goesOn_next _) <| goesOn_guard <| goesOn_next _
    · exact goesOn_next _
/-- An instruction on a barrier goes on where what follows the checks of its name does. -/
theorem withBar_goesOn {own : Bool} {a : Reg} {s : State} {k : Word → Nat → Out} (hk : ∀ x n, GoesOn (k x n)) :
    GoesOn (withBar own a s k) :=
  goesOn_guard (hk _ _)
theorem sendEvent_goesOn (s : State) (k : Nat) (e : BEvent) : GoesOn (sendEvent s k e) :=
  goesOn_guard <| released_goesOn fun _ => goesOn_next _
theorem execBwait_goesOn (d a : Reg) (s : State) : GoesOn (execBwait d a s) := by
  unfold execBwait
  refine withBar_goesOn fun _ _ => ?_
  extract_lets
  split
  · exact goesOn_next _
  · exact goesOn_guard <| goesOn_guard <| goesOn_next _

/-! ### Groups and collectives -/

/-- The issue of a COLL form counts the operation that it has created, or answers as the issue does. -/
theorem issueColl_goesOn (f : Form) (d a b : Reg) (x : BitVec 1) (p : BitVec 2) (n k : BitVec 1) (s : State) :
    GoesOn (issueColl f d a b x p n k s) := by
  obtain ⟨t, ht⟩ := issueOp_goesOn (rulesColl f) d a b x p n k s
  unfold issueColl
  rw [ht]
  cases s.freeSlotNo s.myCore <;> exact goesOn_next _
theorem execCollectiveComplete_goesOn (group : Nat) (far : List (Nat × Nat × List Byte)) (s : State) :
    GoesOn (execCollectiveComplete group far s) := by
  unfold execCollectiveComplete
  extract_lets
  split
  · exact goesOn_guard <| goesOn_next _
  · refine goesOn_guard ?_
    extract_lets
    split
    refine goesOn_guard ?_
    extract_lets
    split <;> exact goesOn_next _
theorem execCollectiveDrainTimeout_goesOn (group core : Nat) (s : State) : GoesOn (execCollectiveDrainTimeout group core s) := by
  unfold execCollectiveDrainTimeout
  split
  · exact goesOn_next _
  · exact goesOn_guard <| goesOn_next _

/-! ### DRAM, coherence and page moves -/

theorem execXinvComplete_goesOn (s : State) : GoesOn (execXinvComplete s) := by
  unfold execXinvComplete
  split
  · exact goesOn_next _
  · exact goesOn_guard <| goesOn_next _
theorem execCohTransactionComplete_goesOn (pa : Nat) (written : Bool) (data : VWord) (s : State) :
    GoesOn (execCohTransactionComplete pa written data s) := by
  unfold execCohTransactionComplete
  split
  · exact goesOn_next _
  · exact goesOn_guard <| goesOn_next _
theorem execProbeTimeout_goesOn (pa member : Nat) (s : State) : GoesOn (execProbeTimeout pa member s) := by
  unfold execProbeTimeout
  split
  · exact goesOn_next _
  · exact goesOn_guard <| goesOn_next _
theorem execRasFoldExpiry_goesOn (source unit : Nat) (s : State) : GoesOn (execRasFoldExpiry source unit s) := by
  unfold execRasFoldExpiry
  split
  · exact goesOn_next _
  · exact goesOn_guard <| goesOn_next _
theorem execPageMove_goesOn (pa : Nat) (s0 : State) : GoesOn (execPageMove pa s0) := by
  unfold execPageMove
  refine goesOn_guard <| goesOn_guard <| goesOn_guard ?_
  split
  · exact goesOn_next _
  · exact goesOn_guard <| goesOn_next _
theorem execPageMoveCheck_goesOn (s : State) : GoesOn (execPageMoveCheck s) := by
  unfold execPageMoveCheck
  split
  · exact goesOn_next _
  · exact goesOn_ite (goesOn_guard <| goesOn_next _) <| goesOn_guard <| goesOn_guard <| goesOn_guard <| goesOn_guard <| goesOn_next _

/-! ### EXT -/

/-- The majors of FI write a register, and MOVI and MOVH first trap a word that is no row's. -/
theorem extImm_goesOn (w : IWord) (c : BitVec 42) (s : State) : GoesOn (extImm w c s) := by
  unfold extImm
  extract_lets
  split
  case h_8 | h_9 => exact goesOn_ite (goesOn_next _) (goesOn_next _)
  all_goals exact goesOn_next _
theorem extMem_goesOn (w : IWord) (off : BitVec 52) (s : State) : GoesOn (extMem w off s) := by
  unfold extMem
  extract_lets
  split
  case h_8 | h_9 | h_10 | h_11 | h_13 => exact issueStore_goesOn ..
  all_goals exact issueLoad_goesOn ..
theorem extBranch_goesOn (w : IWord) (disp : BitVec 52) (s : State) : GoesOn (extBranch w disp s) := by
  unfold extBranch
  refine goesOn_ite ?_ (branch_goesOn ..)
  split <;> exact goesOn_next _
theorem execExt_goesOn (i : BitVec 26) (s : State) : GoesOn (execExt i s) := by
  unfold execExt
  dsimp only
  split
  · exact goesOn_next _
  · exact goesOn_guard <| goesOn_ite (extImm_goesOn ..) <| goesOn_ite (extMem_goesOn ..) <|
      goesOn_ite (extBranch_goesOn ..) <| jump_goesOn ..

/-! ### Semaphores -/

/-- An instruction on a semaphore goes on where what follows the check of its index does. -/
theorem withSem_goesOn {a : Reg} {s : State} {k : Nat → Out} (hk : ∀ n, GoesOn (k n)) : GoesOn (withSem a s k) := by
  unfold withSem
  extract_lets
  split
  · exact goesOn_next _
  · exact goesOn_guard (hk _)
theorem semUpdateOp_goesOn (s : State) (n : Nat) (op : SemOp) : GoesOn (semUpdateOp s n op) :=
  goesOn_guard <| released_goesOn fun _ => goesOn_next _
theorem execSemwait_goesOn (a b : Reg) (s : State) : GoesOn (execSemwait a b s) := by
  unfold execSemwait
  refine withSem_goesOn fun _ => ?_
  extract_lets
  split
  · exact goesOn_next _
  · exact goesOn_guard <| goesOn_next _
theorem execSemUnitOp_goesOn (id : Nat) (s : State) : GoesOn (execSemUnitOp id s) := by
  unfold execSemUnitOp
  split
  · exact goesOn_next _
  · split
    · refine goesOn_guard <| goesOn_guard ?_
      split
      · exact goesOn_next _
      · exact goesOn_next _
      · exact goesOn_next _
      · exact goesOn_guard <| goesOn_next _
      · exact goesOn_guard <| goesOn_next _
    · exact goesOn_next _

/-! ### The fabric -/

theorem execCircExecution_goesOn (core slot : Nat) (s : State) : GoesOn (execCircExecution core slot s) := by
  unfold execCircExecution
  refine goesOn_guard ?_
  split
  · exact goesOn_next _
  · exact goesOn_guard <| goesOn_guard <| goesOn_guard <| goesOn_next _
theorem execCircuitTrained_goesOn (port skew : Nat) (s : State) : GoesOn (execCircuitTrained port skew s) := by
  unfold execCircuitTrained
  refine goesOn_guard ?_
  extract_lets
  split <;> exact goesOn_next _
theorem execPacketAck_goesOn (id : Nat) (answer : FabAns) (s : State) : GoesOn (execPacketAck id answer s) := by
  unfold execPacketAck
  split
  · exact goesOn_next _
  · refine goesOn_guard ?_
    extract_lets
    split <;> exact goesOn_next _
theorem execPacketLifetimeExpiry_goesOn (id : Nat) (s : State) : GoesOn (execPacketLifetimeExpiry id s) := by
  unfold execPacketLifetimeExpiry
  split
  · exact goesOn_next _
  · exact goesOn_guard <| goesOn_next _
theorem execDeadTagExpiry_goesOn (n : Nat) (s : State) : GoesOn (execDeadTagExpiry n s) := by
  unfold execDeadTagExpiry
  split
  · exact goesOn_guard <| goesOn_next _
  · exact goesOn_next _
theorem execFamwrExecution_goesOn (core slot : Nat) (s : State) : GoesOn (execFamwrExecution core slot s) := by
  unfold execFamwrExecution
  refine goesOn_guard ?_
  split
  · exact goesOn_next _
  · exact goesOn_guard <| goesOn_guard <| goesOn_guard <| goesOn_next _
theorem execDrainMarkerAck_goesOn (core slot : Nat) (s : State) : GoesOn (execDrainMarkerAck core slot s) := by
  unfold execDrainMarkerAck
  split
  · exact goesOn_guard <| goesOn_next _
  · exact goesOn_next _
theorem execPacketArrival_goesOn (src seq : Nat) (body : FabIn) (s : State) : GoesOn (execPacketArrival src seq body s) := by
  unfold execPacketArrival
  refine goesOn_guard ?_
  split <;> exact goesOn_next _
theorem execCancelAtEngine_goesOn (core slot : Nat) (s : State) : GoesOn (execCancelAtEngine core slot s) := by
  unfold execCancelAtEngine
  refine goesOn_guard ?_
  split
  · exact goesOn_guard <| goesOn_next _
  · exact goesOn_next _
  · exact goesOn_next _
  · exact goesOn_ite (goesOn_guard <| goesOn_next _) <| goesOn_next _

/-! ### Killed tasks -/

theorem execTkill_goesOn (a : Reg) (s : State) : GoesOn (execTkill a s) := by
  unfold execTkill
  refine goesOn_guard <| goesOn_guard ?_
  split <;> exact goesOn_guard <| goesOn_next _
theorem execTkillPurge_goesOn (n core : Nat) (s : State) : GoesOn (execTkillPurge n core s) := by
  unfold execTkillPurge
  split
  · exact goesOn_next _
  · split
    · exact goesOn_next _
    · extract_lets
      split
      exact goesOn_next _
theorem execTkillComplete_goesOn (n : Nat) (s : State) : GoesOn (execTkillComplete n s) := by
  unfold execTkillComplete
  split
  · exact goesOn_next _
  · exact goesOn_guard <| goesOn_guard <| goesOn_next _

/-! ### Jobs -/

theorem execLaunch_goesOn (v : Word) (s : State) : GoesOn (execLaunch v s) := by
  unfold execLaunch
  refine goesOn_guard <| goesOn_guard ?_
  split
  · exact goesOn_next _
  · extract_lets
    split <;> exact goesOn_next _
theorem execJobend_goesOn (v : Word) (s : State) : GoesOn (execJobend v s) := by
  unfold execJobend
  split
  · exact goesOn_next _
  · exact goesOn_guard <| goesOn_guard <| goesOn_next _
theorem execJobSwitchComplete_goesOn (s : State) : GoesOn (execJobSwitchComplete s) := by
  unfold execJobSwitchComplete
  split
  · exact goesOn_next _
  · exact goesOn_guard <| goesOn_next _

/-! ### The host's windows -/

theorem execCheckpoint_goesOn (v : Word) (s : State) : GoesOn (execCheckpoint v s) := by
  unfold execCheckpoint
  extract_lets
  split
  · exact goesOn_next _
  · exact goesOn_guard <| goesOn_guard <| goesOn_next _
theorem execCheckpointComplete_goesOn (ok : Bool) (s : State) : GoesOn (execCheckpointComplete ok s) := by
  unfold execCheckpointComplete
  split
  · exact goesOn_next _
  · refine goesOn_guard ?_
    split
    · exact goesOn_guard <| goesOn_next _
    · exact goesOn_next _

/-! ### Writes of the control window -/

theorem writeDevice_goesOn (s : State) (off : Nat) (v : Word) : GoesOn (s.writeDevice off v) :=
  goesOn_ite (execLaunch_goesOn ..) <| goesOn_ite (execJobend_goesOn ..) <| goesOn_guard <| goesOn_ite (goesOn_guard <| goesOn_next _) <|
    goesOn_guard <| goesOn_guard <| goesOn_guard <| goesOn_guard <| goesOn_guard <| goesOn_ite (execCheckpoint_goesOn ..) <| goesOn_next _
theorem writeIdentity_goesOn (s : State) (off : Nat) (v : Word) : GoesOn (s.writeIdentity off v) :=
  goesOn_ite (goesOn_guard <| goesOn_next _) <| goesOn_guard <| goesOn_guard <| goesOn_ite (goesOn_guard <| goesOn_next _) <|
    goesOn_next _
theorem writeWindow_goesOn (s : State) (k i : Nat) (v : Word) : GoesOn (s.writeWindow k i v) :=
  goesOn_ite (goesOn_ite (goesOn_guard <| goesOn_next _) <| goesOn_next _) <| goesOn_guard <| goesOn_ite (goesOn_guard <|
    goesOn_next _) <| goesOn_next _
theorem writeMemory_goesOn (s : State) (off : Nat) (v : Word) : GoesOn (s.writeMemory off v) :=
  goesOn_ite (goesOn_guard <| goesOn_next _) <| goesOn_guard <| goesOn_guard <| goesOn_ite (execPageMove_goesOn ..) <|
    goesOn_ite (writeWindow_goesOn ..) <| goesOn_guard <| goesOn_next _
theorem writeMsix_goesOn (s : State) (off : Nat) (v : Word) : GoesOn (s.writeMsix off v) :=
  goesOn_guard <| goesOn_guard <| goesOn_guard <| goesOn_guard <| goesOn_next _
theorem writeThermal_goesOn (s : State) (off : Nat) (v : Word) : GoesOn (s.writeThermal off v) :=
  goesOn_ite (goesOn_ite (goesOn_guard <| goesOn_next _) <| goesOn_next _) <| goesOn_guard <| goesOn_guard <| goesOn_guard <|
    goesOn_guard <| goesOn_guard <| goesOn_next _
theorem writeReg_goesOn (s : State) (off : Nat) (v : Word) : GoesOn (s.writeReg off v) :=
  goesOn_guard <| goesOn_ite (writeDevice_goesOn ..) <| goesOn_ite (writeIdentity_goesOn ..) <| goesOn_ite (writeMemory_goesOn ..) <|
    goesOn_ite (goesOn_guard <| goesOn_next _) <| goesOn_ite (goesOn_guard <| goesOn_next _) <| goesOn_ite (writeMsix_goesOn ..) <|
    goesOn_ite (writeThermal_goesOn ..) <| goesOn_guard <| goesOn_guard <| goesOn_guard <| goesOn_next _

/-! ### Every instruction and event -/

/-- The meaning of every instruction and event goes on. Those of the first case answer a next state without a choice of their own, most of
them a register written (`setG`, `setM`, `setF`, `vLanes`). -/
theorem exec_goesOn (i : Instr) (s : State) : GoesOn (exec i s) := by
  cases i with
  | add | sub | and | or | xor | andn | nor | xnor | slt | sltn | min | max | minn | maxn | sll | srl | sra | ror | mul | mulh | mulhn
      | div | divn | rem | remn | clz | ctz | popc | sxb | sxh | sxw | qrd | wwr | wclr | addi | andi | ori | xori | slti | sltni
      | muli | movi | movh | addpi | slli | srli | srai | rori | addp | subp | tagget | tagset | pclr | l1inv | l1wb | trap | vadd
      | vsub | vmul | vmin | vmax | vabs | vneg | vdiv | vsqrt | vminn | vmaxn | vadds | vsubs | vaddsn | vsubsn | vand | vor | vxor
      | vsll | vsrl | vsra | vmov | vsplat | vfma | vfms | vfnma | vfnms | vmac | vceq | vcne | vclt | vcle | vcltn | vclen | vcun
      | vsel | mand | mor | mxor | mandn | mnot | mset | mget | mpopc | vperm | vzip | vunzip | vrotl | vext | vins | vrsum | vrmin
      | vrmax | vrand | vror | vrxor | vdot | fadd | fsub | fmul | fdiv | fsqrt | fma | fmin | fmax | fceq | fclt | fcle | fabs | fneg
      | fclass | ftoi | fton | itof | ntof | fcvt | dtwr | dtrd | dtmode | cohLocalRead | cohLocalWrite | packetRetry | packageReset
      | ringWrite | ringmoveWrite | deckctlWrite | thringWrite | svnburn | readClear =>
    exact goesOn_next _
  | ldB | ldBn | ldH | ldHn | ldW | ldWn | ldD | vld | ldAcq => exact issueLoad_goesOn ..
  | stB | stH | stW | stD | vst => exact issueStore_goesOn ..
  | stRel => exact execStRel_goesOn ..
  | vldf => exact execVldf_goesOn ..
  | vstf => exact execVstf_goesOn ..
  | pref => exact execPref_goesOn ..
  | prefResPin | prefResUnpin => exact prefRes_goesOn ..
  | fence | rfree | regionReclaim | pwakeExecution | memoryWindowRead => exact goesOn_guard <| goesOn_guard <| goesOn_next _
  | atomAdd | atomAnd | atomOr | atomXor | atomSwap | atomCas | atomMin | atomMax | atomMinn | atomMaxn | atomFadd =>
    exact atomOp_goesOn ..
  | brEq | brNe | brLt | brGe | brLtn | brGen => exact branch_goesOn ..
  | j | jl => exact jump_goesOn ..
  | jr | jlr => exact jumpReg_goesOn ..
  | rpt => exact execRpt_goesOn ..
  | waitc | endAct | align | sysrd | syswr | vcvt | vcvts | vdqnt | vdotSp | tfence | budgetExpiry | waittimeExpiry | alignRelease
      | cohProbe | xinv | transientDeadline | transientRearm | deadlineWrite | remapError | refreshPreemption | opTerminal
      | engineInboxEntry | trimApply | deckStateApply | probeCalibration | setupRequest | teardownReceived | circTExecution
      | pgateExecution | laserLoss | laserRelight | jobSwitch | semvalWrite | semincWrite | msixUnmask | pcieLinkTraining
      | monitorSample | tempRecordTimer | ringMoveApply | powerAlert | scrub | bootgo | firmwareReady | attestationGo
      | attestationDone | laserModuleRelit =>
    exact goesOn_guard <| goesOn_next _
  | send | sendC => exact sendOp_goesOn ..
  | start => exact goesOn_guard <| goesOn_guard <| goesOn_guard <| goesOn_guard <| goesOn_guard <| goesOn_guard <| goesOn_next _
  | spawn => exact execSpawn_goesOn ..
  | yield => exact execYield_goesOn ..
  | migr | cohGetx | collectiveStart | setupBackoffExpiry => exact goesOn_guard <| goesOn_guard <| goesOn_guard <| goesOn_next _
  | chen | chdis | chpri => exact chanOp_goesOn ..
  | ralloc => exact execRalloc_goesOn ..
  | tkill => exact execTkill_goesOn ..
  | irq => exact execIrq_goesOn ..
  | vqnt => exact goesOn_guard <| goesOn_guard <| goesOn_ite (readNow_goesOn fun _ _ => goesOn_next _) <| goesOn_next _
  | ftwr => exact goesOn_guard <| goesOn_guard <| readNow_goesOn fun _ _ => goesOn_guard <| goesOn_next _
  | ftrd => exact goesOn_guard <| issueStore_goesOn ..
  | twait | tstat | tstatR =>
    simp only [exec_twait, exec_tstat, exec_tstatR]
    exact statusOp_goesOn ..
  | tcancel | tresume | tdet =>
    simp only [exec_tcancel, exec_tresume, exec_tdet]
    exact onToken_goesOn ..
  | trec => exact goesOn_guard <| goesOn_guard <| issueStore_goesOn ..
  | cpy | cpyX | cpySp | cpyR | cpyF | mmx | mmxA | phld | phdec | phswp | phres | phdrop | tcopy | tcopyBp | tcopyAcc | circ | circT
      | famwr =>
    exact issueOp_goesOn ..
  | binit =>
    simp only [exec_binit]
    exact withBar_goesOn fun _ _ => goesOn_guard <| goesOn_guard <| readNow_goesOn fun _ _ => goesOn_guard <| goesOn_guard <|
      goesOn_next _
  | barr | bwdraw | bbytes =>
    simp only [exec_barr, exec_bwdraw, exec_bbytes]
    exact withBar_goesOn fun _ _ => sendEvent_goesOn ..
  | bwait => exact execBwait_goesOn ..
  | bnote =>
    simp only [exec_bnote]
    exact withBar_goesOn fun _ _ => goesOn_guard <| goesOn_guard <| goesOn_guard <| goesOn_next _
  | bstat =>
    simp only [exec_bstat]
    exact withBar_goesOn fun _ _ => goesOn_guard <| goesOn_next _
  | blink | bbind =>
    simp only [exec_blink, exec_bbind]
    exact withBar_goesOn fun _ _ => goesOn_guard <| goesOn_guard <| goesOn_guard <| goesOn_guard <| goesOn_next _
  | gjoin | gleave | cred | cbcast | cgath | crscat | ca2a => exact issueColl_goesOn ..
  | semadd | semset =>
    simp only [exec_semadd, exec_semset]
    exact withSem_goesOn fun _ => semUpdateOp_goesOn ..
  | semrd =>
    simp only [exec_semrd]
    exact withSem_goesOn fun _ => goesOn_guard <| goesOn_next _
  | semwait => exact execSemwait_goesOn ..
  | semwaitN =>
    simp only [exec_semwaitN]
    exact withSem_goesOn fun _ => goesOn_guard <| goesOn_guard <| goesOn_next _
  | pgate | pwake => exact goesOn_ite (issueOp_goesOn ..) <| goesOn_next _
  | ext => exact execExt_goesOn ..
  | lateStoreFault => exact execLateStoreFault_goesOn ..
  | deferredFault => exact execDeferredFault_goesOn ..
  | messageArrival => exact execMessageArrival_goesOn ..
  | channelSelection => exact execChannelSelection_goesOn ..
  | spillActivation => exact execSpillActivation_goesOn ..
  | replayActivation => exact execReplayActivation_goesOn ..
  | atomicHandlerActivation => exact execAtomicHandlerActivation_goesOn ..
  | loadReply => exact execLoadReply_goesOn ..
  | storeAck => exact execStoreAck_goesOn ..
  | forwardingEntryExpiry => exact execForwardingEntryExpiry_goesOn ..
  | channelControlPacket => exact execChannelControlPacket_goesOn ..
  | remoteLoad => exact execRemoteLoad_goesOn ..
  | remoteStore => exact execRemoteStore_goesOn ..
  | storeBufferDrain => exact execStoreBufferDrain_goesOn ..
  | l2StoreAccept => exact execL2StoreAccept_goesOn ..
  | translationWalk => exact execTranslationWalk_goesOn ..
  | builtinAtomic => exact execBuiltinAtomic_goesOn ..
  | atomicReply => exact execAtomicReply_goesOn ..
  | cohGets | activeMessageBlock => exact goesOn_guard <| goesOn_guard <| goesOn_guard <| goesOn_guard <| goesOn_next _
  | cohEviction | setupAnswer => exact goesOn_guard <| goesOn_guard <| goesOn_guard <| goesOn_guard <| goesOn_guard <| goesOn_next _
  | cohTransactionComplete => exact execCohTransactionComplete_goesOn ..
  | probeTimeout => exact execProbeTimeout_goesOn ..
  | xinvComplete => exact execXinvComplete_goesOn ..
  | pageMove => exact execPageMove_goesOn ..
  | pageMoveCheck => exact execPageMoveCheck_goesOn ..
  | memoryEccError => exact goesOn_guard <| goesOn_guard <| goesOn_ite (goesOn_guard <| goesOn_guard <| goesOn_next _) <| goesOn_next _
  | rasFoldExpiry => exact execRasFoldExpiry_goesOn ..
  | copySchedule => exact execCopySchedule_goesOn ..
  | copyChunk => exact execCopyChunk_goesOn ..
  | copyBeat => exact execCopyBeat_goesOn ..
  | cancelAtEngine => exact execCancelAtEngine_goesOn ..
  | laneDispatch => exact execLaneDispatch_goesOn ..
  | migration => exact execMigration_goesOn ..
  | mmxCompletion => exact execMmxCompletion_goesOn ..
  | phldExecution => exact execPhldExecution_goesOn ..
  | phdecExecution => exact execPhdecExecution_goesOn ..
  | backBankLoad => exact execBackBankLoad_goesOn ..
  | phresExecution => exact execPhresExecution_goesOn ..
  | phswpExecution => exact execPhswpExecution_goesOn ..
  | phdropExecution => exact execPhdropExecution_goesOn ..
  | tcopyBpExecution => exact execTcopyBpExecution_goesOn ..
  | tcopyAccExecution => exact execTcopyAccExecution_goesOn ..
  | matSwitchTimeout => exact execMatSwitchTimeout_goesOn ..
  | barrierEvent => exact execBarrierEvent_goesOn ..
  | parentFlip => exact execParentFlip_goesOn ..
  | groupExchangeRound => exact execGroupExchangeRound_goesOn ..
  | groupWithdrawal => exact execGroupWithdrawal_goesOn ..
  | collectiveComplete => exact execCollectiveComplete_goesOn ..
  | collectiveDrainTimeout => exact execCollectiveDrainTimeout_goesOn ..
  | packetArrival => exact execPacketArrival_goesOn ..
  | packetAck => exact execPacketAck_goesOn ..
  | packetLifetimeExpiry => exact execPacketLifetimeExpiry_goesOn ..
  | deadTagExpiry => exact execDeadTagExpiry_goesOn ..
  | circExecution => exact execCircExecution_goesOn ..
  | circuitTrained => exact execCircuitTrained_goesOn ..
  | famwrExecution => exact execFamwrExecution_goesOn ..
  | drainMarkerAck => exact execDrainMarkerAck_goesOn ..
  | tkillPurge =>
    rw [exec_tkillPurge]
    exact execTkillPurge_goesOn ..
  | tkillComplete => exact execTkillComplete_goesOn ..
  | jobSwitchComplete => exact execJobSwitchComplete_goesOn ..
  | launch =>
    rw [exec_launch]
    exact execLaunch_goesOn ..
  | jobend => exact execJobend_goesOn ..
  | memoryWindowWrite => exact goesOn_guard <| goesOn_ite (goesOn_guard <| goesOn_next _) <| goesOn_guard <| goesOn_next _
  | semUnitOp => exact execSemUnitOp_goesOn ..
  | checkpoint => exact execCheckpoint_goesOn ..
  | checkpointComplete => exact execCheckpointComplete_goesOn ..
  | wearMove => exact execWearMove_goesOn ..
  | registerWrite => exact goesOn_guard <| writeReg_goesOn ..
  | illegalInstruction => exact execIllegalInstruction_goesOn ..
  | instructionFetchFault => exact execInstructionFetchFault_goesOn ..

/-! ### The step -/

/-- An issue goes on where what it executes does: a context whose wait goes on hands the issue to the next one. -/
theorem issueFrom_goesOn {ex : Instr → State → Out} (hex : ∀ i t, GoesOn (ex i t)) (s : State) (ks : List Nat) :
    GoesOn (issueFrom ex s ks) := by
  induction ks generalizing s with
  | nil => exact goesOn_next s
  | cons k ks ih =>
    obtain ⟨t, ht⟩ := hex (nextInstr (atContext s k) k).2 (nextInstr (atContext s k) k).1
    simp only [issueFrom, ht]
    exact goesOn_ite (ih _) (goesOn_next t)
/-- A choice carried out goes on where what it executes does. -/
theorem perform_goesOn {ex : Instr → State → Out} (hex : ∀ i t, GoesOn (ex i t)) (a : Action) (s : State) :
    GoesOn (perform ex a s) := by
  cases a with
  | issue core => exact issueFrom_goesOn hex s _
  | tick n => exact goesOn_next _
  | event i => exact goesOn_guard (hex i s)
/-- A step goes on, whether the environment has made the choice or the model makes it. -/
theorem step_goesOn (s : State) : GoesOn (step s) := by
  unfold step takeStep
  split <;> exact perform_goesOn exec_goesOn ..

/-- Settles O57: every meaning answers a next state on each of its branches, so a step does. -/
theorem everyStepGoesOn : Obligations.EveryStepGoesOn := ⟨exec_goesOn, step_goesOn⟩

end Sys2Proof.Proofs
end
